-- ==== Sys2Proof/Word.lean ====
section
/-!
DEFINITION. The unit of every frame on the supervisor link and the desk links: one byte of eight bits
(chapter 12). Everything wider is built from bytes in `Machine/Operands.lean` and `Machine/Encode.lean`.
-/

namespace Sys2Proof

/-- One byte on a serial link. -/
abbrev Byte := BitVec 8

/-- A set of the eight modifiers: bit 0 is code 224, bit 7 is code 231 (R197). -/
abbrev Mods := BitVec 8

/-- A set of the five mouse buttons: bits 0 to 4 are buttons 1 to 5 (R197). -/
abbrev Buttons := BitVec 5

/-- A set of the four zones: bits 0 to 3 are zones 0 to 3 (R197). -/
abbrev ZoneSet := BitVec 4

end Sys2Proof
end

