-- ==== Sys2Proof/Syntax.lean ====
section
/-!
DEFINITION. The commands of the KD84, one constructor per row of spec/opcode_table.json, and the types of their
operands. A request of the host carries its tag and its body bytes, laid out as R197 gives them. A desk link frame
carries the link and the fields of R198 and R199. An event carries the unit it happens at and what arrives there.
-/

namespace Sys2Proof

/-- A computer: value `i` is C(i+1). -/
abbrev Comp := Fin 8
/-- A desk link: value `i` is DL(i+1), with lanes O(i+1) and N(i+1). -/
abbrev LinkId := Fin 2
/-- A desk monitor: value `i` is M(i+1). -/
abbrev Monitor := Fin 4
/-- A video output: values 0 to 3 are M1 to M4, values 4 and 5 are O1 and O2. -/
abbrev OutputId := Fin 6
/-- A line: value `i` is L(i). -/
abbrev LineId := Fin 16
/-- A security zone, 0..3. -/
abbrev Zone := Fin 4

/-- The letter of a head of a computer. -/
inductive Letter
  | a | b
  deriving DecidableEq, Repr

/-- One of the sixteen heads C1A to C8B. -/
structure Head where
  comp : Comp
  letter : Letter
  deriving DecidableEq, Repr

/-- The mode of a video signal: width and height in pixels, refresh in centihertz. -/
structure Mode where
  width : Nat
  height : Nat
  refresh : Nat
  deriving DecidableEq, Repr

/-- The pointer mode of a computer or of a session. -/
inductive PointerMode
  | absolute | relative
  deriving DecidableEq, Repr

/-- The format a computer has chosen on one interface of its port (R64). -/
inductive Format
  | full | boot
  deriving DecidableEq, Repr

/-- The two interfaces of a computer port. -/
inductive Interface
  | keyboard | pointer
  deriving DecidableEq, Repr

/-- The three keyboard lights. -/
structure Lights where
  num : Bool
  caps : Bool
  scroll : Bool
  deriving DecidableEq, Repr

/-- A key state: the modifiers held and the other keys in press order. -/
structure KeyState where
  mods : Mods
  keys : List Nat
  deriving DecidableEq, Repr

/-- Which of the two causes of a device reset took place (R195). -/
inductive DeviceResetCause
  | powerOn | resetPin
  deriving DecidableEq, Repr

/-- The outbound summary of an ALIVE (R140). -/
inductive OutboundSummary
  | none | offered | active
  deriving DecidableEq, Repr

/-- The inbound summary of an ALIVE (R140). -/
inductive InboundSummary
  | none | offeredIn | active
  deriving DecidableEq, Repr

/-- The viewer control state of an inbound lane (R161). -/
inductive ViewerControl
  | none | requested | held
  deriving DecidableEq, Repr

/-- The fields of an ALIVE (R140). -/
structure Alive where
  zones : ZoneSet
  outbound : OutboundSummary
  controlToYou : Bool
  inbound : InboundSummary
  viewer : ViewerControl
  deriving DecidableEq, Repr

/-- The fields of an OFFER, which an inbound session keeps (R130). -/
structure Offer where
  head : Head
  mode : Mode
  pointerMode : PointerMode
  zone : Zone
  deriving DecidableEq, Repr

/-- The reason a DECLINE carries (R198). -/
inductive DeclineReason
  | user | busy | zone | timeout
  deriving DecidableEq, Repr

/-- The side of the session that the sender of an END is ending (R130). -/
inductive EndSide
  | owner | viewer
  deriving DecidableEq, Repr

/-- The reason an END carries (R198). -/
inductive EndReason
  | user | timeout | reset | peerEnded
  deriving DecidableEq, Repr

/-- The kind of a claim (R154). -/
inductive ClaimKind
  | direct | queued
  deriving DecidableEq, Repr

/-- The reason a DENY carries (R198). -/
inductive DenyReason
  | noSession | viewOnly | zone | busy | refused
  deriving DecidableEq, Repr

/-- The fields of a POINTER frame, in its absolute or its relative form (R199). -/
inductive PointerFrame
  | absolute (buttons : Buttons) (hx hy : Nat) (wheel : Int)
  | relative (buttons : Buttons) (dx dy wheel : Int)
  deriving DecidableEq, Repr

/-- The commands the KD84 takes: the rows of spec/opcode_table.json, in its order. -/
inductive Instr
  /-- DEVICE_RESET (R195). -/
  | deviceReset (cause : DeviceResetCause)
  /-- WARM_RESET (R194). -/
  | warmReset
  /-- SUPERVISOR_FRAME_RECEIVED (R187, R188): the bytes that arrive, the last of which completes a frame. -/
  | supervisorFrameReceived (bytes : List Byte)
  /-- GAP_TIMEOUT (R187). -/
  | gapTimeout
  /-- BYTE_ERROR (R187). -/
  | byteError
  /-- TRANSMIT_DONE (R190). -/
  | transmitDone
  /-- UNKNOWN_KIND (R189): the frame's kind, tag and body. -/
  | unknownKind (kind tag : Byte) (body : List Byte)
  /-- GET_STATUS, an empty body. -/
  | getStatus (tag : Byte) (body : List Byte)
  /-- RESET, an empty body. -/
  | reset (tag : Byte) (body : List Byte)
  /-- SUBSCRIBE: class set. -/
  | subscribe (tag : Byte) (body : List Byte)
  /-- UNSUBSCRIBE: class set. -/
  | unsubscribe (tag : Byte) (body : List Byte)
  /-- SET_LOCK: level. -/
  | setLock (tag : Byte) (body : List Byte)
  /-- SET_COMPUTER: computer, zone, pointer mode, share policy, quiet time (2), auto-wake, wake method,
  wake timeout (2), pulse width (2), VW (2), VH (2). -/
  | setComputer (tag : Byte) (body : List Byte)
  /-- GET_COMPUTER: computer. -/
  | getComputer (tag : Byte) (body : List Byte)
  /-- SET_HEAD: computer, letter, enabled, ox (2), oy (2), W (2), H (2). -/
  | setHead (tag : Byte) (body : List Byte)
  /-- SET_LAYOUT: count, then for each tile monitor, x0 (2), y0 (2), w (2), h (2). -/
  | setLayout (tag : Byte) (body : List Byte)
  /-- GET_LAYOUT, an empty body. -/
  | getLayout (tag : Byte) (body : List Byte)
  /-- SET_DESK: zone set, crossing policy. -/
  | setDesk (tag : Byte) (body : List Byte)
  /-- SET_POINTER: gain, threshold (2), dwell window (2). -/
  | setPointer (tag : Byte) (body : List Byte)
  /-- PLACE_POINTER: monitor, x (2), y (2). -/
  | placePointer (tag : Byte) (body : List Byte)
  /-- GET_POINTER, an empty body. -/
  | getPointer (tag : Byte) (body : List Byte)
  /-- SET_FOCUS: focus target. -/
  | setFocus (tag : Byte) (body : List Byte)
  /-- GET_FOCUS, an empty body. -/
  | getFocus (tag : Byte) (body : List Byte)
  /-- SET_BROADCAST: on or off, member set. -/
  | setBroadcast (tag : Byte) (body : List Byte)
  /-- GET_PORT: port. -/
  | getPort (tag : Byte) (body : List Byte)
  /-- CLEAR_COUNTERS: port 0..8. -/
  | clearCounters (tag : Byte) (body : List Byte)
  /-- SET_PORT: port, flow threshold. -/
  | setPort (tag : Byte) (body : List Byte)
  /-- SET_HOTKEY: index, hotkey entry (6). -/
  | setHotkey (tag : Byte) (body : List Byte)
  /-- GET_HOTKEY: index. -/
  | getHotkey (tag : Byte) (body : List Byte)
  /-- CLEAR_HOTKEY: index. -/
  | clearHotkey (tag : Byte) (body : List Byte)
  /-- TRIGGER: action, two argument bytes. -/
  | trigger (tag : Byte) (body : List Byte)
  /-- SET_HOTKEY_TIMING: tap window (2), command window (2). -/
  | setHotkeyTiming (tag : Byte) (body : List Byte)
  /-- SWITCH: output, target. -/
  | switch (tag : Byte) (body : List Byte)
  /-- GET_OUTPUT: output. -/
  | getOutput (tag : Byte) (body : List Byte)
  /-- SET_OUTPUT: output, rest time (2), blank lead (2), lock timeout (2). -/
  | setOutput (tag : Byte) (body : List Byte)
  /-- STORE_SCENE: slot, focus computer, count, then for each entry monitor and target. -/
  | storeScene (tag : Byte) (body : List Byte)
  /-- RECALL_SCENE: slot. -/
  | recallScene (tag : Byte) (body : List Byte)
  /-- GET_HEAD: input 1..18. -/
  | getHead (tag : Byte) (body : List Byte)
  /-- BLANK, an empty body. -/
  | blank (tag : Byte) (body : List Byte)
  /-- RESUME, an empty body. -/
  | resume (tag : Byte) (body : List Byte)
  /-- SET_BLANK: auto-recover, hold time (2), hotkey resume allowed. -/
  | setBlank (tag : Byte) (body : List Byte)
  /-- SET_LINK: link, enable flag. -/
  | setLink (tag : Byte) (body : List Byte)
  /-- GET_LINK: link. -/
  | getLink (tag : Byte) (body : List Byte)
  /-- OFFER_SHARE: link, computer, letter, allow-control flag. -/
  | offerShare (tag : Byte) (body : List Byte)
  /-- ACCEPT_SHARE: link. -/
  | acceptShare (tag : Byte) (body : List Byte)
  /-- DECLINE_SHARE: link. -/
  | declineShare (tag : Byte) (body : List Byte)
  /-- END_SHARE: link, side. -/
  | endShare (tag : Byte) (body : List Byte)
  /-- GRANT_CONTROL: computer, link 0..2. -/
  | grantControl (tag : Byte) (body : List Byte)
  /-- REFUSE_CLAIM: computer, link 0..2. -/
  | refuseClaim (tag : Byte) (body : List Byte)
  /-- TAKE_BACK: computer. -/
  | takeBack (tag : Byte) (body : List Byte)
  /-- CLAIM_CONTROL: link, kind. -/
  | claimControl (tag : Byte) (body : List Byte)
  /-- RELEASE_CONTROL: link. -/
  | releaseControl (tag : Byte) (body : List Byte)
  /-- GET_CONTROL: computer. -/
  | getControl (tag : Byte) (body : List Byte)
  /-- WAKE: computer. -/
  | wake (tag : Byte) (body : List Byte)
  /-- GET_POWER: computer. -/
  | getPower (tag : Byte) (body : List Byte)
  /-- SET_LINE: line, role, computer, drive, polarity, pull-up, filter (2), edge select. -/
  | setLine (tag : Byte) (body : List Byte)
  /-- GET_LINES, an empty body. -/
  | getLines (tag : Byte) (body : List Byte)
  /-- DRIVE_LINE: line, level. -/
  | driveLine (tag : Byte) (body : List Byte)
  /-- DESK_KEYBOARD_REPORT (R46): the modifiers down and the codes in the report's key positions. -/
  | deskKeyboardReport (mods : Mods) (keys : List Byte)
  /-- DESK_KEYBOARD_ATTACH (R48). -/
  | deskKeyboardAttach
  /-- DESK_KEYBOARD_DETACH (R48). -/
  | deskKeyboardDetach
  /-- DESK_POINTER_REPORT (R19): the raw movement, the wheel and the buttons held. -/
  | deskPointerReport (dx dy wheel : Int) (buttons : Buttons)
  /-- DESK_POINTER_ATTACH (R19). -/
  | deskPointerAttach
  /-- DESK_POINTER_DETACH (R19). -/
  | deskPointerDetach
  /-- TAP_WINDOW_EXPIRY (R91). -/
  | tapWindowExpiry
  /-- COMMAND_WINDOW_EXPIRY (R92). -/
  | commandWindowExpiry
  /-- LINE_WINDOW_EXPIRY (R94). -/
  | lineWindowExpiry (l : LineId)
  /-- PORT_ATTACH (R60). -/
  | portAttach (n : Comp)
  /-- PORT_CONFIGURE (R59). -/
  | portConfigure (n : Comp)
  /-- PORT_SUSPEND (R59). -/
  | portSuspend (n : Comp)
  /-- PORT_RESUME (R62). -/
  | portResume (n : Comp)
  /-- BUS_RESET (R63). -/
  | busReset (n : Comp)
  /-- PORT_DETACH (R61). -/
  | portDetach (n : Comp)
  /-- FORMAT_SELECT (R64). -/
  | formatSelect (n : Comp) (i : Interface) (f : Format)
  /-- REMOTE_WAKE_SET (R65). -/
  | remoteWakeSet (n : Comp) (on : Bool)
  /-- LIGHT_REPORT (R65). -/
  | lightReport (n : Comp) (lights : Lights)
  /-- KEYBOARD_POLL (R67). -/
  | keyboardPoll (n : Comp)
  /-- POINTER_POLL (R71). -/
  | pointerPoll (n : Comp)
  /-- SIGNAL_FOUND (R101). -/
  | signalFound (h : Head)
  /-- MODE_MEASURED (R101). -/
  | modeMeasured (h : Head) (m : Mode)
  /-- SIGNAL_LOST (R101). -/
  | signalLost (h : Head)
  /-- SWITCH_START (R108). -/
  | switchStart
  /-- BLANK_END (R109). -/
  | blankEnd (o : OutputId)
  /-- LOCK_STABLE (R110). -/
  | lockStable (o : OutputId)
  /-- LOCK_TIMEOUT (R110). -/
  | lockTimeout (o : OutputId)
  /-- HOLD_EXPIRY (R124). -/
  | holdExpiry
  /-- LINE_PIN_CHANGE (R180): what the wiring outside gives the pin. `level` is high or low, and `strong` says
  whether the wiring drives that level against the pull-up. -/
  | linePinChange (l : LineId) (level strong : Bool)
  /-- LINE_FILTER_EXPIRY (R180). -/
  | lineFilterExpiry (l : LineId)
  /-- WAKE_SIGNAL_END (R168). -/
  | wakeSignalEnd (n : Comp)
  /-- WAKE_BUS_STAGE_END (R170). -/
  | wakeBusStageEnd (n : Comp)
  /-- WAKE_PULSE_END (R169). -/
  | wakePulseEnd (n : Comp)
  /-- WAKE_DEADLINE (R172). -/
  | wakeDeadline (n : Comp)
  /-- QUIET_TIME_REACHED (R155). -/
  | quietTimeReached (n : Comp)
  /-- ALIVE_TIMER (R140). -/
  | aliveTimer (k : LinkId)
  /-- LINK_SILENCE (R137). -/
  | linkSilence (k : LinkId)
  /-- OUTBOUND_OFFER_TIMEOUT (R129). -/
  | outboundOfferTimeout (k : LinkId)
  /-- INBOUND_OFFER_TIMEOUT (R130). -/
  | inboundOfferTimeout (k : LinkId)
  /-- LINK_FRAME_DAMAGED (R136): the bytes that arrive on the link. -/
  | linkFrameDamaged (k : LinkId) (bytes : List Byte)
  /-- ALIVE (R140, R141). -/
  | alive (k : LinkId) (a : Alive)
  /-- OFFER (R130). -/
  | offer (k : LinkId) (o : Offer)
  /-- ACCEPT (R131). -/
  | accept (k : LinkId)
  /-- DECLINE (R132). -/
  | decline (k : LinkId) (reason : DeclineReason)
  /-- END (R130, R134). -/
  | endSession (k : LinkId) (side : EndSide) (reason : EndReason)
  /-- MODE (R146). -/
  | mode (k : LinkId) (m : Mode) (p : PointerMode)
  /-- CLAIM (R154). -/
  | claim (k : LinkId) (kind : ClaimKind)
  /-- GRANT (R161). -/
  | grant (k : LinkId)
  /-- DENY (R161). -/
  | deny (k : LinkId) (reason : DenyReason)
  /-- RELEASE (R158). -/
  | release (k : LinkId)
  /-- REVOKE (R161). -/
  | revoke (k : LinkId)
  /-- KEYS (R162). -/
  | keys (k : LinkId) (ks : KeyState)
  /-- POINTER (R163). -/
  | pointer (k : LinkId) (f : PointerFrame)
  /-- LINK_SEND_DONE (R135). -/
  | linkSendDone (k : LinkId)
  /-- LENGTH_ERROR (R187): the second byte of a supervisor frame. -/
  | lengthError (len : Byte)
  deriving DecidableEq, Repr

end Sys2Proof
end

