-- ==== Sys2Proof/Decode.lean ====
section
/-!
DEFINITION. Reading a command from the bits of the command table, and the command that a request of the host is. The
table gives no row any bits, so no word spells a command (notes/assumptions/2.md).
-/

namespace Sys2Proof

/-- The command that a word spells by the bits of spec/opcode_table.json: none, as no row of the table has bits. -/
def decodeTableWord (_nbits _w : Nat) : Option Instr := none

/-- The command that a request of the host is, by its kind (R196). A kind that names no request is UNKNOWN_KIND. -/
def requestCommand (kind tag : Byte) (body : List Byte) : Instr :=
  match kind.toNat with
  | 0x01 => .getStatus tag body
  | 0x02 => .reset tag body
  | 0x03 => .subscribe tag body
  | 0x04 => .unsubscribe tag body
  | 0x05 => .setLock tag body
  | 0x10 => .setComputer tag body
  | 0x11 => .getComputer tag body
  | 0x12 => .setHead tag body
  | 0x13 => .setLayout tag body
  | 0x14 => .getLayout tag body
  | 0x15 => .setDesk tag body
  | 0x20 => .setPointer tag body
  | 0x21 => .placePointer tag body
  | 0x22 => .getPointer tag body
  | 0x28 => .setFocus tag body
  | 0x29 => .getFocus tag body
  | 0x2A => .setBroadcast tag body
  | 0x30 => .getPort tag body
  | 0x31 => .clearCounters tag body
  | 0x32 => .setPort tag body
  | 0x38 => .setHotkey tag body
  | 0x39 => .getHotkey tag body
  | 0x3A => .clearHotkey tag body
  | 0x3B => .trigger tag body
  | 0x3C => .setHotkeyTiming tag body
  | 0x40 => .switch tag body
  | 0x41 => .getOutput tag body
  | 0x42 => .setOutput tag body
  | 0x43 => .storeScene tag body
  | 0x44 => .recallScene tag body
  | 0x45 => .getHead tag body
  | 0x48 => .blank tag body
  | 0x49 => .resume tag body
  | 0x4A => .setBlank tag body
  | 0x50 => .setLink tag body
  | 0x51 => .getLink tag body
  | 0x52 => .offerShare tag body
  | 0x53 => .acceptShare tag body
  | 0x54 => .declineShare tag body
  | 0x55 => .endShare tag body
  | 0x58 => .grantControl tag body
  | 0x59 => .refuseClaim tag body
  | 0x5A => .takeBack tag body
  | 0x5B => .claimControl tag body
  | 0x5C => .releaseControl tag body
  | 0x5D => .getControl tag body
  | 0x60 => .wake tag body
  | 0x61 => .getPower tag body
  | 0x68 => .setLine tag body
  | 0x69 => .getLines tag body
  | 0x6A => .driveLine tag body
  | _ => .unknownKind kind tag body

end Sys2Proof
end

