-- ==== Sys2Proof/Machine/State.lean ====
section
/-!
DEFINITION. The whole state of the KD84 as plain data, chapter by chapter, and its value after a device reset.
Each field's docstring names the rule that gives it. Times are milliseconds of the timebase.
-/

namespace Sys2Proof.Machine

/-- Why the machine stops with a fault. The KD84 never stops: every command the manual lists has an effect on
every state, so no meaning of this model answers a fault. -/
inductive Fault
  /-- Raised by nothing: it stands here so that the type is not empty. Safe. -/
  | stopped
  deriving DecidableEq, Repr

/-- Why the model gives a command no meaning. -/
inductive Refusal
  /-- Raised by an arm of `exec` whose command has no meaning yet. Safe. No arm answers with it. -/
  | notModelled (mnemonic : String)
  deriving DecidableEq, Repr

/-! ### Chapter 1: the desk model tables -/

/-- Who may share a computer (R1). -/
inductive SharePolicy
  | noShare | viewOnly | ask | auto
  deriving DecidableEq, Repr

/-- The wake method of a computer (R1). -/
inductive WakeMethod
  | bus | line | both
  deriving DecidableEq, Repr

/-- One computer record (R1). -/
structure CompRecord where
  zone : Zone
  pointerMode : PointerMode
  member : Bool
  policy : SharePolicy
  quietTime : Nat
  autoWake : Bool
  method : WakeMethod
  wakeTimeout : Nat
  pulseWidth : Nat
  vw : Nat
  vh : Nat
  deriving DecidableEq, Repr

/-- One head map entry (R6). -/
structure HeadMap where
  enabled : Bool
  ox : Nat
  oy : Nat
  w : Nat
  h : Nat
  deriving DecidableEq, Repr

/-- One tile of the layout (R8). -/
structure Tile where
  monitor : Monitor
  x0 : Nat
  y0 : Nat
  w : Nat
  h : Nat
  deriving DecidableEq, Repr

/-- The crossing policy (R12). -/
inductive Crossing
  | free | block
  deriving DecidableEq, Repr

/-- The desk settings (R12). -/
structure DeskSettings where
  zones : ZoneSet
  crossing : Crossing
  deriving DecidableEq, Repr

/-- The configuration lock (R13). -/
structure LockState where
  level : Nat
  used : Bool
  deriving DecidableEq, Repr

/-! ### Chapters 2 and 3: the desk pointer, the focus record and the desk input ports -/

/-- The target of the focus (R38). -/
inductive FocusTarget
  | none
  | loc (n : Comp)
  | rem (k : LinkId)
  deriving DecidableEq, Repr

/-- The origin of the focus (R38). -/
inductive Origin
  | glide | hotkey | request | scene | sessionEnd | blank
  deriving DecidableEq, Repr

/-- The focus record (R38). -/
structure FocusRecord where
  target : FocusTarget
  origin : Origin
  tile : Option Monitor
  deriving DecidableEq, Repr

/-- A side of a tile (R18). -/
inductive Side
  | left | right | top | bottom
  deriving DecidableEq, Repr

/-- The edge pressure (R18). -/
structure Pressure where
  edge : Option (Monitor × Side)
  amount : Nat
  lastPush : Option Nat
  deriving DecidableEq, Repr

/-- The desk pointer (R18). -/
structure DeskPointer where
  px : Nat
  py : Nat
  rx : Int
  ry : Int
  pressure : Pressure
  capture : Bool
  glideZone : Zone
  glideFrom : FocusTarget
  gain : Nat
  threshold : Nat
  dwell : Nat
  deriving DecidableEq, Repr

/-- The desk pointer port (R19). -/
structure MousePort where
  attached : Bool
  buttons : Buttons
  deriving DecidableEq, Repr

/-- The desk keyboard port (R45). The held set is the held modifiers and the held list. -/
structure KeyboardPort where
  attached : Bool
  held : KeyState
  lightsSent : Option Lights
  ignoredPresses : Nat
  rollovers : Nat
  deriving DecidableEq, Repr

/-- The shape of a key-state record (R51). -/
inductive KeyShape
  | full | boot | rollover
  deriving DecidableEq, Repr

/-- A shaped key-state record (R51). A rollover record holds six positions of code 1. -/
structure KeyRecord where
  shape : KeyShape
  mods : Mods
  keys : List Nat
  deriving DecidableEq, Repr

/-- A pointer record (R58). -/
inductive PointerRecord
  | absolute (buttons : Buttons) (x y : Nat) (wheel : Int)
  | relative (buttons : Buttons) (dx dy wheel : Int)
  deriving DecidableEq, Repr

/-- The input router's own state: the carry-over mask (R49), broadcast (R54), the last records queued to each
computer (R52) and the last frames sent on each link (R56). -/
structure Router where
  mask : KeyState
  broadcast : Bool
  lastKey : Vector (Option KeyRecord) 8
  lastPointer : Vector (Option PointerRecord) 8
  linkKeys : Vector KeyState 2
  linkPointer : Vector (Option PointerFrame) 2
  deriving DecidableEq, Repr

/-! ### Chapter 4: the computer ports -/

/-- The bus state of a port (R58). -/
inductive BusState
  | detached | attached | active | suspended
  deriving DecidableEq, Repr

/-- What a port answered to the last poll of its keyboard (R67). -/
inductive KeyAnswer
  | noChange
  | report (mods : Mods) (keys : List Nat)
  deriving DecidableEq, Repr

/-- What a port answered to the last poll of its pointer (R71). -/
inductive PointerAnswer
  | noChange
  | report (r : PointerRecord)
  deriving DecidableEq, Repr

/-- The counters of a port (R74). -/
structure PortCounters where
  keyQueued : Nat
  keyTaken : Nat
  keyReplaced : Nat
  keyFlushed : Nat
  keyTrimmed : Nat
  rollovers : Nat
  pointerQueued : Nat
  pointerMerged : Nat
  pointerTaken : Nat
  pointerReplaced : Nat
  pointerFlushed : Nat
  pointerTrimmed : Nat
  carryRecords : Nat
  desktopClamps : Nat
  viewOnlyDrops : Nat
  deriving DecidableEq, Repr

/-- One computer port (R58). The two answers are the model's own fields: what the port put on the bus at the last
poll of each interface, none before the first. -/
structure Port where
  bus : BusState
  keyFormat : Format
  pointerFormat : Format
  remoteWake : Bool
  lights : Lights
  flow : Nat
  keyQueue : List KeyRecord
  pointerQueue : List PointerRecord
  cx : Int
  cy : Int
  buttons : Buttons
  noticed : Bool
  counters : PortCounters
  keyAnswer : Option KeyAnswer
  pointerAnswer : Option PointerAnswer
  deriving DecidableEq, Repr

/-! ### Chapter 6: the crosspoint -/

/-- A video input: one of the heads, or an inbound lane. -/
inductive Input
  | head (h : Head)
  | lane (k : LinkId)
  deriving DecidableEq, Repr

/-- What a switch names and what an output is assigned: an input, or DARK when it is none. -/
abbrev Target := Option Input

/-- The input state of an input (R100): no signal, signal with an unknown mode, or signal with a detected mode. -/
inductive InputState
  | absent
  | unmeasured
  | measured (m : Mode)
  deriving DecidableEq, Repr

/-- The state of an output with the fields it holds in that state only (R103). -/
inductive OutputState
  | dark
  | blanking (target : Target) (blankEnd : Nat)
  | locking (deadline : Nat) (stableSince : Option Nat)
  | showing
  | noSignal
  deriving DecidableEq, Repr

/-- One output (R103). The pending slot is none when it is empty. -/
structure Output where
  assignment : Target
  state : OutputState
  pendingSlot : Option Target
  lastStart : Option Nat
  restTime : Nat
  blankLead : Nat
  lockTimeout : Nat
  deriving DecidableEq, Repr

/-- One stored scene (R117). -/
structure Scene where
  entries : List (Monitor × Target)
  focus : Option Comp
  deriving DecidableEq, Repr

/-! ### Chapter 5: hotkeys -/

/-- The trigger of a hotkey table entry (R79). -/
inductive Trigger
  | tap (key count : Nat)
  | chord (mods : Mods) (key : Nat)
  | command (key : Nat)
  | line (l : LineId) (count : Nat)
  deriving DecidableEq, Repr

/-- An action with its argument (R80). A WAKE of none names the focus computer. -/
inductive Action
  | lead
  | focus (n : Comp)
  | focusNext
  | focusPrev
  | switch (o : OutputId) (t : Target)
  | recallSlot (slot : Fin 16)
  | broadcastToggle
  | blank
  | resumeBlank
  | wake (n : Option Comp)
  | takeBack
  | grant
  | claim
  | release
  | notify
  deriving DecidableEq, Repr

/-- One held entry of the hotkey table (R79). -/
structure HotkeyEntry where
  trigger : Trigger
  action : Action
  deriving DecidableEq, Repr

/-- The state of the key matcher (R88). The window deadline of TAPPING is none while a press is pending. -/
inductive MatcherState
  | idle
  | tapping (key taps : Nat) (pressPending : Bool) (deadline : Option Nat)
  | command (deadline : Nat)
  deriving DecidableEq, Repr

/-- The hotkey matcher's settings, state and counts (R86, R88, R96). -/
structure Matcher where
  tapWindow : Nat
  commandWindow : Nat
  state : MatcherState
  fired : Nat
  suppressed : Nat
  refused : Nat
  deriving DecidableEq, Repr

/-- The trigger counter of a line and its window (R94). -/
structure LineTrigger where
  count : Nat
  deadline : Option Nat
  deriving DecidableEq, Repr

/-! ### Chapter 7: privacy blank -/

/-- The source set of the privacy blank unit (R119). -/
structure Sources where
  line : Bool
  hotkey : Bool
  request : Bool
  deriving DecidableEq, Repr

/-- The state of the privacy blank unit (R119): the source set stands in ENGAGED, the hold deadline in RECOVERING. -/
inductive BlankState
  | clear
  | engaged (sources : Sources)
  | recovering (deadline : Nat)
  deriving DecidableEq, Repr

/-- The privacy blank unit (R119). -/
structure BlankUnit where
  state : BlankState
  asserted : List LineId
  autoRecover : Bool
  holdTime : Nat
  hotkeyResume : Bool
  deriving DecidableEq, Repr

/-! ### Chapters 8 and 9: the desk links and the control lock table -/

/-- The outbound session of a link (R129). -/
inductive Outbound
  | none
  | offered (h : Head) (viewOnly : Bool) (offerTime : Nat)
  | active (h : Head) (viewOnly : Bool)
  deriving DecidableEq, Repr

/-- The inbound session of a link (R130). -/
inductive Inbound
  | none
  | offeredIn (o : Offer) (offerTime : Nat)
  | active (o : Offer)
  deriving DecidableEq, Repr

/-- A desk link frame by its kind and fields (R198). -/
inductive LinkMsg
  | alive (a : Alive)
  | offer (o : Offer)
  | accept
  | decline (reason : DeclineReason)
  | endSession (side : EndSide) (reason : EndReason)
  | mode (m : Mode) (p : PointerMode)
  | claim (kind : ClaimKind)
  | grant
  | deny (reason : DenyReason)
  | release
  | revoke
  | keys (ks : KeyState)
  | pointer (f : PointerFrame)
  deriving DecidableEq, Repr

/-- The six counts of a link (R136). -/
structure LinkCounters where
  sent : Nat
  received : Nat
  crcErrors : Nat
  malformed : Nat
  discarded : Nat
  sendOverflow : Nat
  deriving DecidableEq, Repr

/-- One desk link (R135), with the viewer control state of its inbound lane (R161), the frame it is sending, its
send queue and the time its next ALIVE is due. The receiver holds the bytes of a frame in progress and is hunting
when it holds none. -/
structure Link where
  enabled : Bool
  up : Bool
  receiver : List Byte
  lastValid : Option Nat
  peerZones : ZoneSet
  peerOutbound : Option OutboundSummary
  peerControlToYou : Option Bool
  peerInbound : Option InboundSummary
  peerViewer : Option ViewerControl
  outbound : Outbound
  inbound : Inbound
  viewer : ViewerControl
  sending : Option LinkMsg
  sendQueue : List LinkMsg
  nextAlive : Nat
  counters : LinkCounters
  deriving DecidableEq, Repr

/-- Who may drive a local computer (R150). -/
inductive Holder
  | desk
  | link (k : LinkId)
  deriving DecidableEq, Repr

/-- One claim (R150). -/
structure Claim where
  link : LinkId
  arrival : Nat
  approved : Bool
  deriving DecidableEq, Repr

/-- One record of the control lock table (R150). -/
structure Control where
  holder : Holder
  claims : List Claim
  lastDesk : Option Nat
  remoteKeys : KeyState
  remoteButtons : Buttons
  deriving DecidableEq, Repr

/-! ### Chapter 10: wake -/

/-- The fields of an attempt in flight that are fixed at its start (R165). -/
structure Flight where
  method : WakeMethod
  start : Nat
  deadline : Nat
  pulseWidth : Nat
  deriving DecidableEq, Repr

/-- The kind of a WAIT (R165). -/
inductive WaitKind
  | busStage | final
  deriving DecidableEq, Repr

/-- Why an attempt failed (R165). -/
inductive WakeFailure
  | notPermitted | noLine | timeout
  deriving DecidableEq, Repr

/-- The attempt state with the fields it holds (R165). -/
inductive Attempt
  | none
  | busSignal (f : Flight) (stageEnd : Nat)
  | pulse (f : Flight) (l : LineId) (stageEnd : Nat)
  | wait (f : Flight) (kind : WaitKind) (stageEnd : Nat)
  | failed (reason : WakeFailure)
  deriving DecidableEq, Repr

/-- The powered flag (R165). -/
inductive Powered
  | powered | unpowered | unknown
  deriving DecidableEq, Repr

/-- One wake record (R165). -/
structure WakeRecord where
  attempt : Attempt
  powered : Powered
  deriving DecidableEq, Repr

/-! ### Chapter 11: lines -/

/-- The role of a line (R178). -/
inductive Role
  | none
  | powerSense (n : Comp)
  | blankInput
  | trigger
  | output
  | tally (n : Comp)
  | wakePulse (n : Comp)
  deriving DecidableEq, Repr

/-- The drive of a line (R179). -/
inductive Drive
  | pushPull | openDrain
  deriving DecidableEq, Repr

/-- The polarity of a line (R179). -/
inductive Polarity
  | normal | inverted
  deriving DecidableEq, Repr

/-- The edge select of a line (R179). -/
inductive EdgeSelect
  | rising | falling | both
  deriving DecidableEq, Repr

/-- What a pin carries (R178). -/
inductive Pin
  | high | low | float
  deriving DecidableEq, Repr

/-- The configuration of a line, which SET_LINE writes whole (R179). -/
structure LineConfig where
  role : Role
  drive : Drive
  polarity : Polarity
  pullUp : Bool
  filter : Nat
  edge : EdgeSelect
  deriving DecidableEq, Repr

/-- One line (R179). Levels are `true` for active. The wiring outside the part is the model's own field: the level
it gives the pin, and whether it drives that level against the pull-up. -/
structure Line where
  config : LineConfig
  filtered : Option Bool
  candidate : Option (Bool × Nat)
  level : Bool
  hold : Option Pin
  wireLevel : Bool
  wireStrong : Bool
  deriving DecidableEq, Repr

/-! ### Chapter 12: the supervisor link -/

/-- A request as it stands in the request queue (R188). -/
structure Request where
  kind : Byte
  tag : Byte
  body : List Byte
  deriving DecidableEq, Repr

/-- A reply or a notice (R189, R190): kind, tag and body, the result code being the first body byte of a reply. -/
structure SupFrame where
  kind : Byte
  tag : Byte
  body : List Byte
  deriving DecidableEq, Repr

/-- The cause of the last reset (R193). -/
inductive ResetCause
  | powerOn | resetPin | request
  deriving DecidableEq, Repr

/-- The supervisor link. The receiver holds each byte of the frame in progress with its arrival time, and is
HUNTING when it holds none (R187). `waiting` is the reply of a request that has run and found the reply queue full
(R189). `resetDue` says that the last byte of a RESET reply has been sent and the warm reset has not run (R194). -/
structure Supervisor where
  receiver : List (Byte × Nat)
  requests : List Request
  replies : List SupFrame
  waiting : Option SupFrame
  notices : List SupFrame
  sending : Option SupFrame
  resetDue : Bool
  classes : BitVec 8
  lost : Nat
  lengthErrors : Nat
  crcErrors : Nat
  gapErrors : Nat
  byteErrors : Nat
  overruns : Nat
  cause : ResetCause
  deriving DecidableEq, Repr

/-! ### The whole state -/

/-- The state of the KD84 and the queue of the commands that are waiting, first in, first out. -/
structure State where
  now : Nat
  comps : Vector CompRecord 8
  heads : Vector HeadMap 16
  layout : List Tile
  desk : DeskSettings
  lock : LockState
  pointer : DeskPointer
  focus : FocusRecord
  mouse : MousePort
  keyboard : KeyboardPort
  router : Router
  ports : Vector Port 8
  hotkeys : Vector (Option HotkeyEntry) 32
  matcher : Matcher
  lineTriggers : Vector LineTrigger 16
  inputs : Vector InputState 18
  outputs : Vector Output 6
  crosspointStart : Option Nat
  scenes : Vector (Option Scene) 16
  blank : BlankUnit
  links : Vector Link 2
  controls : Vector Control 8
  wake : Vector WakeRecord 8
  lines : Vector Line 16
  sup : Supervisor
  pending : List Instr
  deriving DecidableEq, Repr

/-! ### The values after a device reset -/

/-- The defaults of a computer record (R1). -/
def CompRecord.default : CompRecord where
  zone := 0
  pointerMode := .absolute
  member := false
  policy := .ask
  quietTime := 3000
  autoWake := true
  method := .bus
  wakeTimeout := 8000
  pulseWidth := 300
  vw := 1920
  vh := 1080

/-- The defaults of a head map entry (R6): the A heads are enabled and the B heads are not. -/
def HeadMap.default (enabled : Bool) : HeadMap where
  enabled := enabled
  ox := 0
  oy := 0
  w := 1920
  h := 1080

/-- The default head maps of C1A, C1B, up to C8A, C8B (R6). -/
def defaultHeads : Vector HeadMap 16 :=
  let a := HeadMap.default true
  let b := HeadMap.default false
  #v[a, b, a, b, a, b, a, b, a, b, a, b, a, b, a, b]

/-- The default layout (R8). -/
def defaultLayout : List Tile :=
  [⟨0, 0, 0, 1920, 1080⟩, ⟨1, 1920, 0, 1920, 1080⟩, ⟨2, 3840, 0, 1920, 1080⟩, ⟨3, 5760, 0, 1920, 1080⟩]

/-- No edge pressure (R18). -/
def Pressure.none : Pressure := ⟨Option.none, 0, Option.none⟩

/-- The reset value of the desk pointer (R18). -/
def DeskPointer.reset : DeskPointer where
  px := 960
  py := 540
  rx := 0
  ry := 0
  pressure := Pressure.none
  capture := false
  glideZone := 0
  glideFrom := .loc 0
  gain := 16
  threshold := 0
  dwell := 250

/-- No key held. -/
def KeyState.empty : KeyState := ⟨0, []⟩

/-- All lights off. -/
def Lights.off : Lights := ⟨false, false, false⟩

/-- The reset value of the input router (R49, R52, R54, R56). -/
def Router.reset : Router where
  mask := KeyState.empty
  broadcast := false
  lastKey := Vector.replicate 8 none
  lastPointer := Vector.replicate 8 none
  linkKeys := Vector.replicate 2 KeyState.empty
  linkPointer := Vector.replicate 2 none

/-- Every port counter at 0 (R74). -/
def PortCounters.zero : PortCounters := ⟨0, 0, 0, 0, 0, 0, 0, 0, 0, 0, 0, 0, 0, 0, 0⟩

/-- The device reset value of a port (R58). -/
def Port.reset : Port where
  bus := .detached
  keyFormat := .full
  pointerFormat := .full
  remoteWake := false
  lights := Lights.off
  flow := 4
  keyQueue := []
  pointerQueue := []
  cx := 0
  cy := 0
  buttons := 0
  noticed := false
  counters := PortCounters.zero
  keyAnswer := none
  pointerAnswer := none

/-- The default hotkey table (R87). -/
def defaultHotkeys : Vector (Option HotkeyEntry) 32 :=
  #v[some ⟨.tap 71 2, .lead⟩,
     some ⟨.command 30, .focus 0⟩, some ⟨.command 31, .focus 1⟩, some ⟨.command 32, .focus 2⟩,
     some ⟨.command 33, .focus 3⟩, some ⟨.command 34, .focus 4⟩, some ⟨.command 35, .focus 5⟩,
     some ⟨.command 36, .focus 6⟩, some ⟨.command 37, .focus 7⟩,
     some ⟨.command 5, .blank⟩, some ⟨.command 26, .wake none⟩, some ⟨.command 23, .takeBack⟩,
     none, none, none, none, none, none, none, none, none, none,
     none, none, none, none, none, none, none, none, none, none]

/-- The matcher after a reset (R86, R87). -/
def Matcher.reset : Matcher where
  tapWindow := 400
  commandWindow := 2000
  state := .idle
  fired := 0
  suppressed := 0
  refused := 0

/-- An output after a device reset, with the target its pending slot holds (R113). -/
def Output.reset (pendingSlot : Option Target) : Output where
  assignment := none
  state := .dark
  pendingSlot := pendingSlot
  lastStart := none
  restTime := 200
  blankLead := 20
  lockTimeout := 1500

/-- The default target of an output (R113, R114): C1A to C4A for M1 to M4, DARK for O1 and O2. -/
def defaultTarget (o : OutputId) : Target :=
  if h : o.val < 4 then some (.head ⟨⟨o.val, by omega⟩, .a⟩) else none

/-- The privacy blank unit after a reset (R119). -/
def BlankUnit.reset : BlankUnit where
  state := .clear
  asserted := []
  autoRecover := false
  holdTime := 1000
  hotkeyResume := false

/-- A record of the control lock table after a reset (R150). -/
def Control.reset : Control where
  holder := .desk
  claims := []
  lastDesk := none
  remoteKeys := KeyState.empty
  remoteButtons := 0

/-- A wake record after a reset (R165). -/
def WakeRecord.reset : WakeRecord := ⟨.none, .unknown⟩

/-- Every link count at 0 (R136). -/
def LinkCounters.zero : LinkCounters := ⟨0, 0, 0, 0, 0, 0⟩

/-- The first ALIVE of a link after a device reset: the default zone set and every session NONE (R17, R147). -/
def Alive.first : Alive where
  zones := 1
  outbound := .none
  controlToYou := false
  inbound := .none
  viewer := .none

/-- A link after a device reset at time `t` (R135): enabled and DOWN, its first ALIVE on the pair (R147). -/
def Link.reset (t : Nat) : Link where
  enabled := true
  up := false
  receiver := []
  lastValid := none
  peerZones := 0
  peerOutbound := none
  peerControlToYou := none
  peerInbound := none
  peerViewer := none
  outbound := .none
  inbound := .none
  viewer := .none
  sending := some (.alive Alive.first)
  sendQueue := []
  nextAlive := t + 100
  counters := LinkCounters.zero

/-- The device reset configuration of a line (R179). -/
def LineConfig.reset : LineConfig := ⟨.none, .pushPull, .normal, false, 10, .rising⟩

/-- A line after a device reset at time `t`, with the wiring outside as it stands: its filter starts at once on the
pin, read under NORMAL polarity with the pull-up off (R179, R180; notes/assumptions/13.md). -/
def Line.reset (t : Nat) (wireLevel wireStrong : Bool) : Line where
  config := LineConfig.reset
  filtered := none
  candidate := some (wireLevel, t)
  level := false
  hold := none
  wireLevel := wireLevel
  wireStrong := wireStrong

/-- The READY notice, which carries the reset cause (R195). -/
def readyFrame (cause : ResetCause) : SupFrame :=
  ⟨0xF0, 0, [match cause with | .powerOn => 0 | .resetPin => 1 | .request => 2]⟩

/-- The supervisor link after a device reset (R195). READY is the first frame the part sends, and the free
transmitter has taken it (R190). -/
def Supervisor.reset (cause : ResetCause) : Supervisor where
  receiver := []
  requests := []
  replies := []
  waiting := none
  notices := []
  sending := some (readyFrame cause)
  resetDue := false
  classes := 0xFF
  lost := 0
  lengthErrors := 0
  crcErrors := 0
  gapErrors := 0
  byteErrors := 0
  overruns := 0
  cause := cause

/-- The machine right after power-on: every block at its device reset values, and no command waiting. -/
def State.reset : State where
  now := 0
  comps := Vector.replicate 8 CompRecord.default
  heads := defaultHeads
  layout := defaultLayout
  desk := ⟨1, .free⟩
  lock := ⟨0, false⟩
  pointer := DeskPointer.reset
  focus := ⟨.loc 0, .glide, some 0⟩
  mouse := ⟨false, 0⟩
  keyboard := ⟨false, KeyState.empty, none, 0, 0⟩
  router := Router.reset
  ports := Vector.replicate 8 Port.reset
  hotkeys := defaultHotkeys
  matcher := Matcher.reset
  lineTriggers := Vector.replicate 16 ⟨0, none⟩
  inputs := Vector.replicate 18 .absent
  outputs := #v[.reset (some (defaultTarget 0)), .reset (some (defaultTarget 1)), .reset (some (defaultTarget 2)),
    .reset (some (defaultTarget 3)), .reset none, .reset none]
  crosspointStart := none
  scenes := Vector.replicate 16 none
  blank := BlankUnit.reset
  links := Vector.replicate 2 (Link.reset 0)
  controls := Vector.replicate 8 Control.reset
  wake := Vector.replicate 8 WakeRecord.reset
  lines := Vector.replicate 16 (Line.reset 0 false false)
  sup := Supervisor.reset .powerOn
  pending := []

end Sys2Proof.Machine
end

