-- ==== Sys2Proof/Machine/Operands.lean ====
section
/-!
DEFINITION. How the bytes of a request body and of a desk link frame name the values of their fields (R197 to
R199). Each reader answers none for a byte that names no value of its field.
-/

namespace Sys2Proof.Machine

open Sys2Proof

/-! ### Numbers -/

/-- An unsigned number of two bytes, high byte first. -/
def num2 (hi lo : Byte) : Nat := hi.toNat * 256 + lo.toNat

/-- A signed number of one byte in two's complement. -/
def sint1 (b : Byte) : Int := b.toInt

/-- A signed number of two bytes in two's complement, high byte first. -/
def sint2 (hi lo : Byte) : Int := (hi ++ lo).toInt

/-- `x` held within `lo..hi`. -/
def clampTo (lo hi x : Nat) : Nat := max lo (min hi x)

/-! ### Identities -/

def compOf (b : Byte) : Option Comp :=
  if h : 1 ≤ b.toNat ∧ b.toNat ≤ 8 then some ⟨b.toNat - 1, by omega⟩ else none

def linkOf (b : Byte) : Option LinkId :=
  if h : 1 ≤ b.toNat ∧ b.toNat ≤ 2 then some ⟨b.toNat - 1, by omega⟩ else none

def monitorOf (b : Byte) : Option Monitor :=
  if h : 1 ≤ b.toNat ∧ b.toNat ≤ 4 then some ⟨b.toNat - 1, by omega⟩ else none

def outputOf (b : Byte) : Option OutputId :=
  if h : 1 ≤ b.toNat ∧ b.toNat ≤ 6 then some ⟨b.toNat - 1, by omega⟩ else none

def lineOf (b : Byte) : Option LineId := if h : b.toNat < 16 then some ⟨b.toNat, h⟩ else none

def zoneOf (b : Byte) : Option Zone := if h : b.toNat < 4 then some ⟨b.toNat, h⟩ else none

def hotkeyIndexOf (b : Byte) : Option (Fin 32) := if h : b.toNat < 32 then some ⟨b.toNat, h⟩ else none

def sceneSlotOf (b : Byte) : Option (Fin 16) := if h : b.toNat < 16 then some ⟨b.toNat, h⟩ else none

def letterOf (b : Byte) : Option Letter :=
  match b.toNat with
  | 0 => some .a
  | 1 => some .b
  | _ => none

/-- The head that an input number 1..16 names: 2n − 1 is CnA and 2n is CnB. -/
def headOfNumber (b : Byte) : Option Head :=
  if h : 1 ≤ b.toNat ∧ b.toNat ≤ 16 then
    some ⟨⟨(b.toNat - 1) / 2, by omega⟩, if b.toNat % 2 = 1 then .a else .b⟩
  else none

/-- An input 1..18: a head, then N1 and N2. -/
def inputOf (b : Byte) : Option Input :=
  match b.toNat with
  | 17 => some (.lane 0)
  | 18 => some (.lane 1)
  | _ => (headOfNumber b).map .head

/-- A target: 0 for DARK, otherwise an input. -/
def targetOf (b : Byte) : Option Target := if b = 0 then some none else (inputOf b).map some

/-- A focus target: 0 for NONE, n for LOCAL n, 8 + k for REMOTE k. -/
def focusTargetOf (b : Byte) : Option FocusTarget :=
  match b.toNat with
  | 0 => some .none
  | 9 => some (.rem 0)
  | 10 => some (.rem 1)
  | _ => (compOf b).map .loc

/-! ### Flags and named values -/

def flagOf (b : Byte) : Option Bool :=
  match b.toNat with
  | 0 => some false
  | 1 => some true
  | _ => none

def pointerModeOf (b : Byte) : Option PointerMode :=
  match b.toNat with
  | 0 => some .absolute
  | 1 => some .relative
  | _ => none

def sharePolicyOf (b : Byte) : Option SharePolicy :=
  match b.toNat with
  | 0 => some .noShare
  | 1 => some .viewOnly
  | 2 => some .ask
  | 3 => some .auto
  | _ => none

def wakeMethodOf (b : Byte) : Option WakeMethod :=
  match b.toNat with
  | 0 => some .bus
  | 1 => some .line
  | 2 => some .both
  | _ => none

def crossingOf (b : Byte) : Option Crossing :=
  match b.toNat with
  | 0 => some .free
  | 1 => some .block
  | _ => none

def claimKindOf (b : Byte) : Option ClaimKind :=
  match b.toNat with
  | 0 => some .direct
  | 1 => some .queued
  | _ => none

def driveOf (b : Byte) : Option Drive :=
  match b.toNat with
  | 0 => some .pushPull
  | 1 => some .openDrain
  | _ => none

def polarityOf (b : Byte) : Option Polarity :=
  match b.toNat with
  | 0 => some .normal
  | 1 => some .inverted
  | _ => none

def edgeSelectOf (b : Byte) : Option EdgeSelect :=
  match b.toNat with
  | 0 => some .rising
  | 1 => some .falling
  | 2 => some .both
  | _ => none

/-- A role and its computer. The computer byte of a role without one is disregarded (R182). -/
def roleOf (role computer : Byte) : Option Role :=
  match role.toNat with
  | 0 => some .none
  | 1 => (compOf computer).map .powerSense
  | 2 => some .blankInput
  | 3 => some .trigger
  | 4 => some .output
  | 5 => (compOf computer).map .tally
  | 6 => (compOf computer).map .wakePulse
  | _ => none

/-- A non-empty zone set without reserved bits (R12, R198). -/
def zoneSetOf (b : Byte) : Option ZoneSet :=
  if b.toNat < 16 ∧ b ≠ 0 then some (b.setWidth 4) else none

/-- A button set without reserved bits (R199). -/
def buttonsOf (b : Byte) : Option Buttons := if b.toNat < 32 then some (b.setWidth 5) else none

/-! ### Hotkey entries -/

/-- A trigger by its kind and its two field bytes, each field in its range of R79. -/
def triggerOf (kind f1 f2 : Byte) : Option Trigger :=
  let k := f1.toNat
  let c := f2.toNat
  match kind.toNat with
  | 1 => if 4 ≤ k ∧ k ≤ 231 ∧ 2 ≤ c ∧ c ≤ 4 then some (.tap k c) else none
  | 2 => if f1 ≠ 0 ∧ 4 ≤ c ∧ c ≤ 223 then some (.chord f1 c) else none
  | 3 => if 4 ≤ k ∧ k ≤ 223 then some (.command k) else none
  | 4 =>
    match lineOf f1 with
    | some l => if c = 1 ∨ c = 2 ∨ c = 4 ∨ c = 8 then some (.line l c) else none
    | none => none
  | _ => none

/-- An action by its number and its two argument bytes, the argument in its range of R80. The argument of an action
that takes none is disregarded. -/
def actionOf (a x y : Byte) : Option Action :=
  match a.toNat with
  | 0 => some .lead
  | 1 => (compOf x).map .focus
  | 2 => some .focusNext
  | 3 => some .focusPrev
  | 4 =>
    match outputOf x, targetOf y with
    | some o, some t => some (.switch o t)
    | _, _ => none
  | 5 => (sceneSlotOf x).map .recallSlot
  | 6 => some .broadcastToggle
  | 7 => some .blank
  | 8 => some .resumeBlank
  | 9 => if x = 0 then some (.wake none) else (compOf x).map fun n => .wake (some n)
  | 10 => some .takeBack
  | 11 => some .grant
  | 12 => some .claim
  | 13 => some .release
  | 14 => some .notify
  | _ => none

/-- A hotkey entry of six bytes. -/
def hotkeyEntryOf (kind f1 f2 a x y : Byte) : Option HotkeyEntry :=
  match triggerOf kind f1 f2, actionOf a x y with
  | some t, some act => some ⟨t, act⟩
  | _, _ => none

/-! ### Lists -/

/-- The tiles of a SET_LAYOUT, nine bytes each. A monitor out of range answers none. -/
def tilesOf : List Byte → Option (List Tile)
  | [] => some []
  | m :: x1 :: x0 :: y1 :: y0 :: w1 :: w0 :: h1 :: h0 :: rest =>
    match monitorOf m, tilesOf rest with
    | some m, some ts => some (⟨m, num2 x1 x0, num2 y1 y0, num2 w1 w0, num2 h1 h0⟩ :: ts)
    | _, _ => none
  | _ => none

/-- The entries of a STORE_SCENE, two bytes each. -/
def sceneEntriesOf : List Byte → Option (List (Monitor × Target))
  | [] => some []
  | m :: t :: rest =>
    match monitorOf m, targetOf t, sceneEntriesOf rest with
    | some m, some t, some es => some ((m, t) :: es)
    | _, _, _ => none
  | _ => none

/-! ### Desk link frames -/

/-- Whether a mode is one an OFFER or a MODE may carry: both dimensions 0 or both nonzero, each field in 16 bits
(R198). -/
def Mode.sendable (m : Mode) : Bool :=
  decide (m.width ≤ 65535 ∧ m.height ≤ 65535 ∧ m.refresh ≤ 65535) && decide (m.width = 0 ↔ m.height = 0)

/-- Whether a key state is one a KEYS frame may carry (R199). -/
def KeyState.sendable (k : KeyState) : Bool :=
  decide (k.keys.length ≤ 32) && k.keys.all (fun c => decide (4 ≤ c ∧ c ≤ 223)) && decide k.keys.Nodup

/-- Whether the fields of a POINTER frame lie in their ranges (R199). -/
def PointerFrame.sendable : PointerFrame → Bool
  | .absolute _ hx hy w => decide (hx ≤ 8191 ∧ hy ≤ 8191 ∧ -127 ≤ w ∧ w ≤ 127)
  | .relative _ dx dy w =>
    decide (-2047 ≤ dx ∧ dx ≤ 2047 ∧ -2047 ≤ dy ∧ dy ≤ 2047 ∧ -127 ≤ w ∧ w ≤ 127)

/-- Whether each field of a desk link frame lies in the range R198 gives it. -/
def LinkMsg.sendable : LinkMsg → Bool
  | .alive a => a.zones != 0
  | .offer o => Mode.sendable o.mode
  | .mode m _ => Mode.sendable m
  | .keys ks => KeyState.sendable ks
  | .pointer f => PointerFrame.sendable f
  | _ => true

def outboundSummaryOf (b : Byte) : Option OutboundSummary :=
  match b.toNat with
  | 0 => some .none
  | 1 => some .offered
  | 2 => some .active
  | _ => none

def inboundSummaryOf (b : Byte) : Option InboundSummary :=
  match b.toNat with
  | 0 => some .none
  | 1 => some .offeredIn
  | 2 => some .active
  | _ => none

def viewerControlOf (b : Byte) : Option ViewerControl :=
  match b.toNat with
  | 0 => some .none
  | 1 => some .requested
  | 2 => some .held
  | _ => none

def declineReasonOf (b : Byte) : Option DeclineReason :=
  match b.toNat with
  | 0 => some .user
  | 1 => some .busy
  | 2 => some .zone
  | 3 => some .timeout
  | _ => none

def endSideOf (b : Byte) : Option EndSide :=
  match b.toNat with
  | 0 => some .owner
  | 1 => some .viewer
  | _ => none

def endReasonOf (b : Byte) : Option EndReason :=
  match b.toNat with
  | 0 => some .user
  | 1 => some .timeout
  | 2 => some .reset
  | 3 => some .peerEnded
  | _ => none

def denyReasonOf (b : Byte) : Option DenyReason :=
  match b.toNat with
  | 0 => some .noSession
  | 1 => some .viewOnly
  | 2 => some .zone
  | 3 => some .busy
  | 4 => some .refused
  | _ => none

def modeOf (w1 w0 h1 h0 r1 r0 : Byte) : Mode := ⟨num2 w1 w0, num2 h1 h0, num2 r1 r0⟩

/-- The fields of a POINTER body (R199), before the ranges are checked. -/
def pointerFrameOf (form buttons a1 a0 b1 b0 wheel : Byte) : Option PointerFrame :=
  match form.toNat, buttonsOf buttons with
  | 0, some bs => some (.absolute bs (num2 a1 a0) (num2 b1 b0) (sint1 wheel))
  | 1, some bs => some (.relative bs (sint2 a1 a0) (sint2 b1 b0) (sint1 wheel))
  | _, _ => none

/-- The fields of a desk link frame by its kind and body, before the ranges are checked (R198, R199). -/
def linkFields (kind : Byte) (body : List Byte) : Option LinkMsg :=
  match kind.toNat, body with
  | 0x01, [z, o, c, i, v] =>
    match zoneSetOf z, outboundSummaryOf o, flagOf c, inboundSummaryOf i, viewerControlOf v with
    | some z, some o, some c, some i, some v => some (.alive ⟨z, o, c, i, v⟩)
    | _, _, _, _, _ => none
  | 0x02, [n, l, w1, w0, h1, h0, r1, r0, p, z] =>
    match compOf n, letterOf l, pointerModeOf p, zoneOf z with
    | some n, some l, some p, some z => some (.offer ⟨⟨n, l⟩, modeOf w1 w0 h1 h0 r1 r0, p, z⟩)
    | _, _, _, _ => none
  | 0x03, [] => some .accept
  | 0x04, [r] => (declineReasonOf r).map .decline
  | 0x05, [d, r] =>
    match endSideOf d, endReasonOf r with
    | some d, some r => some (.endSession d r)
    | _, _ => none
  | 0x06, [w1, w0, h1, h0, r1, r0, p] => (pointerModeOf p).map fun p => .mode (modeOf w1 w0 h1 h0 r1 r0) p
  | 0x07, [k] => (claimKindOf k).map .claim
  | 0x08, [] => some .grant
  | 0x09, [r] => (denyReasonOf r).map .deny
  | 0x0A, [] => some .release
  | 0x0B, [] => some .revoke
  | 0x10, m :: c :: codes =>
    if c.toNat = codes.length then some (.keys ⟨m, codes.map BitVec.toNat⟩) else none
  | 0x11, [f, b, x1, x0, y1, y0, w] => (pointerFrameOf f b x1 x0 y1 y0 w).map .pointer
  | _, _ => none

/-- A desk link frame by its kind and body: none when its kind is unknown, its body has the wrong length, or a field
is out of range (R136, R198). -/
def LinkMsg.parse (kind : Byte) (body : List Byte) : Option LinkMsg :=
  match linkFields kind body with
  | some m => if LinkMsg.sendable m then some m else none
  | none => none

end Sys2Proof.Machine
end

