-- ==== Sys2Proof/Config.lean ====
section
/-!
DEFINITION. The sizes and times that the manual fixes for every KD84, and the two values that it leaves open.
-/

namespace Sys2Proof.Config

/-- Requests the request queue holds, the one running included (R188). -/
def requestQueue : Nat := 4
/-- Replies the reply queue holds (R188). -/
def replyQueue : Nat := 8
/-- Notices the notice queue holds (R191). -/
def noticeQueue : Nat := 16
/-- Frames a desk link's send queue holds (R135). -/
def linkQueue : Nat := 32
/-- Key-state records a keyboard queue holds (R58). -/
def keyQueue : Nat := 32
/-- Pointer records a pointer queue holds (R58). -/
def pointerQueue : Nat := 16
/-- Non-modifier keys the held list holds (R45). -/
def heldKeys : Nat := 32
/-- Where a 32-bit count saturates (R74, R96, R136, R187). -/
def countMax : Nat := 4294967295
/-- Where the lost notice count saturates (R191). -/
def lostMax : Nat := 255
/-- The longest gap between two bytes of a supervisor frame, in ms (R187). -/
def byteGap : Nat := 5
/-- The least time between two switch starts on the crosspoint, in ms (R108). -/
def startSpacing : Nat := 2
/-- How long an input must be stable before its output is SHOWING, in ms (R110). -/
def lockStable : Nat := 50
/-- The interval between two ALIVE frames of a link, in ms (R140). -/
def alivePeriod : Nat := 100
/-- The silence after which a link goes DOWN, in ms (R137). -/
def linkSilence : Nat := 500
/-- How long an offer stands on either side, in ms (R129, R130). -/
def offerTimeout : Nat := 15000
/-- How long resume signalling is driven, in ms (R168). -/
def busSignal : Nat := 10
/-- The bus stage of a BOTH attempt, counted from its start, in ms (R170). -/
def busStage : Nat := 2000
/-- The largest edge pressure (R18). -/
def pressureMax : Nat := 1023
/-- The largest usable detected width or height, and the largest nominal one (R6). -/
def headSizeMax : Nat := 8192
/-- The part code and the revision that GET_STATUS reports (R193). -/
def partCode : Byte := 0x84
def revision : Byte := 1

/-- OPEN VALUE, marked DESIGN CHOICE (notes/assumptions/6.md). A time in a reply has four bytes (R197), and the
manual does not say what those bytes hold for a time of 2^32 ms or more. Nothing constrains this value. -/
opaque timeBeyond : Nat → BitVec 32

/-- OPEN VALUE, marked DESIGN CHOICE (notes/assumptions/7.md). A CLAIM notice names a computer (R164), and a
CLAIM denied with NO_SESSION on a link without any outbound session concerns none. The byte of the notice for the
link's number is constrained by nothing. -/
opaque noSessionComputer : Nat → Byte

end Sys2Proof.Config
end

