-- ==== Sys2Proof/Machine/Ops.lean ====
section
/-!
DEFINITION. The named operations over the state: one read and one update for each group of fields, the saturating
counts, the notice queue (R191), and the request and reply queues with the transmitter (R188 to R190).
-/

namespace Sys2Proof.Machine

open Sys2Proof

/-! ### Tables -/

/-- Entry `i` of a table. -/
def pick {α : Type} {n : Nat} (v : Vector α n) (i : Fin n) : α := v[i.val]

/-- A table with `f` applied to entry `i`. -/
def upd {α : Type} {n : Nat} (v : Vector α n) (i : Fin n) (f : α → α) : Vector α n := v.set i.val (f (pick v i))

/-- The computers in order. -/
def allComps : List Comp := [0, 1, 2, 3, 4, 5, 6, 7]
/-- The desk links in order. -/
def allLinks : List LinkId := [0, 1]
/-- The monitors in order. -/
def allMonitors : List Monitor := [0, 1, 2, 3]
/-- The outputs in the order M1, M2, M3, M4, O1, O2. -/
def allOutputs : List OutputId := [0, 1, 2, 3, 4, 5]
/-- The lines in order. -/
def allLines : List LineId := [0, 1, 2, 3, 4, 5, 6, 7, 8, 9, 10, 11, 12, 13, 14, 15]
/-- The indexes of the hotkey table in order. -/
def allHotkeys : List (Fin 32) :=
  [0, 1, 2, 3, 4, 5, 6, 7, 8, 9, 10, 11, 12, 13, 14, 15, 16, 17, 18, 19, 20, 21, 22, 23, 24, 25, 26, 27, 28, 29, 30, 31]

/-- The place of a head in the tables of heads: C1A, C1B, up to C8A, C8B. -/
def Head.idx (h : Head) : Fin 16 :=
  ⟨2 * h.comp.val + (match h.letter with | .a => 0 | .b => 1), by have := h.comp.isLt; split <;> omega⟩

/-- The place of an input in the table of inputs: the sixteen heads, then N1 and N2. -/
def Input.idx : Input → Fin 18
  | .head h => ⟨(Head.idx h).val, by have := (Head.idx h).isLt; omega⟩
  | .lane k => ⟨16 + k.val, by have := k.isLt; omega⟩

/-- The output that is a monitor. -/
def monitorOut (m : Monitor) : OutputId := ⟨m.val, by have := m.isLt; omega⟩

/-- The outbound lane of a link as an output. -/
def laneOut (k : LinkId) : OutputId := ⟨4 + k.val, by have := k.isLt; omega⟩

/-- The monitor that an output is, if it is one. -/
def outMonitor (o : OutputId) : Option Monitor := if h : o.val < 4 then some ⟨o.val, h⟩ else none

/-- The link whose outbound lane an output is, if it is one. -/
def outLane (o : OutputId) : Option LinkId :=
  if h : 4 ≤ o.val then some ⟨o.val - 4, by have := o.isLt; omega⟩ else none

/-! ### Reads -/

/-- The record of a computer (R1). -/
def State.comp (s : State) (n : Comp) : CompRecord := pick s.comps n
/-- The head map entry of a head (R6). -/
def State.headMap (s : State) (h : Head) : HeadMap := pick s.heads (Head.idx h)
/-- The port of a computer (R58). -/
def State.port (s : State) (n : Comp) : Port := pick s.ports n
/-- The hotkey table entry at an index (R79). -/
def State.hotkey (s : State) (i : Fin 32) : Option HotkeyEntry := pick s.hotkeys i
/-- The trigger counter of a line (R94). -/
def State.lineTrigger (s : State) (l : LineId) : LineTrigger := pick s.lineTriggers l
/-- The input state of an input (R100). -/
def State.input (s : State) (i : Input) : InputState := pick s.inputs (Input.idx i)
/-- The record of an output (R103). -/
def State.out (s : State) (o : OutputId) : Output := pick s.outputs o
/-- A scene slot (R117). -/
def State.scene (s : State) (i : Fin 16) : Option Scene := pick s.scenes i
/-- A desk link (R135). -/
def State.link (s : State) (k : LinkId) : Link := pick s.links k
/-- The control record of a computer (R150). -/
def State.control (s : State) (n : Comp) : Control := pick s.controls n
/-- The wake record of a computer (R165). -/
def State.wakeOf (s : State) (n : Comp) : WakeRecord := pick s.wake n
/-- A line (R179). -/
def State.line (s : State) (l : LineId) : Line := pick s.lines l

/-! ### Updates -/

def State.setNow (s : State) (t : Nat) : State := { s with now := t }
def State.modComp (s : State) (n : Comp) (f : CompRecord → CompRecord) : State := { s with comps := upd s.comps n f }
def State.setHeadMap (s : State) (h : Head) (m : HeadMap) : State :=
  { s with heads := upd s.heads (Head.idx h) fun _ => m }
def State.setLayout (s : State) (l : List Tile) : State := { s with layout := l }
def State.setDesk (s : State) (d : DeskSettings) : State := { s with desk := d }
def State.setLock (s : State) (l : LockState) : State := { s with lock := l }
def State.modPointer (s : State) (f : DeskPointer → DeskPointer) : State := { s with pointer := f s.pointer }
def State.setFocus (s : State) (r : FocusRecord) : State := { s with focus := r }
def State.setMouse (s : State) (m : MousePort) : State := { s with mouse := m }
def State.modKeyboard (s : State) (f : KeyboardPort → KeyboardPort) : State := { s with keyboard := f s.keyboard }
def State.modRouter (s : State) (f : Router → Router) : State := { s with router := f s.router }
def State.modPort (s : State) (n : Comp) (f : Port → Port) : State := { s with ports := upd s.ports n f }
def State.setHotkey (s : State) (i : Fin 32) (e : Option HotkeyEntry) : State :=
  { s with hotkeys := upd s.hotkeys i fun _ => e }
def State.modMatcher (s : State) (f : Matcher → Matcher) : State := { s with matcher := f s.matcher }
def State.setLineTrigger (s : State) (l : LineId) (t : LineTrigger) : State :=
  { s with lineTriggers := upd s.lineTriggers l fun _ => t }
def State.setInput (s : State) (i : Input) (v : InputState) : State :=
  { s with inputs := upd s.inputs (Input.idx i) fun _ => v }
def State.modOut (s : State) (o : OutputId) (f : Output → Output) : State := { s with outputs := upd s.outputs o f }
def State.setCrosspointStart (s : State) (t : Option Nat) : State := { s with crosspointStart := t }
def State.setScene (s : State) (i : Fin 16) (v : Option Scene) : State :=
  { s with scenes := upd s.scenes i fun _ => v }
def State.modBlank (s : State) (f : BlankUnit → BlankUnit) : State := { s with blank := f s.blank }
def State.modLink (s : State) (k : LinkId) (f : Link → Link) : State := { s with links := upd s.links k f }
def State.modControl (s : State) (n : Comp) (f : Control → Control) : State :=
  { s with controls := upd s.controls n f }
def State.modWake (s : State) (n : Comp) (f : WakeRecord → WakeRecord) : State := { s with wake := upd s.wake n f }
def State.modLine (s : State) (l : LineId) (f : Line → Line) : State := { s with lines := upd s.lines l f }
def State.modSup (s : State) (f : Supervisor → Supervisor) : State := { s with sup := f s.sup }
def State.setPending (s : State) (q : List Instr) : State := { s with pending := q }

/-- The timebase has come to a deadline: the present time is the deadline, or later (notes/assumptions/4.md). -/
def reach (d : Nat) (s : State) : State := s.setNow (max s.now d)

/-! ### Counts -/

/-- A 32-bit count raised by `k`, saturating (R74, R96, R136, R187). -/
def countBy (k n : Nat) : Nat := min (n + k) Config.countMax

/-- A 32-bit count raised by one, saturating. -/
def count (n : Nat) : Nat := countBy 1 n

/-! ### Notices -/

/-- The eight notice classes (R192). -/
inductive NoticeClass
  | focus | video | hotkey | blank | share | power | line | link
  deriving DecidableEq, Repr

/-- The bit of a class in a class set (R197). -/
def NoticeClass.bit : NoticeClass → Nat
  | .focus => 0
  | .video => 1
  | .hotkey => 2
  | .blank => 3
  | .share => 4
  | .power => 5
  | .line => 6
  | .link => 7

/-- A notice is placed in the notice queue when its class is subscribed, and is lost when 16 are waiting
(R191, R192). -/
def queueNotice (c : NoticeClass) (f : SupFrame) (p : Supervisor) : Supervisor :=
  if p.classes.getLsbD c.bit then
    if p.notices.length < Config.noticeQueue then { p with notices := p.notices ++ [f] }
    else { p with lost := min (p.lost + 1) Config.lostMax }
  else p

/-- The part produces a notice. -/
def notify (c : NoticeClass) (f : SupFrame) (s : State) : State := s.modSup (queueNotice c f)

/-! ### The transmitter, the replies and the request queue -/

/-- The reply that a RESET accepted gives: kind 0x82 and result OK (R189, R196). -/
def SupFrame.isResetReply (f : SupFrame) : Bool := f.kind == 0x82 && f.body == [0]

/-- A reply that waits for room takes the place that has come free, and its request leaves the request queue
(R189). -/
def placeWaiting (p : Supervisor) : Supervisor :=
  match p.waiting with
  | some r =>
    if p.replies.length < Config.replyQueue then
      { p with replies := p.replies ++ [r], waiting := none, requests := p.requests.tail }
    else p
  | none => p

/-- A free transmitter takes the oldest reply, or else the oldest notice (R190). Between the end of a RESET reply
and the warm reset it takes no frame (R194). -/
def transmitNext (p : Supervisor) : Supervisor :=
  if p.sending.isSome || p.resetDue then p
  else
    match p.replies with
    | r :: rest => placeWaiting { p with sending := some r, replies := rest }
    | [] =>
      match p.notices with
      | f :: rest => { p with sending := some f, notices := rest }
      | [] => p

/-- What ends every command: the transmitter takes a frame if it is free. -/
def done (s : State) : Host.Outcome State Fault Refusal := .next (s.modSup transmitNext)

/-- The result codes of replies (R189). -/
inductive ResultCode
  | ok | accepted | busy | unknownKind | badLength | badArg | locked | wrongState | zone | blanked | linkDown | noEntry
  deriving DecidableEq, Repr

/-- The byte of a result code (R189). -/
def ResultCode.code : ResultCode → Byte
  | .ok => 0
  | .accepted => 1
  | .busy => 2
  | .unknownKind => 3
  | .badLength => 4
  | .badArg => 5
  | .locked => 6
  | .wrongState => 7
  | .zone => 8
  | .blanked => 9
  | .linkDown => 10
  | .noEntry => 11

/-- Whether a kind names a request (R196). -/
def kindNamed (k : Byte) : Bool :=
  let n := k.toNat
  (0x01 ≤ n && n ≤ 0x05) || (0x10 ≤ n && n ≤ 0x15) || (0x20 ≤ n && n ≤ 0x22) || (0x28 ≤ n && n ≤ 0x2A) ||
  (0x30 ≤ n && n ≤ 0x32) || (0x38 ≤ n && n ≤ 0x3C) || (0x40 ≤ n && n ≤ 0x45) || (0x48 ≤ n && n ≤ 0x4A) ||
  (0x50 ≤ n && n ≤ 0x55) || (0x58 ≤ n && n ≤ 0x5D) || (0x60 ≤ n && n ≤ 0x61) || (0x68 ≤ n && n ≤ 0x6A)

/-- The kind of the reply to a request kind: plus 0x80, or 0xFF when the kind names no request (R188, R189). -/
def replyKind (k : Byte) : Byte := if kindNamed k then k + 0x80 else 0xFF

/-- A valid frame is received as a request: queued, answered BUSY, or counted as an overrun (R188). -/
def receiveRequest (r : Request) (p : Supervisor) : Supervisor :=
  if p.requests.length < Config.requestQueue then { p with requests := p.requests ++ [r] }
  else if p.replies.length < Config.replyQueue then
    { p with replies := p.replies ++ [⟨replyKind r.kind, r.tag, [ResultCode.busy.code]⟩] }
  else { p with overruns := count p.overruns }

/-- What a request's own rule answers: the result code, the fields of the reply after it, and the state left. -/
structure Judged where
  code : ResultCode
  body : List Byte
  state : State

/-- A refusal: a code other than OK and ACCEPTED, no further body, and the state as it was. -/
def refuse (c : ResultCode) (s : State) : Judged := ⟨c, [], s⟩
/-- OK with no fields. -/
def okay (s : State) : Judged := ⟨.ok, [], s⟩
/-- OK with fields. -/
def okayWith (body : List Byte) (s : State) : Judged := ⟨.ok, body, s⟩
/-- ACCEPTED with no fields. -/
def accepted (s : State) : Judged := ⟨.accepted, [], s⟩

/-- The request at the head of the request queue has run: its reply is placed and it leaves the queue, or its reply
waits for room and it stays (R189). -/
def finishRequest (f : SupFrame) (p : Supervisor) : Supervisor :=
  if p.replies.length < Config.replyQueue then
    { p with replies := p.replies ++ [f], requests := p.requests.tail }
  else { p with waiting := some f }

/-- A request given to a part whose request queue is empty enters it at once (R188). -/
def enterQueue (r : Request) (p : Supervisor) : Supervisor :=
  if p.requests = [] then { p with requests := [r] } else p

/-- Whether it is the turn of `r`: it is at the head of the request queue and no reply of an earlier run waits for
room (R189). -/
def hasTurn (r : Request) (p : Supervisor) : Bool := p.waiting.isNone && p.requests.head? == some r

/-- A request command (R188, R189). The request runs whole when its turn has come; a request given on its own to an
empty queue has its turn at once; any other is received behind the requests that are waiting
(notes/assumptions/3.md). -/
def runRequest (r : Request) (judge : List Byte → State → Judged) (s : State) : State :=
  let s1 := s.modSup (enterQueue r)
  if hasTurn r s1.sup then
    let j := judge r.body s1
    j.state.modSup (finishRequest ⟨replyKind r.kind, r.tag, j.code.code :: j.body⟩)
  else s.modSup (receiveRequest r)

end Sys2Proof.Machine
end

