-- ==== Sys2Proof/Machine/Encode.lean ====
section
/-!
DEFINITION. How values become bytes (R197): the encodings of fields, the CRC-16 and the two frame layouts, the desk
link bodies (R198, R199), and the notices of R196 with the fields their rules list. A field that stands only in some
states or causes is laid out as a field that may be none (notes/assumptions/8.md).
-/

namespace Sys2Proof.Machine

open Sys2Proof

/-! ### Numbers, flags and fields that may be none -/

/-- A number in one byte. -/
def byte1 (n : Nat) : List Byte := [BitVec.ofNat 8 n]

/-- A number in two bytes, high byte first. -/
def byte2 (n : Nat) : List Byte := [BitVec.ofNat 8 (n / 256), BitVec.ofNat 8 n]

/-- A 32-bit count in four bytes, high byte first. -/
def byte4 (n : Nat) : List Byte :=
  [BitVec.ofNat 8 (n / 16777216), BitVec.ofNat 8 (n / 65536), BitVec.ofNat 8 (n / 256), BitVec.ofNat 8 n]

/-- A signed number in one byte. -/
def sbyte1 (i : Int) : List Byte := [BitVec.ofInt 8 i]

/-- A signed number in two bytes, high byte first. -/
def sbyte2 (i : Int) : List Byte :=
  let w := BitVec.ofInt 16 i
  [w.extractLsb' 8 8, w.extractLsb' 0 8]

/-- A time in four bytes of milliseconds. What they hold for 2^32 ms or more is open (notes/assumptions/6.md). -/
def timeBytes (t : Nat) : List Byte :=
  if t < 4294967296 then byte4 t else byte4 (Config.timeBeyond t).toNat

/-- A flag in one byte. -/
def flag (b : Bool) : List Byte := [if b then 1 else 0]

/-- A field of `width` bytes that may be none, unknown or empty: one byte 1 or 0, and then the value's bytes or zeros
(R197). Each field of a frame has such a byte of its own. -/
def optional {α : Type} (width : Nat) (f : α → List Byte) : Option α → List Byte
  | some x => 1 :: f x
  | none => 0 :: List.replicate width 0

/-- A list: a count byte and its entries. -/
def listBytes {α : Type} (f : α → List Byte) (xs : List α) : List Byte :=
  byte1 xs.length ++ xs.flatMap f

/-! ### Identities -/

def compByte (n : Comp) : List Byte := byte1 (n.val + 1)
def linkByte (k : LinkId) : List Byte := byte1 (k.val + 1)
def monitorByte (m : Monitor) : List Byte := byte1 (m.val + 1)
def outputByte (o : OutputId) : List Byte := byte1 (o.val + 1)
def inputByte (i : Input) : List Byte := byte1 ((Input.idx i).val + 1)

/-- A target, an assignment or an input: 0 for DARK. -/
def targetByte : Target → List Byte
  | none => [0]
  | some i => inputByte i

def focusByte : FocusTarget → List Byte
  | .none => [0]
  | .loc n => compByte n
  | .rem k => byte1 (9 + k.val)

def letterByte : Letter → List Byte
  | .a => [0]
  | .b => [1]

/-- A head by computer and letter: two bytes. -/
def headBytes (h : Head) : List Byte := compByte h.comp ++ letterByte h.letter

def modeBytes (m : Mode) : List Byte := byte2 m.width ++ byte2 m.height ++ byte2 m.refresh

/-- A key state: the modifier set, a count and the codes in order. -/
def keyBytes (k : KeyState) : List Byte := k.mods :: listBytes byte1 k.keys

def lightBytes (l : Lights) : List Byte := flag l.num ++ flag l.caps ++ flag l.scroll

def buttonByte (b : Buttons) : List Byte := [b.setWidth 8]

def zoneSetByte (z : ZoneSet) : List Byte := [z.setWidth 8]

/-! ### Named values, by their position in the list of the owning rule -/

def pointerModeByte : PointerMode → List Byte
  | .absolute => [0]
  | .relative => [1]

def formatByte : Format → List Byte
  | .full => [0]
  | .boot => [1]

def policyByte : SharePolicy → List Byte
  | .noShare => [0]
  | .viewOnly => [1]
  | .ask => [2]
  | .auto => [3]

def methodByte : WakeMethod → List Byte
  | .bus => [0]
  | .line => [1]
  | .both => [2]

def crossingByte : Crossing → List Byte
  | .free => [0]
  | .block => [1]

def originByte : Origin → List Byte
  | .glide => [0]
  | .hotkey => [1]
  | .request => [2]
  | .scene => [3]
  | .sessionEnd => [4]
  | .blank => [5]

def sideByte : Side → List Byte
  | .left => [0]
  | .right => [1]
  | .top => [2]
  | .bottom => [3]

def busByte : BusState → List Byte
  | .detached => [0]
  | .attached => [1]
  | .active => [2]
  | .suspended => [3]

def outputStateByte : OutputState → List Byte
  | .dark => [0]
  | .blanking _ _ => [1]
  | .locking _ _ => [2]
  | .showing => [3]
  | .noSignal => [4]

/-- A presented picture: the source picture or black (R112, R115). -/
def pictureByte (shown : Bool) : List Byte := [if shown then 0 else 1]

def blankStateByte : BlankState → List Byte
  | .clear => [0]
  | .engaged _ => [1]
  | .recovering _ => [2]

/-- The source set in one byte: bit 0 LINE, bit 1 HOTKEY, bit 2 REQUEST (DESIGN CHOICE, notes/assumptions/9.md). -/
def sourcesByte (x : Sources) : List Byte :=
  byte1 ((if x.line then 1 else 0) + (if x.hotkey then 2 else 0) + (if x.request then 4 else 0))

def outboundByte : Outbound → List Byte
  | .none => [0]
  | .offered _ _ _ => [1]
  | .active _ _ => [2]

def inboundByte : Inbound → List Byte
  | .none => [0]
  | .offeredIn _ _ => [1]
  | .active _ => [2]

def outboundSummaryByte : OutboundSummary → List Byte
  | .none => [0]
  | .offered => [1]
  | .active => [2]

def inboundSummaryByte : InboundSummary → List Byte
  | .none => [0]
  | .offeredIn => [1]
  | .active => [2]

def viewerByte : ViewerControl → List Byte
  | .none => [0]
  | .requested => [1]
  | .held => [2]

def declineReasonByte : DeclineReason → List Byte
  | .user => [0]
  | .busy => [1]
  | .zone => [2]
  | .timeout => [3]

def endSideByte : EndSide → List Byte
  | .owner => [0]
  | .viewer => [1]

def endReasonByte : EndReason → List Byte
  | .user => [0]
  | .timeout => [1]
  | .reset => [2]
  | .peerEnded => [3]

def claimKindByte : ClaimKind → List Byte
  | .direct => [0]
  | .queued => [1]

def denyReasonByte : DenyReason → List Byte
  | .noSession => [0]
  | .viewOnly => [1]
  | .zone => [2]
  | .busy => [3]
  | .refused => [4]

def holderByte : Holder → List Byte
  | .desk => [0]
  | .link k => linkByte k

def attemptByte : Attempt → List Byte
  | .none => [0]
  | .busSignal _ _ => [1]
  | .pulse _ _ _ => [2]
  | .wait _ _ _ => [3]
  | .failed _ => [4]

def waitKindByte : WaitKind → List Byte
  | .busStage => [0]
  | .final => [1]

def failureByte : WakeFailure → List Byte
  | .notPermitted => [0]
  | .noLine => [1]
  | .timeout => [2]

/-- The powered flag where it is known. -/
def Powered.known : Powered → Option Bool
  | .powered => some true
  | .unpowered => some false
  | .unknown => Option.none

/-- The powered flag, which may be unknown: a presence byte and then its position in R165, 0 POWERED and 1 UNPOWERED
(R197; that UNKNOWN is the absence of a value is DEDUCED, notes/assumptions/19.md). -/
def poweredBytes (p : Powered) : List Byte :=
  optional 1 (fun on : Bool => [if on then 0 else 1]) (Powered.known p)

/-- A role and its computer in two bytes, as in SET_LINE: the computer byte is 0 for a role without one. -/
def roleBytes : Role → List Byte
  | .none => [0, 0]
  | .powerSense n => 1 :: compByte n
  | .blankInput => [2, 0]
  | .trigger => [3, 0]
  | .output => [4, 0]
  | .tally n => 5 :: compByte n
  | .wakePulse n => 6 :: compByte n

def driveByte : Drive → List Byte
  | .pushPull => [0]
  | .openDrain => [1]

def polarityByte : Polarity → List Byte
  | .normal => [0]
  | .inverted => [1]

def edgeByte : EdgeSelect → List Byte
  | .rising => [0]
  | .falling => [1]
  | .both => [2]

/-- A level as DRIVE_LINE numbers it: 0 inactive, 1 active. -/
def levelByte (b : Bool) : List Byte := flag b

def pinByte : Pin → List Byte
  | .high => [0]
  | .low => [1]
  | .float => [2]

def resetCauseByte : ResetCause → List Byte
  | .powerOn => [0]
  | .resetPin => [1]
  | .request => [2]

/-! ### Hotkey entries -/

def triggerBytes : Trigger → List Byte
  | .tap k c => 1 :: byte1 k ++ byte1 c
  | .chord m k => 2 :: m :: byte1 k
  | .command k => 3 :: byte1 k ++ [0]
  | .line l c => 4 :: byte1 l.val ++ byte1 c

def actionBytes : Action → List Byte
  | .lead => [0, 0, 0]
  | .focus n => 1 :: compByte n ++ [0]
  | .focusNext => [2, 0, 0]
  | .focusPrev => [3, 0, 0]
  | .switch o t => 4 :: outputByte o ++ targetByte t
  | .recallSlot i => 5 :: byte1 i.val ++ [0]
  | .broadcastToggle => [6, 0, 0]
  | .blank => [7, 0, 0]
  | .resumeBlank => [8, 0, 0]
  | .wake none => [9, 0, 0]
  | .wake (some n) => 9 :: compByte n ++ [0]
  | .takeBack => [10, 0, 0]
  | .grant => [11, 0, 0]
  | .claim => [12, 0, 0]
  | .release => [13, 0, 0]
  | .notify => [14, 0, 0]

/-- A hotkey entry in six bytes, all 0 for an empty one. -/
def hotkeyBytes : Option HotkeyEntry → List Byte
  | some e => triggerBytes e.trigger ++ actionBytes e.action
  | none => [0, 0, 0, 0, 0, 0]

/-! ### CRC and frames -/

/-- One bit of the CRC-16, polynomial 0x1021, most significant bit first (R187). -/
def crcShift (c : BitVec 16) : BitVec 16 := if c.msb then (c <<< 1) ^^^ 0x1021 else c <<< 1

/-- One byte of the CRC-16. -/
def crcByte (c : BitVec 16) (b : Byte) : BitVec 16 :=
  let c := c ^^^ (b.setWidth 16 <<< 8)
  crcShift (crcShift (crcShift (crcShift (crcShift (crcShift (crcShift (crcShift c)))))))

/-- The CRC-16 of a run of bytes, initial value 0xFFFF (R187). -/
def crc16 (bs : List Byte) : BitVec 16 := bs.foldl crcByte 0xFFFF

/-- A CRC in two bytes, high byte first. -/
def crcBytes (c : BitVec 16) : List Byte := [c.extractLsb' 8 8, c.extractLsb' 0 8]

/-- The bytes of a supervisor frame on the line, from its start marker to its last CRC byte (R197). -/
def supWire (kind tag : Byte) (body : List Byte) : List Byte :=
  let inner := BitVec.ofNat 8 (body.length + 2) :: kind :: tag :: body
  0xC3 :: inner ++ crcBytes (crc16 inner)

/-- The bytes of a desk link frame on the pair (R197). -/
def linkWire (kind : Byte) (body : List Byte) : List Byte :=
  let inner := kind :: BitVec.ofNat 8 body.length :: body
  0x3C :: inner ++ crcBytes (crc16 inner)

/-- The kind of a desk link frame (R198). -/
def LinkMsg.kind : LinkMsg → Byte
  | .alive _ => 0x01
  | .offer _ => 0x02
  | .accept => 0x03
  | .decline _ => 0x04
  | .endSession _ _ => 0x05
  | .mode _ _ => 0x06
  | .claim _ => 0x07
  | .grant => 0x08
  | .deny _ => 0x09
  | .release => 0x0A
  | .revoke => 0x0B
  | .keys _ => 0x10
  | .pointer _ => 0x11

/-- The body of a desk link frame (R198, R199). -/
def LinkMsg.body : LinkMsg → List Byte
  | .alive a =>
    zoneSetByte a.zones ++ outboundSummaryByte a.outbound ++ flag a.controlToYou ++ inboundSummaryByte a.inbound ++
      viewerByte a.viewer
  | .offer o => headBytes o.head ++ modeBytes o.mode ++ pointerModeByte o.pointerMode ++ byte1 o.zone.val
  | .accept => []
  | .decline r => declineReasonByte r
  | .endSession d r => endSideByte d ++ endReasonByte r
  | .mode m p => modeBytes m ++ pointerModeByte p
  | .claim k => claimKindByte k
  | .grant => []
  | .deny r => denyReasonByte r
  | .release => []
  | .revoke => []
  | .keys ks => keyBytes ks
  | .pointer (.absolute b hx hy w) => 0 :: buttonByte b ++ byte2 hx ++ byte2 hy ++ sbyte1 w
  | .pointer (.relative b dx dy w) => 1 :: buttonByte b ++ sbyte2 dx ++ sbyte2 dy ++ sbyte1 w

/-! ### Notices (R196) -/

/-- A notice has tag 0 (R190). -/
def noticeFrame (kind : Byte) (body : List Byte) : SupFrame := ⟨kind, 0, body⟩

/-- FOCUS (R38): target, origin, tile. -/
def focusNotice (r : FocusRecord) : SupFrame :=
  noticeFrame 0xF1 (focusByte r.target ++ originByte r.origin ++ optional 1 monitorByte r.tile)

/-- OUTPUT (R115): output, state entered, assignment, the switch target of BLANKING, presented picture. -/
def outputNotice (o : OutputId) (r : Output) (shown : Bool) : SupFrame :=
  let target := match r.state with
    | .blanking t _ => some t
    | _ => none
  noticeFrame 0xF2 (outputByte o ++ outputStateByte r.state ++ targetByte r.assignment ++ optional 1 targetByte target ++
    pictureByte shown)

/-- A detected mode or unknown. -/
def detectedBytes : InputState → List Byte
  | .measured m => optional 6 modeBytes (some m)
  | _ => optional 6 modeBytes none

/-- HEAD_MODE (R115): input, signal present, detected mode or unknown, and the effective size of a head. -/
def headModeNotice (i : Input) (st : InputState) (size : Option (Nat × Nat)) : SupFrame :=
  noticeFrame 0xF3 (inputByte i ++ flag (st != .absent) ++ detectedBytes st ++
    optional 4 (fun p : Nat × Nat => byte2 p.1 ++ byte2 p.2) size)

/-- Where a NOTIFY came from (R99). -/
inductive FireSource
  | keys (index : Fin 32)
  | line (index : Fin 32)
  | request
  deriving DecidableEq, Repr

/-- HOTKEY (R99): source, and the index of the entry that fired. -/
def hotkeyNotice : FireSource → SupFrame
  | .keys i => noticeFrame 0xF4 (0 :: optional 1 (fun j : Fin 32 => byte1 j.val) (some i))
  | .line i => noticeFrame 0xF4 (1 :: optional 1 (fun j : Fin 32 => byte1 j.val) (some i))
  | .request => noticeFrame 0xF4 (2 :: optional 1 (fun j : Fin 32 => byte1 j.val) none)

/-- The causes of a BLANK notice (R128). -/
inductive BlankCause
  | lineAsserted | lineReleased | holdExpired | hotkey | request | resume
  deriving DecidableEq, Repr

def blankCauseByte : BlankCause → List Byte
  | .lineAsserted => [0]
  | .lineReleased => [1]
  | .holdExpired => [2]
  | .hotkey => [3]
  | .request => [4]
  | .resume => [5]

/-- The source set of a unit: empty except in ENGAGED (R119). -/
def BlankState.sources : BlankState → Sources
  | .engaged x => x
  | _ => ⟨false, false, false⟩

/-- BLANK (R128): state, source set, cause, and in RECOVERING the hold time in force. -/
def blankNotice (u : BlankUnit) (c : BlankCause) : SupFrame :=
  let hold := match u.state with
    | .recovering _ => some u.holdTime
    | _ => none
  noticeFrame 0xF5 (blankStateByte u.state ++ sourcesByte (BlankState.sources u.state) ++ blankCauseByte c ++
    optional 2 byte2 hold)

/-- The causes of a SHARE notice with the reasons they carry (R148). -/
inductive ShareCause
  | offered
  | offerReceived
  | offerRefused (r : DeclineReason)
  | accepted
  | peerActive
  | declined (r : DeclineReason)
  | timeout
  | ended
  | endReceived (r : EndReason)
  | peerEnded
  | linkDown
  deriving DecidableEq, Repr

/-- A cause and, where it has one, its reason. -/
def shareCauseBytes : ShareCause → List Byte
  | .offered => 0 :: [0, 0]
  | .offerReceived => 1 :: [0, 0]
  | .offerRefused r => 2 :: 1 :: declineReasonByte r
  | .accepted => 3 :: [0, 0]
  | .peerActive => 4 :: [0, 0]
  | .declined r => 5 :: 1 :: declineReasonByte r
  | .timeout => 6 :: [0, 0]
  | .ended => 7 :: [0, 0]
  | .endReceived r => 8 :: 1 :: endReasonByte r
  | .peerEnded => 9 :: [0, 0]
  | .linkDown => 10 :: [0, 0]

/-- SHARE for an outbound session (R148): link, side, state, head and view-only flag, cause. -/
def shareOutNotice (k : LinkId) (st : Outbound) (h : Head) (viewOnly : Bool) (c : ShareCause) : SupFrame :=
  noticeFrame 0xF6 (linkByte k ++ [0] ++ outboundByte st ++ headBytes h ++ flag viewOnly ++ shareCauseBytes c)

/-- SHARE for an inbound session (R148): link, side, state, head reference, mode, pointer mode, zone, cause. -/
def shareInNotice (k : LinkId) (st : Inbound) (o : Offer) (c : ShareCause) : SupFrame :=
  noticeFrame 0xF6 (linkByte k ++ [1] ++ inboundByte st ++ headBytes o.head ++ modeBytes o.mode ++
    pointerModeByte o.pointerMode ++ byte1 o.zone.val ++ shareCauseBytes c)

/-- The causes of a CLAIM notice (R164). -/
inductive ClaimCause
  | queued
  | denied (r : DenyReason)
  | withdrawn
  | refused
  | removed
  deriving DecidableEq, Repr

def claimCauseBytes : ClaimCause → List Byte
  | .queued => 0 :: [0, 0]
  | .denied r => 1 :: 1 :: denyReasonByte r
  | .withdrawn => 2 :: [0, 0]
  | .refused => 3 :: [0, 0]
  | .removed => 4 :: [0, 0]

/-- A claim in a notice: link, arrival time, approved flag (R150). -/
def claimBytes (c : Claim) : List Byte := linkByte c.link ++ timeBytes c.arrival ++ flag c.approved

/-- CLAIM (R164): computer, link, cause with its reason, claim list. -/
def claimNotice (computer : List Byte) (k : LinkId) (c : ClaimCause) (claims : List Claim) : SupFrame :=
  noticeFrame 0xF7 (computer ++ linkByte k ++ claimCauseBytes c ++ listBytes claimBytes claims)

/-- The causes of a change of holder (R164). -/
inductive HolderCause
  | granted | auto | release | takeBack | sessionEnd | linkDown | reconciled
  deriving DecidableEq, Repr

def holderCauseByte : HolderCause → List Byte
  | .granted => [0]
  | .auto => [1]
  | .release => [2]
  | .takeBack => [3]
  | .sessionEnd => [4]
  | .linkDown => [5]
  | .reconciled => [6]

/-- CONTROL for a change of holder (R164): computer, old holder, new holder, cause, claim list. -/
def holderNotice (n : Comp) (old new : Holder) (c : HolderCause) (claims : List Claim) : SupFrame :=
  noticeFrame 0xF8 (compByte n ++ holderByte old ++ holderByte new ++ holderCauseByte c ++ listBytes claimBytes claims)

/-- The causes of a change of a viewer control state (R164). -/
inductive ViewerCause
  | claimed
  | granted
  | denied (r : DenyReason)
  | revoked
  | released
  | sessionEnd
  | reconciled
  deriving DecidableEq, Repr

def viewerCauseBytes : ViewerCause → List Byte
  | .claimed => 0 :: [0, 0]
  | .granted => 1 :: [0, 0]
  | .denied r => 2 :: 1 :: denyReasonByte r
  | .revoked => 3 :: [0, 0]
  | .released => 4 :: [0, 0]
  | .sessionEnd => 5 :: [0, 0]
  | .reconciled => 6 :: [0, 0]

/-- CONTROL for a change of a viewer control state (R164): link, new state, cause with its reason. -/
def viewerNotice (k : LinkId) (v : ViewerControl) (c : ViewerCause) : SupFrame :=
  noticeFrame 0xF8 (linkByte k ++ viewerByte v ++ viewerCauseBytes c)

/-- The causes of a POWER notice (R177). A BUS_STATE carries WOKEN when it ends an attempt with success. -/
inductive PowerCause
  | busState (woken : Bool)
  | started
  | pulse
  | failed
  | powerSense
  deriving DecidableEq, Repr

/-- A cause and the outcome WOKEN. -/
def powerCauseBytes : PowerCause → List Byte
  | .busState w => 0 :: flag w
  | .started => [1, 0]
  | .pulse => [2, 0]
  | .failed => [3, 0]
  | .powerSense => [4, 0]

/-- The failure reason of a FAILED attempt. -/
def Attempt.reason : Attempt → Option WakeFailure
  | .failed r => some r
  | _ => Option.none

/-- POWER (R177): computer, cause, bus state, attempt state with its failure reason, powered flag. -/
def powerNotice (n : Comp) (c : PowerCause) (b : BusState) (w : WakeRecord) : SupFrame :=
  noticeFrame 0xF9 (compByte n ++ powerCauseBytes c ++ busByte b ++ attemptByte w.attempt ++
    optional 1 failureByte (Attempt.reason w.attempt) ++ poweredBytes w.powered)

/-- LINE (R186): line, role with its computer, level accepted, and whether it is a first level or a change. -/
def lineNotice (l : LineId) (r : Role) (level first : Bool) : SupFrame :=
  noticeFrame 0xFA (byte1 l.val ++ roleBytes r ++ levelByte level ++ flag (!first))

/-- The causes of a LINK notice (R149). -/
inductive LinkCause
  | aliveReceived | silence | disabled
  deriving DecidableEq, Repr

def linkCauseByte : LinkCause → List Byte
  | .aliveReceived => [0]
  | .silence => [1]
  | .disabled => [2]

/-- LINK (R149): link, new state, cause, and for ALIVE_RECEIVED the peer zone set. -/
def linkNotice (k : LinkId) (up : Bool) (c : LinkCause) (zones : Option ZoneSet) : SupFrame :=
  noticeFrame 0xFB (linkByte k ++ flag up ++ linkCauseByte c ++ optional 1 zoneSetByte zones)

/-- The queue of a port in which a replacement took place (R75). -/
def portNotice (n : Comp) : Interface → SupFrame
  | .keyboard => noticeFrame 0xFC (compByte n ++ [0])
  | .pointer => noticeFrame 0xFC (compByte n ++ [1])

end Sys2Proof.Machine
end

