-- ==== Sys2Proof/Machine/Flags.lean ====
section
/-!
DEFINITION. The conditions that the manual derives from the state and never stores: effective pointer mode and head
size, attachment, source zones, recipients, the quiet timer, presented pictures, pins, and what an ALIVE reports.
-/

namespace Sys2Proof.Machine

open Sys2Proof

/-! ### Computers and heads -/

/-- The effective pointer mode of a computer (R1): RELATIVE when its pointer mode is RELATIVE or it has chosen boot
format on its pointer interface. -/
def effMode (s : State) (n : Comp) : PointerMode :=
  if (s.comp n).pointerMode = .relative ∨ (s.port n).pointerFormat = .boot then .relative else .absolute

/-- A detected mode is usable when both dimensions are nonzero and at most 8192 (R6). -/
def Mode.usable (m : Mode) : Bool :=
  decide (m.width ≠ 0 ∧ m.height ≠ 0 ∧ m.width ≤ Config.headSizeMax ∧ m.height ≤ Config.headSizeMax)

/-- The effective size of a head (R6). -/
def effSize (s : State) (h : Head) : Nat × Nat :=
  let nominal := ((s.headMap h).w, (s.headMap h).h)
  match s.input (.head h) with
  | .measured m => if Mode.usable m then (m.width, m.height) else nominal
  | _ => nominal

/-- The mode an owner sends for a head (R145). -/
def sentMode (s : State) (h : Head) : Mode :=
  match s.input (.head h) with
  | .absent => ⟨0, 0, 0⟩
  | .unmeasured => ⟨(effSize s h).1, (effSize s h).2, 0⟩
  | .measured m => ⟨(effSize s h).1, (effSize s h).2, m.refresh⟩

/-! ### The layout and the desk pointer -/

/-- The tile of a monitor, if it has one. -/
def tileOf (layout : List Tile) (m : Monitor) : Option Tile := layout.find? fun t => t.monitor == m

/-- Whether a desk unit lies in a tile (R8). -/
def Tile.contains (t : Tile) (x y : Nat) : Bool :=
  decide (t.x0 ≤ x ∧ x < t.x0 + t.w ∧ t.y0 ≤ y ∧ y < t.y0 + t.h)

/-- The tile that contains a desk unit. -/
def tileAt (layout : List Tile) (x y : Nat) : Option Tile := layout.find? fun t => Tile.contains t x y

/-- The tile the desk pointer is in. -/
def pointerTile (s : State) : Option Tile := tileAt s.layout s.pointer.px s.pointer.py

/-- The pointer's monitor (R18). -/
def pointerMonitor (s : State) : Option Monitor := (pointerTile s).map Tile.monitor

/-- The assignment of a monitor. -/
def assignmentOf (s : State) (m : Monitor) : Target := (s.out (monitorOut m)).assignment

/-- Whether a target shows a focus target: a head of Cn for LOCAL n, lane Nk for REMOTE k (R27). -/
def showsFocus : FocusTarget → Target → Bool
  | .loc n, some (.head h) => h.comp == n
  | .rem k, some (.lane j) => j == k
  | _, _ => false

/-- Whether the pointer is attached (R27). -/
def attached (s : State) : Bool :=
  match pointerMonitor s with
  | some m => showsFocus s.focus.target (assignmentOf s m)
  | none => false

/-- The offer that an inbound session keeps while it is ACTIVE (R130). -/
def activeOffer (s : State) (k : LinkId) : Option Offer :=
  match (s.link k).inbound with
  | .active o => some o
  | _ => none

/-- The source zone of an assignment (R24). -/
def sourceZone (s : State) : Target → Option Zone
  | some (.head h) => some (s.comp h.comp).zone
  | some (.lane k) => (activeOffer s k).map Offer.zone
  | none => none

/-- The focus target that re-evaluation forms from an assignment (R26). -/
def formedTarget (s : State) : Target → FocusTarget
  | some (.head h) => .loc h.comp
  | some (.lane k) => if (activeOffer s k).isSome then .rem k else .none
  | none => .none

/-- The centre of a tile (R30). -/
def Tile.centre (t : Tile) : Nat × Nat := (t.x0 + t.w / 2, t.y0 + t.h / 2)

/-! ### Privacy blank, recipients and holders -/

/-- Whether the privacy blank unit is ENGAGED or RECOVERING (R119). -/
def blanked (s : State) : Bool := s.blank.state != .clear

/-- Whether a bus state is other than DETACHED. -/
def BusState.present (b : BusState) : Bool := b != .detached

/-- Whether computer `m` is a recipient of desk input (R53). -/
def isRecipient (s : State) (m : Comp) : Bool :=
  match s.focus.target with
  | .loc n =>
    !blanked s && BusState.present (s.port n).bus && (s.control n).holder == .desk &&
      (m == n ||
        (s.router.broadcast && (s.comp n).member && (s.comp m).member && (s.comp m).zone == (s.comp n).zone &&
          BusState.present (s.port m).bus && (s.control m).holder == .desk))
  | _ => false

/-- Whether a desk link is a recipient of desk input (R53, R56). -/
def linkIsRecipient (s : State) (k : LinkId) : Bool :=
  !blanked s && s.focus.target == .rem k && (s.link k).viewer == .held

/-- Whether Cn's quiet timer meets its quiet time (R151). -/
def quietMet (s : State) (n : Comp) : Bool :=
  match (s.control n).lastDesk with
  | none => true
  | some t => decide ((s.comp n).quietTime ≤ s.now - t)

/-- Whether the automatic grant of R155 can be made for Cn. -/
def autoGrantDue (s : State) (n : Comp) : Bool :=
  (s.control n).holder == .desk && (s.comp n).policy == .auto && !(s.control n).claims.isEmpty && quietMet s n

/-- Whether a share policy lets a claim be granted: neither VIEW_ONLY nor NO_SHARE. -/
def SharePolicy.grants : SharePolicy → Bool
  | .noShare | .viewOnly => false
  | .ask | .auto => true

/-- The head of an outbound session in progress or offered, with its view-only flag. -/
def Outbound.share : Outbound → Option (Head × Bool)
  | .none => Option.none
  | .offered h v _ => some (h, v)
  | .active h v => some (h, v)

/-- The head of an outbound session while it is ACTIVE. -/
def Outbound.activeHead : Outbound → Option Head
  | .active h _ => some h
  | _ => Option.none

/-- What a link reports in an ALIVE (R140). -/
def aliveOf (s : State) (k : LinkId) : Alive where
  zones := s.desk.zones
  outbound := match (s.link k).outbound with
    | .none => .none
    | .offered _ _ _ => .offered
    | .active _ _ => .active
  controlToYou := match Outbound.activeHead (s.link k).outbound with
    | some h => (s.control h.comp).holder == .link k
    | none => false
  inbound := match (s.link k).inbound with
    | .none => .none
    | .offeredIn _ _ => .offeredIn
    | .active _ => .active
  viewer := (s.link k).viewer

/-! ### Outputs -/

/-- Whether an output presents the picture of its assignment (R112). -/
def presented (s : State) (o : OutputId) : Bool :=
  match (s.out o).state with
  | .showing =>
    match outLane o with
    | none => !blanked s
    | some k =>
      match Outbound.activeHead (s.link k).outbound with
      | some h => (s.out o).assignment == some (.head h)
      | none => false
  | _ => false

/-- Whether an output is eligible to start (R108). -/
def eligible (s : State) (o : OutputId) : Bool :=
  (s.out o).pendingSlot.isSome &&
    match (s.out o).lastStart with
    | none => true
    | some t => decide (t + (s.out o).restTime ≤ s.now)

/-- Whether the crosspoint can start a switch (R108). -/
def crosspointFree (s : State) : Bool :=
  match s.crosspointStart with
  | none => true
  | some t => decide (t + Config.startSpacing ≤ s.now)

/-- The output whose switch the crosspoint starts now: the first eligible one, when spacing allows (R108). -/
def nextStart (s : State) : Option OutputId :=
  if crosspointFree s then allOutputs.find? (eligible s) else none

/-! ### Lines -/

/-- Whether a role is an output role (R178). -/
def Role.isOutput : Role → Bool
  | .output | .tally _ | .wakePulse _ => true
  | _ => false

/-- What an output-role pin carries for a logical level (R178). -/
def drivenPin (d : Drive) (p : Polarity) (level : Bool) : Pin :=
  match d, p, level with
  | .pushPull, .normal, true => .high
  | .pushPull, .normal, false => .low
  | .pushPull, .inverted, true => .low
  | .pushPull, .inverted, false => .high
  | .openDrain, .normal, true => .low
  | .openDrain, .normal, false => .float
  | .openDrain, .inverted, true => .float
  | .openDrain, .inverted, false => .low

/-- The pin state the part drives: the hold, or the output level's, or float (R179). -/
def Line.pin (l : Line) : Pin :=
  match l.hold with
  | some p => p
  | none => if Role.isOutput l.config.role then drivenPin l.config.drive l.config.polarity l.level else .float

/-- Whether a line is filtered: an input role with no hold (R180). -/
def Line.filtering (l : Line) : Bool := !Role.isOutput l.config.role && l.hold.isNone

/-- Whether the pull-up holds a pin high: it is on, and the pin is not driven, as on every line in an input role with
no hold and on an OPEN_DRAIN output line while it floats (R178). -/
def Line.pulledUp (l : Line) : Bool := l.config.pullUp && Line.pin l == .float

/-- Whether the pin is high: what the part drives, and on a pin that is not driven the pull-up's high, unless the
wiring outside drives against it, or else what the wiring gives (R178). -/
def Line.pinHigh (l : Line) : Bool :=
  match Line.pin l with
  | .high => true
  | .low => false
  | .float => if Line.pulledUp l && !l.wireStrong then true else l.wireLevel

/-- The logical level read from the pin under the polarity (R178). -/
def Line.pinLevel (l : Line) : Bool :=
  match l.config.polarity with
  | .normal => Line.pinHigh l
  | .inverted => !Line.pinHigh l

/-- The line in WAKE_PULSE role for a computer (R169). -/
def wakeLine (s : State) (n : Comp) : Option LineId :=
  allLines.find? fun l => (s.line l).config.role == .wakePulse n

/-- The line in POWER_SENSE role for a computer (R176). -/
def senseLine (s : State) (n : Comp) : Option LineId :=
  allLines.find? fun l => (s.line l).config.role == .powerSense n

end Sys2Proof.Machine
end

