-- ==== Sys2Proof/Machine/Queues.lean ====
section
/-!
DEFINITION. What the computer ports and the desk links do with what is handed to them: the keyboard queue (R66), the
pointer queue with its merges and its delta carry (R68, R69), the flushes (R73), the router's last records (R52) and
the links' send queues (R135).
-/

namespace Sys2Proof.Machine

open Sys2Proof

/-! ### The keyboard queue -/

/-- A port takes a key-state record into its keyboard queue, by append or by tail replacement (R66). -/
def pushKey (r : KeyRecord) (p : Port) : Port :=
  let c := { p.counters with
    keyQueued := count p.counters.keyQueued
    rollovers := if r.shape = .rollover then count p.counters.rollovers else p.counters.rollovers }
  if p.keyQueue.length < Config.keyQueue then { p with keyQueue := p.keyQueue ++ [r], counters := c }
  else
    { p with
      keyQueue := p.keyQueue.dropLast ++ [r]
      noticed := true
      counters := { c with keyReplaced := count c.keyReplaced } }

/-- A key-state record is handed to a port that is not DETACHED (R66, R75). -/
def portKey (n : Comp) (r : KeyRecord) (s : State) : State :=
  let first := decide (Config.keyQueue ≤ (s.port n).keyQueue.length) && !(s.port n).noticed
  let s1 := s.modPort n (pushKey r)
  if first then notify .power (portNotice n .keyboard) s1 else s1

/-! ### The pointer queue -/

/-- A value held within −127..127. -/
def clamp127 (i : Int) : Int := max (-127) (min 127 i)

/-- An addition to the delta carry, saturating at −32767 and 32767 (R69). -/
def carryAdd (c x : Int) : Int := max (-32767) (min 32767 (c + x))

/-- The buttons of a pointer record. -/
def PointerRecord.buttons : PointerRecord → Buttons
  | .absolute b _ _ _ => b
  | .relative b _ _ _ => b

/-- Whether a record can be merged into the tail: the same form and the same buttons (R68). -/
def mergeable : PointerRecord → PointerRecord → Bool
  | .absolute b _ _ _, .absolute b' _ _ _ => b == b'
  | .relative b _ _ _, .relative b' _ _ _ => b == b'
  | _, _ => false

/-- The record as it is queued, each raw delta clamped to −127..127 (R69). -/
def fitted : PointerRecord → PointerRecord
  | .relative b dx dy w => .relative b (clamp127 dx) (clamp127 dy) w
  | r => r

/-- The movement of a record that is beyond the clamp and joins the delta carry (R69). -/
def excess : PointerRecord → Int × Int
  | .relative _ dx dy _ => (dx - clamp127 dx, dy - clamp127 dy)
  | _ => (0, 0)

/-- The sum that a merge forms before it is fitted (R68, R69): the newest position or the summed movement, and the
saturated sum of the wheels. -/
def mergeSum : PointerRecord → PointerRecord → PointerRecord
  | .absolute b _ _ w, .absolute _ x y w' => .absolute b x y (clamp127 (w + w'))
  | .relative b dx dy w, .relative _ dx' dy' w' => .relative b (dx + dx') (dy + dy') (clamp127 (w + w'))
  | t, _ => t

/-- What the pointer queue does with a record handed to it (R68). -/
inductive PointerIntake
  | append | merge (tail : PointerRecord) | replace
  deriving DecidableEq, Repr

/-- The choice of R68, from the queue level before the record joins, the flow threshold and the tail. -/
def pointerIntake (r : PointerRecord) (p : Port) : PointerIntake :=
  let level := p.pointerQueue.length
  if level < p.flow ∧ level < Config.pointerQueue then .append
  else
    match p.pointerQueue.getLast? with
    | some t =>
      if mergeable t r then .merge t
      else if level < Config.pointerQueue then .append
      else .replace
    | none => .append

/-- A port takes a pointer record into its pointer queue (R68, R69). -/
def pushPointer (r : PointerRecord) (p : Port) : Port :=
  let c := { p.counters with pointerQueued := count p.counters.pointerQueued }
  match pointerIntake r p with
  | .append =>
    { p with
      pointerQueue := p.pointerQueue ++ [fitted r]
      cx := carryAdd p.cx (excess r).1
      cy := carryAdd p.cy (excess r).2
      buttons := PointerRecord.buttons r
      counters := c }
  | .merge t =>
    { p with
      pointerQueue := p.pointerQueue.dropLast ++ [fitted (mergeSum t r)]
      cx := carryAdd p.cx (excess (mergeSum t r)).1
      cy := carryAdd p.cy (excess (mergeSum t r)).2
      buttons := PointerRecord.buttons r
      counters := { c with pointerMerged := count c.pointerMerged } }
  | .replace =>
    { p with
      pointerQueue := p.pointerQueue.dropLast ++ [fitted r]
      cx := carryAdd p.cx (excess r).1
      cy := carryAdd p.cy (excess r).2
      buttons := PointerRecord.buttons r
      noticed := true
      counters := { c with pointerReplaced := count c.pointerReplaced } }

/-- A pointer record is handed to a port that is not DETACHED (R68, R75). -/
def portPointer (n : Comp) (r : PointerRecord) (s : State) : State :=
  let first := pointerIntake r (s.port n) == .replace && !(s.port n).noticed
  let s1 := s.modPort n (pushPointer r)
  if first then notify .power (portNotice n .pointer) s1 else s1

/-! ### The router's last records -/

/-- The last key-state record queued to a computer, or none (R52). -/
def State.lastKey (s : State) (n : Comp) : Option KeyRecord := pick s.router.lastKey n
/-- The last pointer record queued to a computer, or none (R52). -/
def State.lastPointer (s : State) (n : Comp) : Option PointerRecord := pick s.router.lastPointer n

def setLastKey (n : Comp) (r : Option KeyRecord) (s : State) : State :=
  s.modRouter fun t => { t with lastKey := upd t.lastKey n fun _ => r }
def setLastPointer (n : Comp) (r : Option PointerRecord) (s : State) : State :=
  s.modRouter fun t => { t with lastPointer := upd t.lastPointer n fun _ => r }

/-- Whether a shaped record equals the last one queued, none counting as empty (R52). -/
def sameRecord (last : Option KeyRecord) (r : KeyRecord) : Bool :=
  match last with
  | some l => l.mods == r.mods && l.keys == r.keys
  | none => r.mods == 0 && r.keys.isEmpty

/-- A key state shaped to a keyboard format (R51). -/
def shapeKeys (f : Format) (k : KeyState) : KeyRecord :=
  match f with
  | .full => ⟨.full, k.mods, k.keys⟩
  | .boot => if k.keys.length ≤ 6 then ⟨.boot, k.mods, k.keys⟩ else ⟨.rollover, k.mods, [1, 1, 1, 1, 1, 1]⟩

/-- Who formed a record: the desk's input, or the control lock table. -/
inductive Former
  | desk | table
  deriving DecidableEq, Repr

/-- A desk record queued to Cn restarts its quiet timer; a record of the lock table does not (R151). -/
def touchDesk (f : Former) (n : Comp) (s : State) : State :=
  match f with
  | .desk => s.modControl n fun c => { c with lastDesk := some s.now }
  | .table => s

/-- A key-state record is formed for a computer, shaped, and queued under the no-change rule (R51, R52). A DETACHED
port discards it (R61). -/
def deliverKeys (f : Former) (n : Comp) (k : KeyState) (s : State) : State :=
  let r := shapeKeys (s.port n).keyFormat k
  if sameRecord (s.lastKey n) r || !BusState.present (s.port n).bus then s
  else touchDesk f n (setLastKey n (some r) (portKey n r s))

/-- A pointer record is handed to a computer's port (R70). A DETACHED port discards it (R61). -/
def deliverPointer (f : Former) (n : Comp) (r : PointerRecord) (s : State) : State :=
  if BusState.present (s.port n).bus then touchDesk f n (setLastPointer n (some r) (portPointer n r s)) else s

/-- The record that lets every button go: the last position, or no movement (R55). -/
def PointerRecord.letGo : PointerRecord → PointerRecord
  | .absolute _ x y _ => .absolute 0 x y 0
  | .relative _ _ _ _ => .relative 0 0 0 0

/-- The empty key-state record, and a no-button pointer record where the last one had a button down (R55, R152,
R153). -/
def releaseInput (f : Former) (n : Comp) (s : State) : State :=
  let s1 := deliverKeys f n KeyState.empty s
  match s1.lastPointer n with
  | some r => if PointerRecord.buttons r = 0 then s1 else deliverPointer f n (PointerRecord.letGo r) s1
  | none => s1

/-! ### Flushes -/

/-- The delta carry becomes 0 (R72). -/
def clearCarry (n : Comp) (s : State) : State := s.modPort n fun p => { p with cx := 0, cy := 0 }

/-- The keyboard queue is flushed (R73). -/
def flushKeys (n : Comp) (s : State) : State :=
  setLastKey n none (s.modPort n fun p =>
    { p with
      keyQueue := []
      counters := { p.counters with keyFlushed := countBy p.keyQueue.length p.counters.keyFlushed } })

/-- The pointer queue is flushed, with the carry and the pointer buttons (R73). -/
def flushPointer (n : Comp) (s : State) : State :=
  setLastPointer n none (s.modPort n fun p =>
    { p with
      pointerQueue := []
      cx := 0
      cy := 0
      buttons := 0
      counters := { p.counters with pointerFlushed := countBy p.pointerQueue.length p.counters.pointerFlushed } })

/-- Both queues are flushed (R73). -/
def flushPort (n : Comp) (s : State) : State := flushPointer n (flushKeys n s)

/-! ### The desk links' senders -/

/-- A frame formed while the link sends nothing goes on the pair; otherwise it waits in the send queue, or is
discarded when 32 are waiting (R135). -/
def enqueueFrame (m : LinkMsg) (l : Link) : Link :=
  match l.sending with
  | none => { l with sending := some m }
  | some _ =>
    if l.sendQueue.length < Config.linkQueue then { l with sendQueue := l.sendQueue ++ [m] }
    else { l with counters := { l.counters with sendOverflow := count l.counters.sendOverflow } }

/-- A link forms a frame. -/
def sendFrame (k : LinkId) (m : LinkMsg) (s : State) : State := s.modLink k (enqueueFrame m)

end Sys2Proof.Machine
end

