-- ==== Sys2Proof/Machine/Router.lean ====
section
/-!
DEFINITION. The input router: the carry-over mask (R49), the release of recipients (R55, R56), the keyboard lights
(R57), the tally lines (R181), placement (R30), and the writes of the focus record (R39, R40, R43, R44).
-/

namespace Sys2Proof.Machine

open Sys2Proof

/-! ### The carry-over mask -/

/-- Every code held on the desk keyboard enters the mask, each at most once (R49). The mask is a set; the model keeps
its non-modifier codes in the order in which they entered it, which is the order GET_FOCUS reports them in (DESIGN
CHOICE, notes/assumptions/34.md). -/
def maskHeld (s : State) : State :=
  s.modRouter fun r =>
    { r with mask :=
        ⟨r.mask.mods ||| s.keyboard.held.mods,
         r.mask.keys ++ s.keyboard.held.keys.filter fun c => !r.mask.keys.contains c⟩ }

/-- The held set minus the mask (R51). -/
def visibleKeys (s : State) : KeyState :=
  ⟨s.keyboard.held.mods &&& ~~~s.router.mask.mods,
   s.keyboard.held.keys.filter fun c => !s.router.mask.keys.contains c⟩

/-! ### Desk links as recipients -/

/-- The last KEYS frame sent on a link (R56). -/
def State.linkKeys (s : State) (k : LinkId) : KeyState := pick s.router.linkKeys k
/-- The last POINTER frame sent on a link, or none since control became HELD (R56). -/
def State.linkPointer (s : State) (k : LinkId) : Option PointerFrame := pick s.router.linkPointer k

def setLinkKeys (k : LinkId) (ks : KeyState) (s : State) : State :=
  s.modRouter fun r => { r with linkKeys := upd r.linkKeys k fun _ => ks }
def setLinkPointer (k : LinkId) (f : Option PointerFrame) (s : State) : State :=
  s.modRouter fun r => { r with linkPointer := upd r.linkPointer k fun _ => f }

/-- A KEYS frame is sent only when it differs from the last one sent (R56). A frame that a full send queue discards
counts as the last one sent (DESIGN CHOICE, notes/assumptions/36.md). -/
def sendKeys (k : LinkId) (ks : KeyState) (s : State) : State :=
  if s.linkKeys k = ks then s else setLinkKeys k ks (sendFrame k (.keys ks) s)

/-- A POINTER frame is sent, and kept as the last one (R36, R56), also when a full send queue discards it (DESIGN
CHOICE, notes/assumptions/36.md). -/
def sendPointer (k : LinkId) (f : PointerFrame) (s : State) : State :=
  setLinkPointer k (some f) (sendFrame k (.pointer f) s)

def PointerFrame.buttons : PointerFrame → Buttons
  | .absolute b _ _ _ => b
  | .relative b _ _ _ => b

/-- The frame that lets every button go: the last position, or no movement (R56). -/
def PointerFrame.letGo : PointerFrame → PointerFrame
  | .absolute _ x y _ => .absolute 0 x y 0
  | .relative _ _ _ _ => .relative 0 0 0 0

/-- A link that stops being a recipient with its viewer control still HELD is released (R56). Its no-button POINTER
frame is sent also while the session mode is 0 × 0 (DESIGN CHOICE, notes/assumptions/37.md). -/
def releaseLink (k : LinkId) (s : State) : State :=
  let s1 := sendKeys k KeyState.empty s
  match s1.linkPointer k with
  | some f => if PointerFrame.buttons f = 0 then s1 else sendPointer k (PointerFrame.letGo f) s1
  | none => s1

/-! ### Deriving the recipient set afresh -/

/-- Computer `m` is released if it was a recipient in `old` and is not one now (R55). -/
def releaseIfLeft (old : State) (s : State) (m : Comp) : State :=
  if isRecipient old m && !isRecipient s m then releaseInput .desk m s else s

/-- Link `k` is released if it was a recipient in `old`, is not one now, and its control is still HELD (R56). -/
def releaseLinkIfLeft (old : State) (s : State) (k : LinkId) : State :=
  if linkIsRecipient old k && !linkIsRecipient s k && (s.link k).viewer == .held then releaseLink k s else s

/-- Whether some computer or link has become a recipient since `old`. -/
def someoneJoined (old s : State) : Bool :=
  allComps.any (fun m => isRecipient s m && !isRecipient old m) ||
    allLinks.any fun k => linkIsRecipient s k && !linkIsRecipient old k

/-- The recipients that have left since `old` are released (R53, R55, R56), computers before links: the order is the
model's choice (DESIGN CHOICE, notes/assumptions/35.md). -/
def releaseLeavers (old s : State) : State :=
  allLinks.foldl (releaseLinkIfLeft old) (allComps.foldl (releaseIfLeft old) s)

/-- The recipient set is derived afresh at a moment other than a focus change: leavers are released, and when
someone joins, every held key enters the mask (R49, R53). -/
def rederive (old s : State) : State :=
  let s1 := releaseLeavers old s
  if someoneJoined old s then maskHeld s1 else s1

/-! ### Capture, lights, tally lines and the glide zone -/

/-- The capture flag is cleared, and the captured computer's port is told (R28, R72). -/
def clearCapture (s : State) : State :=
  if s.pointer.capture then
    let s1 := s.modPointer fun p => { p with capture := false }
    match s.focus.target with
    | .loc n => clearCarry n s1
    | _ => s1
  else s

/-- The wanted light state of the desk keyboard (R57). -/
def wantedLights (s : State) : Lights :=
  match s.focus.target with
  | .loc n => (s.port n).lights
  | _ => Lights.off

/-- The port sends the wanted light state when it differs from the one sent, or when that is unknown (R57). It checks at
the events of R57 during a privacy blank too: the line of R122 that the lights stay as they were is read as saying that
the blank itself changes none (DESIGN CHOICE, notes/assumptions/45.md). -/
def checkLights (s : State) : State :=
  if s.keyboard.attached && s.keyboard.lightsSent != some (wantedLights s) then
    s.modKeyboard fun k => { k with lightsSent := some (wantedLights s) }
  else s

/-- The output level of a TALLY line is set from the focus target (R181). -/
def setTally (s : State) (l : LineId) : State :=
  match (s.line l).config.role with
  | .tally n => s.modLine l fun ln => { ln with level := s.focus.target == .loc n }
  | _ => s

/-- The router tells the line controller of a focus write (R181). -/
def tellTally (s : State) : State := allLines.foldl setTally s

/-- The glide zone takes the zone of a target; NONE leaves it as it was (R18). -/
def takeGlideZone (t : FocusTarget) (s : State) : State :=
  match t with
  | .none => s
  | .loc n => s.modPointer fun p => { p with glideZone := (s.comp n).zone, glideFrom := t }
  | .rem k =>
    match activeOffer s k with
    | some o => s.modPointer fun p => { p with glideZone := o.zone, glideFrom := t }
    | none => s

/-- The residuals become 0 and the edge pressure is reset (R18, R30). -/
def DeskPointer.settled (p : DeskPointer) : DeskPointer := { p with rx := 0, ry := 0, pressure := Pressure.none }

/-- The pointer moves to a position, its residuals and edge pressure reset. -/
def movePointer (x y : Nat) (s : State) : State :=
  s.modPointer fun p => { DeskPointer.settled p with px := x, py := y }

/-- The pointer moves to the centre of the tile of the placement monitor; a blind focus moves nothing (R30). -/
def placeAt (m : Option Monitor) (s : State) : State :=
  match m.bind (tileOf s.layout) with
  | some t => movePointer (Tile.centre t).1 (Tile.centre t).2 s
  | none => s

/-! ### Placement -/

/-- The placement monitor: the lowest-numbered monitor that has a tile and whose picture, as `look` gives it, is the
target (R30). -/
def placement (s : State) (look : Monitor → Target) (t : FocusTarget) : Option Monitor :=
  allMonitors.find? fun m => (tileOf s.layout m).isSome && showsFocus t (look m)

/-! ### Focus writes -/

/-- A FOCUS notice when the record differs from the one in `old` (R38). -/
def noticeFocus (old s : State) : State :=
  if s.focus = old.focus then s else notify .focus (focusNotice s.focus) s

/-- The part of R40, steps 3 and 4, that concerns the old target: capture ends, and its port clears its carry. -/
def leaveTarget (old : FocusTarget) (s : State) : State :=
  let s1 := s.modPointer fun p => { p with capture := false }
  match old with
  | .loc n => clearCarry n s1
  | _ => s1

/-- A focus change (R40). The tile is the one the cause writes, and `place` says whether the cause places the
pointer there. -/
def focusChange (t : FocusTarget) (o : Origin) (tile : Option Monitor) (place : Bool) (s : State) : State :=
  let s1 := maskHeld s
  let s2 := s1.setFocus ⟨t, o, tile⟩
  let s4 := leaveTarget s.focus.target s2
  let s5 := releaseLeavers s s4
  let s6 := takeGlideZone t s5
  let s7 := noticeFocus s (checkLights (tellTally s6))
  if place then placeAt tile s7 else s7

/-- A write whose cause places the pointer (R39): a focus change, or a focus update that ends a capture and places
the pointer. -/
def writePlaced (t : FocusTarget) (o : Origin) (choice : Option Monitor) (s : State) : State :=
  if t = s.focus.target then
    noticeFocus s (placeAt choice ((clearCapture s).setFocus ⟨t, o, choice⟩))
  else focusChange t o choice true s

/-- A focus write by a hotkey action, a request or a WAKE action, placed by the current assignments (R30, R39). -/
def focusBy (t : FocusTarget) (o : Origin) (s : State) : State :=
  writePlaced t o (placement s (assignmentOf s) t) s

/-- Re-evaluating the focus for a monitor (R26): origin GLIDE and tile that monitor. -/
def reevaluate (m : Monitor) (s : State) : State :=
  let t := formedTarget s (assignmentOf s m)
  if t = s.focus.target then noticeFocus s (s.setFocus ⟨t, .glide, some m⟩)
  else focusChange t .glide (some m) false s

/-- The router is told that the crosspoint has set an output (R28, R43). -/
def outputSet (o : OutputId) (s : State) : State :=
  match outMonitor o with
  | none => s
  | some m =>
    let s1 := if pointerMonitor s = some m then clearCapture s else s
    if s1.focus.tile = some m then reevaluate m s1 else s1

/-- Inbound session k has left ACTIVE: a focus on it becomes NONE with origin SESSION_END (R43). -/
def sessionFocusEnd (k : LinkId) (s : State) : State :=
  if s.focus.target = .rem k then focusChange .none .sessionEnd s.focus.tile false s else s

/-- The privacy blank unit has left CLEAR; `old` is the state before it did (R44). -/
def focusBlank (old s : State) : State :=
  let s1 := maskHeld s
  let s2 := clearCapture (s1.setFocus ⟨s.focus.target, .blank, s.focus.tile⟩)
  noticeFocus s (releaseLeavers old s2)

/-! ### Stepping the focus -/

/-- The computers in the order FOCUS_NEXT examines them from a starting number: n+1, n+2, up to n itself (R42). -/
def upFrom (n : Nat) : List Comp := (List.range 8).map fun i => ⟨(n + 1 + i) % 8, Nat.mod_lt _ (by decide)⟩

/-- The computers in the order FOCUS_PREV examines them: n−1, n−2, down to n itself (R42). -/
def downFrom (n : Nat) : List Comp := (List.range 8).map fun i => ⟨(n + 7 * (i + 1)) % 8, Nat.mod_lt _ (by decide)⟩

/-- The computer that FOCUS_NEXT or FOCUS_PREV selects, if any is not DETACHED (R42). From REMOTE or NONE both begin
with C1. -/
def steppedFocus (s : State) (next : Bool) : Option Comp :=
  let order := match s.focus.target with
    | .loc n => if next then upFrom n.val else downFrom n.val
    | _ => if next then upFrom 7 else downFrom 1
  order.find? fun n => BusState.present (s.port n).bus

end Sys2Proof.Machine
end

