-- ==== Sys2Proof/Machine/Control.lean ====
section
/-!
DEFINITION. Chapter 9, the control lock table: grants and returns of control (R152, R153), the automatic grant
(R155), claims (R154, R156, R157), the end of control (R158 to R160), the viewer control state (R161), and the
meanings of the chapter's requests.
-/

namespace Sys2Proof.Machine

open Sys2Proof

/-! ### Changes of holder -/

/-- The holder is written, the port clears its carry and the remote states are emptied (R152 step 3, R153 step 2). -/
def writeHolder (n : Comp) (h : Holder) (s : State) : State :=
  clearCarry n (s.modControl n fun c => { c with holder := h, remoteKeys := KeyState.empty, remoteButtons := 0 })

/-- Capture on Cn ends when desk control of it ends (R28). -/
def endCaptureOn (n : Comp) (s : State) : State := if s.focus.target = .loc n then clearCapture s else s

/-- The claims of a list without those of a link. -/
def dropClaims (k : LinkId) (cs : List Claim) : List Claim := cs.filter fun c => c.link != k

/-- A grant to the claim of DLk on Cn, made while the holder is DESK (R152). -/
def grantTo (n : Comp) (k : LinkId) (c : HolderCause) (s : State) : State :=
  let s1 := s.modControl n fun r => { r with claims := dropClaims k r.claims }
  let s2 := releaseInput .table n s1
  let s3 := writeHolder n (.link k) s2
  let s4 := endCaptureOn n (rederive s s3)
  let s5 := sendFrame k .grant s4
  notify .share (holderNotice n .desk (.link k) c (s5.control n).claims) s5

/-- The automatic grant of R155, when its conditions hold together. -/
def autoGrant (n : Comp) (s : State) : State :=
  if autoGrantDue s n then
    match (s.control n).claims with
    | c :: _ => grantTo n c.link .auto s
    | [] => s
  else s

/-- Step 5 of R153: an approved claim is granted where the policy allows, its approval is dropped where it does not,
and the automatic grant is judged when nothing was granted. -/
def afterReturn (n : Comp) (s : State) : State :=
  match (s.control n).claims.find? fun c => c.approved with
  | some c =>
    if SharePolicy.grants (s.comp n).policy then grantTo n c.link .granted s
    else
      autoGrant n (s.modControl n fun r =>
        { r with claims := r.claims.map fun c => { c with approved := false } })
  | none => autoGrant n s

/-- The holder of Cn returns from DLk to DESK (R153). -/
def returnToDesk (n : Comp) (k : LinkId) (c : HolderCause) (s : State) : State :=
  let s1 := releaseInput .table n s
  let s2 := writeHolder n .desk s1
  let s3 := rederive s s2
  let s4 := notify .share (holderNotice n (.link k) .desk c (s3.control n).claims) s3
  afterReturn n s4

/-- The claim of DLk on Cn, if one is listed, is removed with a CLAIM notice (R160). -/
def removeClaim (k : LinkId) (s : State) (n : Comp) : State :=
  if (s.control n).claims.any fun c => c.link == k then
    let s1 := s.modControl n fun r => { r with claims := dropClaims k r.claims }
    notify .share (claimNotice (compByte n) k .removed (s1.control n).claims) s1
  else s

/-- Control of Cn returns to the desk if DLk holds it. -/
def returnIfHeld (k : LinkId) (c : HolderCause) (s : State) (n : Comp) : State :=
  if (s.control n).holder = .link k then returnToDesk n k c s else s

/-- Control leaves a link: its claims are removed from every list, and then what it holds returns to the desk (R160),
each from C1 to C8 (DESIGN CHOICE, notes/assumptions/35.md). -/
def endControl (k : LinkId) (c : HolderCause) (s : State) : State :=
  allComps.foldl (returnIfHeld k c) (allComps.foldl (removeClaim k) s)

/-! ### The viewer control state -/

/-- A change of the viewer control state of Nk and its effects on the input router (R56, R161). -/
def setViewer (k : LinkId) (v : ViewerControl) (c : ViewerCause) (s : State) : State :=
  if (s.link k).viewer = v then s
  else
    let s1 := s.modLink k fun l => { l with viewer := v }
    let s2 := if v = .held then setLinkPointer k none (setLinkKeys k KeyState.empty s1) else s1
    let s3 := if s2.focus.target = .rem k ∧ v ≠ .held then clearCapture s2 else s2
    notify .share (viewerNotice k v c) (rederive s s3)

/-! ### Claims at the owner -/

/-- A valid frame that finds nothing to act on (R136). -/
def discardFrame (k : LinkId) (s : State) : State :=
  s.modLink k fun l => { l with counters := { l.counters with discarded := count l.counters.discarded } }

/-- A claim is denied, with its CLAIM notice (R154, R164). -/
def denyClaim (k : LinkId) (n : Comp) (r : DenyReason) (s : State) : State :=
  notify .share (claimNotice (compByte n) k (.denied r) (s.control n).claims) (sendFrame k (.deny r) s)

/-- A CLAIM on a link whose outbound session is not ACTIVE (R154). The notice names the computer of an offered
session; with no session its byte is open (notes/assumptions/7.md). -/
def denyNoSession (k : LinkId) (s : State) : State :=
  match Outbound.share (s.link k).outbound with
  | some (h, _) => denyClaim k h.comp .noSession s
  | none =>
    notify .share (claimNotice [Config.noSessionComputer k.val] k (.denied .noSession) [])
      (sendFrame k (.deny .noSession) s)

/-- A CLAIM on the computer Cn of the link's ACTIVE outbound session, judged in the order of R154. -/
def claimOn (k : LinkId) (n : Comp) (viewOnly : Bool) (kind : ClaimKind) (s : State) : State :=
  if viewOnly || !SharePolicy.grants (s.comp n).policy then denyClaim k n .viewOnly s
  else if !(s.link k).peerZones.getLsbD (s.comp n).zone.val then denyClaim k n .zone s
  else if (s.control n).holder = .link k then sendFrame k .grant s
  else if (s.control n).claims.any fun c => c.link == k then discardFrame k s
  else if (s.control n).holder = .desk ∧ (s.comp n).policy = .auto ∧ quietMet s n = true then
    grantTo n k .auto s
  else
    match kind with
    | .direct => denyClaim k n .busy s
    | .queued =>
      let s1 := s.modControl n fun r => { r with claims := r.claims ++ [⟨k, s.now, false⟩] }
      notify .share (claimNotice (compByte n) k .queued (s1.control n).claims) s1

/-- A CLAIM frame taken on a link (R154). -/
def takeClaim (k : LinkId) (kind : ClaimKind) (s : State) : State :=
  match (s.link k).outbound with
  | .active h v => claimOn k h.comp v kind s
  | _ => denyNoSession k s

/-- A RELEASE frame taken on a link (R158). -/
def takeRelease (k : LinkId) (s : State) : State :=
  match Outbound.activeHead (s.link k).outbound with
  | some h =>
    if (s.control h.comp).holder = .link k then returnToDesk h.comp k .release s
    else if (s.control h.comp).claims.any fun c => c.link == k then
      let s1 := s.modControl h.comp fun r => { r with claims := dropClaims k r.claims }
      notify .share (claimNotice (compByte h.comp) k .withdrawn (s1.control h.comp).claims) s1
    else discardFrame k s
  | none => discardFrame k s

/-! ### Requests of the owner's host -/

/-- The link 0..2 of a request: 0 names the oldest claim. -/
def claimLinkOf (b : Byte) : Option (Option LinkId) := if b = 0 then some none else (linkOf b).map some

/-- The claim a request names (R156, R157). -/
def namedClaim (s : State) (n : Comp) (k : Option LinkId) : Option Claim :=
  match k with
  | none => (s.control n).claims.head?
  | some k => (s.control n).claims.find? fun c => c.link == k

/-- GRANT_CONTROL on a computer and a claim (R156). -/
def grantControl (n : Comp) (k : Option LinkId) (s : State) : Judged :=
  match namedClaim s n k with
  | none => refuse .noEntry s
  | some c =>
    if !SharePolicy.grants (s.comp n).policy then refuse .wrongState s
    else if (s.control n).holder = .desk then okay (grantTo n c.link .granted s)
    else
      accepted (s.modControl n fun r =>
        { r with claims := r.claims.map fun d => if d.link = c.link then { d with approved := true } else d })

def judgeGrantControl (body : List Byte) (s : State) : Judged :=
  match body with
  | [b0, b1] =>
    match compOf b0, claimLinkOf b1 with
    | some n, some k => grantControl n k s
    | _, _ => refuse .badArg s
  | _ => refuse .badLength s

/-- REFUSE_CLAIM on a computer and a claim (R157). -/
def refuseClaim (n : Comp) (k : Option LinkId) (s : State) : Judged :=
  match namedClaim s n k with
  | none => refuse .noEntry s
  | some c =>
    let s1 := s.modControl n fun r => { r with claims := dropClaims c.link r.claims }
    let s2 := sendFrame c.link (.deny .refused) s1
    okay (notify .share (claimNotice (compByte n) c.link .refused (s2.control n).claims) s2)

def judgeRefuseClaim (body : List Byte) (s : State) : Judged :=
  match body with
  | [b0, b1] =>
    match compOf b0, claimLinkOf b1 with
    | some n, some k => refuseClaim n k s
    | _, _ => refuse .badArg s
  | _ => refuse .badLength s

/-- TAKE_BACK on a computer (R159). -/
def takeBack (n : Comp) (s : State) : Judged :=
  match (s.control n).holder with
  | .desk => okay s
  | .link k =>
    let s1 := s.modControl n fun r => { r with claims := r.claims.map fun c => { c with approved := false } }
    let s2 := sendFrame k .revoke s1
    let s3 := s2.modControl n fun r => { r with lastDesk := some s.now }
    okay (returnToDesk n k .takeBack s3)

def judgeTakeBack (body : List Byte) (s : State) : Judged :=
  match body with
  | [b0] =>
    match compOf b0 with
    | some n => takeBack n s
    | none => refuse .badArg s
  | _ => refuse .badLength s

/-! ### Requests of the viewer's host -/

/-- CLAIM_CONTROL on a link (R161). -/
def claimControl (k : LinkId) (kind : ClaimKind) (s : State) : Judged :=
  if !(s.link k).up then refuse .linkDown s
  else if (activeOffer s k).isNone then refuse .wrongState s
  else
    match (s.link k).viewer with
    | .none => accepted (setViewer k .requested .claimed (sendFrame k (.claim kind) s))
    | _ => refuse .wrongState s

def judgeClaimControl (body : List Byte) (s : State) : Judged :=
  match body with
  | [b0, b1] =>
    match linkOf b0, claimKindOf b1 with
    | some k, some kind => claimControl k kind s
    | _, _ => refuse .badArg s
  | _ => refuse .badLength s

/-- RELEASE_CONTROL on a link (R161). -/
def releaseControl (k : LinkId) (s : State) : Judged :=
  if !(s.link k).up then refuse .linkDown s
  else
    match (s.link k).viewer with
    | .none => refuse .wrongState s
    | _ => okay (setViewer k .none .released (sendFrame k .release s))

def judgeReleaseControl (body : List Byte) (s : State) : Judged :=
  match body with
  | [b0] =>
    match linkOf b0 with
    | some k => releaseControl k s
    | none => refuse .badArg s
  | _ => refuse .badLength s

/-! ### Readback -/

/-- A claim in the reply of GET_CONTROL: link, time since its arrival, approved flag (R164). -/
def claimReply (s : State) (c : Claim) : List Byte := linkByte c.link ++ timeBytes (s.now - c.arrival) ++ flag c.approved

/-- The reply of GET_CONTROL (R164). -/
def controlReply (n : Comp) (s : State) : List Byte :=
  let r := s.control n
  holderByte r.holder ++ listBytes (claimReply s) r.claims ++
    optional 4 timeBytes (r.lastDesk.map (s.now - ·)) ++ byte2 (s.comp n).quietTime ++ policyByte (s.comp n).policy ++
    viewerByte (s.link 0).viewer ++ viewerByte (s.link 1).viewer

def judgeGetControl (body : List Byte) (s : State) : Judged :=
  match body with
  | [b0] =>
    match compOf b0 with
    | some n => okayWith (controlReply n s) s
    | none => refuse .badArg s
  | _ => refuse .badLength s

/-! ### The meanings -/

/-- GRANT_CONTROL (R156). -/
def execGrantControl (tag : Byte) (body : List Byte) (s : State) : Host.Outcome State Fault Refusal :=
  done (runRequest ⟨0x58, tag, body⟩ judgeGrantControl s)

/-- REFUSE_CLAIM (R157). -/
def execRefuseClaim (tag : Byte) (body : List Byte) (s : State) : Host.Outcome State Fault Refusal :=
  done (runRequest ⟨0x59, tag, body⟩ judgeRefuseClaim s)

/-- TAKE_BACK (R159). -/
def execTakeBack (tag : Byte) (body : List Byte) (s : State) : Host.Outcome State Fault Refusal :=
  done (runRequest ⟨0x5A, tag, body⟩ judgeTakeBack s)

/-- CLAIM_CONTROL (R161). -/
def execClaimControl (tag : Byte) (body : List Byte) (s : State) : Host.Outcome State Fault Refusal :=
  done (runRequest ⟨0x5B, tag, body⟩ judgeClaimControl s)

/-- RELEASE_CONTROL (R161). -/
def execReleaseControl (tag : Byte) (body : List Byte) (s : State) : Host.Outcome State Fault Refusal :=
  done (runRequest ⟨0x5C, tag, body⟩ judgeReleaseControl s)

/-- GET_CONTROL (R164). -/
def execGetControl (tag : Byte) (body : List Byte) (s : State) : Host.Outcome State Fault Refusal :=
  done (runRequest ⟨0x5D, tag, body⟩ judgeGetControl s)

/-- QUIET_TIME_REACHED (R155): Cn's quiet timer reaches its quiet time. -/
def execQuietTimeReached (n : Comp) (s : State) : Host.Outcome State Fault Refusal :=
  done (match (s.control n).lastDesk with
    | some t => autoGrant n (reach (t + (s.comp n).quietTime) s)
    | none => autoGrant n s)

end Sys2Proof.Machine
end

