-- ==== Sys2Proof/Machine/Mapping.lean ====
section
/-!
DEFINITION. The mapping arithmetic of chapter 2: stages A to E (section 2.1, R33 to R35) and the shaping of a remote
pointer frame at the owner (R37).
-/

namespace Sys2Proof.Machine

open Sys2Proof

/-- Stage A: the move and the new residual, from the residual, the desk delta and the gain. -/
def stageA (r d : Int) (gain : Nat) : Int × Int :=
  let acc := r + d * gain
  let m := acc.tdiv 16
  (m, acc - 16 * m)

/-- Stage C on one axis: from tile-local to head pixel (R33). -/
def stageC (p origin size head : Nat) : Nat := (p - origin) * head / size

/-- Stage D on one axis: the desktop pixel, clamped to the last one (R34). -/
def stageD (offset h v : Nat) : Nat := min (offset + h) (v - 1)

/-- Whether stage D clamps (R34). -/
def stageDClamps (offset h v : Nat) : Bool := decide (v - 1 < offset + h)

/-- Stage E on one axis: the absolute coordinate (R35). -/
def stageE (g v : Nat) : Nat := if v ≤ 1 then 0 else (2 * g * 32767 + (v - 1)) / (2 * (v - 1))

/-- The absolute coordinates of a head pixel of a head: stages D and E. -/
def mapHead (s : State) (h : Head) (hx hy : Nat) : Nat × Nat :=
  let m := s.headMap h
  let c := s.comp h.comp
  (stageE (stageD m.ox hx c.vw) c.vw, stageE (stageD m.oy hy c.vh) c.vh)

/-- How many axes stage D clamps for a head pixel (R34). -/
def mapClamps (s : State) (h : Head) (hx hy : Nat) : Nat :=
  let m := s.headMap h
  let c := s.comp h.comp
  (if stageDClamps m.ox hx c.vw then 1 else 0) + (if stageDClamps m.oy hy c.vh then 1 else 0)

/-- The clamps are counted at the computer's port (R34). -/
def countClamps (n : Comp) (k : Nat) (s : State) : State :=
  s.modPort n fun p => { p with counters := { p.counters with desktopClamps := countBy k p.counters.desktopClamps } }

/-- An absolute record through a head is formed and handed to the computer's port, its clamps counted (R27, R37). -/
def deliverMapped (f : Former) (h : Head) (hx hy : Nat) (buttons : Buttons) (wheel : Int) (s : State) : State :=
  let p := mapHead s h hx hy
  deliverPointer f h.comp (.absolute buttons p.1 p.2 wheel) (countClamps h.comp (mapClamps s h hx hy) s)

/-- The position that a relative frame gives an ABSOLUTE computer: that of the last record queued when it is
absolute, the centre otherwise (R37). -/
def restPosition : Option PointerRecord → Nat × Nat
  | some (.absolute _ x y _) => (x, y)
  | _ => (16383, 16383)

/-- An accepted POINTER frame through the head of the link's ACTIVE outbound session, shaped to the computer's current
mode (R37). -/
def deliverRemote (h : Head) (f : PointerFrame) (s : State) : State :=
  match f, effMode s h.comp with
  | .absolute b hx hy w, .absolute =>
    deliverMapped .table h (min hx ((effSize s h).1 - 1)) (min hy ((effSize s h).2 - 1)) b w s
  | .absolute b _ _ w, .relative => deliverPointer .table h.comp (.relative b 0 0 w) s
  | .relative b dx dy w, .relative => deliverPointer .table h.comp (.relative b dx dy w) s
  | .relative b _ _ w, .absolute =>
    let p := restPosition (s.lastPointer h.comp)
    deliverPointer .table h.comp (.absolute b p.1 p.2 w) s

end Sys2Proof.Machine
end

