-- ==== Sys2Proof/Machine/Video.lean ====
section
/-!
DEFINITION. Chapter 6, the video crosspoint: targets reaching outputs (R105), starts, settings and locks (R108 to
R111), mode changes of inputs (R101, R102), the SWITCH request and the scenes, and the meanings of the chapter's
commands.
-/

namespace Sys2Proof.Machine

open Sys2Proof

/-! ### Outputs -/

/-- What R105 does with a target: whether it does anything at all, and the output left. -/
def takeTargetRecord (t : Target) (o : Output) : Output :=
  match o.state with
  | .blanking _ e => { o with state := .blanking t e }
  | .locking _ _ => { o with pendingSlot := some t }
  | .showing => if t = o.assignment then { o with pendingSlot := none } else { o with pendingSlot := some t }
  | .noSignal => if t = o.assignment then { o with pendingSlot := none } else { o with pendingSlot := some t }
  | .dark => if t = none then { o with pendingSlot := none } else { o with pendingSlot := some t }

/-- Whether R105 does nothing with a target: the output shows it already and nothing is pending. -/
def targetIdle (t : Target) (o : Output) : Bool :=
  o.pendingSlot.isNone &&
    match o.state with
    | .showing | .noSignal => t == o.assignment
    | .dark => t == none
    | _ => false

/-- A target reaches an output (R105). -/
def takeTarget (o : OutputId) (t : Target) (s : State) : State := s.modOut o (takeTargetRecord t)

/-- An output enters a state, with its OUTPUT notice (R115). -/
def enterState (o : OutputId) (st : OutputState) (s : State) : State :=
  let s1 := s.modOut o fun r => { r with state := st }
  notify .video (outputNotice o (s1.out o) (presented s1 o)) s1

/-- From when an input has been stable at the moment `t`: since `t` when its mode is known (R109, R110). -/
def stableFrom (t : Nat) : InputState → Option Nat
  | .measured _ => some t
  | _ => none

/-- An output enters LOCKING on its assigned input, with a fresh deadline (R109, R111). -/
def enterLocking (o : OutputId) (v : InputState) (s : State) : State :=
  enterState o (.locking (s.now + (s.out o).lockTimeout) (stableFrom s.now v)) s

/-- The crosspoint is set at the end of a blank lead (R109). -/
def setCrosspoint (o : OutputId) (t : Target) (s : State) : State :=
  let s1 := outputSet o (s.modOut o fun r => { r with assignment := t })
  match t with
  | none => enterState o .dark s1
  | some i => enterLocking o (s1.input i) s1

/-- The first eligible output starts (R108). A blank lead of 0 sets the crosspoint at the moment of the start
(R109). -/
def startSwitch (o : OutputId) (s : State) : State :=
  match (s.out o).pendingSlot with
  | none => s
  | some t =>
    let e := s.now + (s.out o).blankLead
    let s1 := (s.modOut o fun r => { r with pendingSlot := none, lastStart := some s.now }).setCrosspointStart (some s.now)
    let s2 := enterState o (.blanking t e) s1
    if (s.out o).blankLead = 0 then setCrosspoint o t s2 else s2

/-- An output whose assignment is an input follows a mode change of it (R110, R111). -/
def followInput (i : Input) (v : InputState) (s : State) (o : OutputId) : State :=
  if (s.out o).assignment = some i then
    match (s.out o).state with
    | .locking d _ => s.modOut o fun r => { r with state := .locking d (stableFrom s.now v) }
    | .showing => if v = .absent then enterState o .noSignal s else enterLocking o v s
    | .noSignal => if v = .absent then s else enterLocking o v s
    | _ => s
  else s

/-- A link whose outbound session is ACTIVE on a head sends a MODE frame (R101, R145). -/
def sendModeFor (h : Head) (s : State) (k : LinkId) : State :=
  if Outbound.activeHead (s.link k).outbound = some h then
    sendFrame k (.mode (sentMode s h) (effMode s h.comp)) s
  else s

/-- A mode change of an input: the new state is written, the outputs follow, the links report a head, and a
HEAD_MODE notice is produced. An event that does not change the input state does nothing (R101, R102). The outputs are
told from M1 to M4, then O1 and O2 (DESIGN CHOICE, notes/assumptions/35.md). -/
def changeInput (i : Input) (v : InputState) (s : State) : State :=
  if s.input i = v then s
  else
    let s1 := allOutputs.foldl (followInput i v) (s.setInput i v)
    match i with
    | .head h =>
      notify .video (headModeNotice i v (some (effSize s1 h))) (allLinks.foldl (sendModeFor h) s1)
    | .lane _ => notify .video (headModeNotice i v none) s1

/-- The input state of an inbound lane for a session mode (R102). -/
def laneState (m : Mode) : InputState := if m.width = 0 ∧ m.height = 0 then .absent else .measured m

/-! ### Switch requests -/

/-- SWITCH on an output and a target, judged in the order of R106. -/
def switchTo (o : OutputId) (t : Target) (s : State) : Judged :=
  let disabled := match t with
    | some (.head h) => !(s.headMap h).enabled
    | _ => false
  let laneToLane := match outLane o, t with
    | some _, some (.lane _) => true
    | _, _ => false
  let closedLane := match t with
    | some (.lane k) => (activeOffer s k).isNone
    | _ => false
  let busyLane := match outLane o with
    | some k => (Outbound.share (s.link k).outbound).isSome
    | none => false
  if disabled || laneToLane then refuse .badArg s
  else if closedLane || busyLane then refuse .wrongState s
  else if targetIdle t (s.out o) then okay (takeTarget o t s)
  else accepted (takeTarget o t s)

def judgeSwitch (body : List Byte) (s : State) : Judged :=
  match body with
  | [b0, b1] =>
    match outputOf b0, targetOf b1 with
    | some o, some t => switchTo o t s
    | _, _ => refuse .badArg s
  | _ => refuse .badLength s

/-! ### Scenes -/

/-- Whether a recall skips an entry: an inbound lane without an ACTIVE session, or a head now disabled (R118). -/
def entrySkipped (s : State) (e : Monitor × Target) : Bool :=
  match e.2 with
  | some (.lane k) => (activeOffer s k).isNone
  | some (.head h) => !(s.headMap h).enabled
  | none => false

/-- The picture that the scene variant of placement counts for a monitor: the target of its entry that is not
skipped, otherwise its current assignment (R30, R118). -/
def sceneLook (s : State) (kept : List (Monitor × Target)) (m : Monitor) : Target :=
  match kept.find? fun e => e.1 == m with
  | some e => e.2
  | none => assignmentOf s m

/-- A scene is carried out (R118). The answer carries the number of entries skipped. -/
def recallScene (c : Scene) (s : State) : Judged :=
  let kept := c.entries.filter fun e => !entrySkipped s e
  let s1 := kept.foldl (fun s e => takeTarget (monitorOut e.1) e.2 s) s
  let s2 := match c.focus with
    | some n => writePlaced (.loc n) .scene (placement s1 (sceneLook s1 kept) (.loc n)) s1
    | none => s1
  ⟨.accepted, byte1 (c.entries.length - kept.length), s2⟩

/-- RECALL_SCENE on a slot in range (R118). -/
def recallSlot (i : Fin 16) (s : State) : Judged :=
  match s.scene i with
  | some c => recallScene c s
  | none => refuse .noEntry s

def judgeRecallScene (body : List Byte) (s : State) : Judged :=
  match body with
  | [b0] =>
    match sceneSlotOf b0 with
    | some i => recallSlot i s
    | none => refuse .badArg s
  | _ => refuse .badLength s

/-- An insertion of a scene entry in monitor order. -/
def insertEntry (e : Monitor × Target) : List (Monitor × Target) → List (Monitor × Target)
  | [] => [e]
  | x :: rest => if e.1.val ≤ x.1.val then e :: x :: rest else x :: insertEntry e rest

/-- The entries of a scene in monitor order (R117). -/
def sortEntries (es : List (Monitor × Target)) : List (Monitor × Target) := es.foldr insertEntry []

/-- Whether a scene may be stored with these entries (R117). -/
def entriesStorable (s : State) (es : List (Monitor × Target)) : Bool :=
  decide (es.length ≤ 4) && decide (es.map Prod.fst).Nodup &&
    es.all fun e => match e.2 with
      | some (.head h) => (s.headMap h).enabled
      | _ => true

/-- The focus computer of a STORE_SCENE: 0 means absent. -/
def sceneFocusOf (b : Byte) : Option (Option Comp) := if b = 0 then some none else (compOf b).map some

def judgeStoreScene (body : List Byte) (s : State) : Judged :=
  match body with
  | slot :: f :: n :: rest =>
    if rest.length = 2 * n.toNat then
      match sceneSlotOf slot, sceneFocusOf f, sceneEntriesOf rest with
      | some i, some fc, some es =>
        if entriesStorable s es then
          okay (s.setScene i (if es = [] then none else some ⟨sortEntries es, fc⟩))
        else refuse .badArg s
      | _, _, _ => refuse .badArg s
    else refuse .badLength s
  | _ => refuse .badLength s

/-! ### Settings and readback -/

def judgeSetOutput (body : List Byte) (s : State) : Judged :=
  match body with
  | [b0, r1, r0, l1, l0, t1, t0] =>
    match outputOf b0 with
    | some o =>
      okay (s.modOut o fun r =>
        { r with
          restTime := clampTo 20 2000 (num2 r1 r0)
          blankLead := clampTo 0 200 (num2 l1 l0)
          lockTimeout := clampTo 100 5000 (num2 t1 t0) })
    | none => refuse .badArg s
  | _ => refuse .badLength s

/-- The reply of GET_OUTPUT (R116). -/
def outputReply (o : OutputId) (s : State) : List Byte :=
  let r := s.out o
  let blanking := match r.state with
    | .blanking t e => some (t, e - s.now)
    | _ => none
  let locking := match r.state with
    | .locking d st => some (d - s.now, st.map (s.now - ·))
    | _ => none
  targetByte r.assignment ++ outputStateByte r.state ++ pictureByte (presented s o) ++
    optional 1 targetByte r.pendingSlot ++
    optional 1 targetByte (blanking.map Prod.fst) ++ optional 4 timeBytes (blanking.map Prod.snd) ++
    optional 4 timeBytes (locking.map Prod.fst) ++ optional 4 timeBytes (locking.bind Prod.snd) ++
    optional 4 timeBytes (r.lastStart.map (s.now - ·)) ++
    byte2 r.restTime ++ byte1 r.blankLead ++ byte2 r.lockTimeout

def judgeGetOutput (body : List Byte) (s : State) : Judged :=
  match body with
  | [b0] =>
    match outputOf b0 with
    | some o => okayWith (outputReply o s) s
    | none => refuse .badArg s
  | _ => refuse .badLength s

/-- The outputs whose assignment is an input (R116), listed from M1 to M4, then O1 and O2 (DESIGN CHOICE,
notes/assumptions/19.md). -/
def showingOutputs (s : State) (i : Input) : List OutputId :=
  allOutputs.filter fun o => (s.out o).assignment == some i

/-- The reply of GET_HEAD (R116). -/
def headReply (i : Input) (s : State) : List Byte :=
  let st := s.input i
  match i with
  | .head h =>
    let m := s.headMap h
    flag m.enabled ++ byte2 m.ox ++ byte2 m.oy ++ byte2 m.w ++ byte2 m.h ++
      flag (st != .absent) ++ detectedBytes st ++ byte2 (effSize s h).1 ++ byte2 (effSize s h).2 ++
      listBytes outputByte (showingOutputs s i)
  | .lane k =>
    flag (st != .absent) ++ detectedBytes st ++ flag (activeOffer s k).isSome ++
      listBytes outputByte (showingOutputs s i)

def judgeGetHead (body : List Byte) (s : State) : Judged :=
  match body with
  | [b0] =>
    match inputOf b0 with
    | some i => okayWith (headReply i s) s
    | none => refuse .badArg s
  | _ => refuse .badLength s

/-! ### The meanings -/

/-- SWITCH (R106). -/
def execSwitch (tag : Byte) (body : List Byte) (s : State) : Host.Outcome State Fault Refusal :=
  done (runRequest ⟨0x40, tag, body⟩ judgeSwitch s)

/-- GET_OUTPUT (R116). -/
def execGetOutput (tag : Byte) (body : List Byte) (s : State) : Host.Outcome State Fault Refusal :=
  done (runRequest ⟨0x41, tag, body⟩ judgeGetOutput s)

/-- SET_OUTPUT (R104). -/
def execSetOutput (tag : Byte) (body : List Byte) (s : State) : Host.Outcome State Fault Refusal :=
  done (runRequest ⟨0x42, tag, body⟩ judgeSetOutput s)

/-- STORE_SCENE (R117). -/
def execStoreScene (tag : Byte) (body : List Byte) (s : State) : Host.Outcome State Fault Refusal :=
  done (runRequest ⟨0x43, tag, body⟩ judgeStoreScene s)

/-- RECALL_SCENE (R118). -/
def execRecallScene (tag : Byte) (body : List Byte) (s : State) : Host.Outcome State Fault Refusal :=
  done (runRequest ⟨0x44, tag, body⟩ judgeRecallScene s)

/-- GET_HEAD (R116). -/
def execGetHead (tag : Byte) (body : List Byte) (s : State) : Host.Outcome State Fault Refusal :=
  done (runRequest ⟨0x45, tag, body⟩ judgeGetHead s)

/-- SIGNAL_FOUND (R101): in the state "no signal", signal becomes present with the mode unknown. -/
def execSignalFound (h : Head) (s : State) : Host.Outcome State Fault Refusal :=
  done (if s.input (.head h) = .absent then changeInput (.head h) .unmeasured s else s)

/-- MODE_MEASURED (R101): the measured mode is written, signal becoming present if it was absent. -/
def execModeMeasured (h : Head) (m : Mode) (s : State) : Host.Outcome State Fault Refusal :=
  done (changeInput (.head h) (.measured m) s)

/-- SIGNAL_LOST (R101). -/
def execSignalLost (h : Head) (s : State) : Host.Outcome State Fault Refusal :=
  done (changeInput (.head h) .absent s)

/-- When an output that holds a pending target is eligible: at once, or when its rest time is over (R108). -/
def readyTime (s : State) (o : OutputId) : Option Nat :=
  if (s.out o).pendingSlot.isSome then
    some (match (s.out o).lastStart with
      | some t => t + (s.out o).restTime
      | none => 0)
  else none

/-- When the crosspoint can start a switch (R108). -/
def freeTime (s : State) : Nat :=
  match s.crosspointStart with
  | some t => t + Config.startSpacing
  | none => 0

/-- When the next start can take place, if a target is pending (R108). -/
def startTime (s : State) : Option Nat :=
  (allOutputs.filterMap (readyTime s)).min?.map (max (freeTime s))

/-- The arbiter's start of the first eligible output, if spacing allows one (R108). -/
def startNext (s : State) : State :=
  match nextStart s with
  | some o => startSwitch o s
  | none => s

/-- SWITCH_START (R108): the moment has come at which spacing allows a start and an output is eligible. -/
def execSwitchStart (s : State) : Host.Outcome State Fault Refusal :=
  done (match startTime s with
    | some t => startNext (reach t s)
    | none => s)

/-- BLANK_END (R109): the blank end of an output in BLANKING. -/
def execBlankEnd (o : OutputId) (s : State) : Host.Outcome State Fault Refusal :=
  done (match (s.out o).state with
    | .blanking t e => setCrosspoint o t (reach e s)
    | _ => s)

/-- LOCK_STABLE (R110): 50 ms have passed with stable since not none. -/
def execLockStable (o : OutputId) (s : State) : Host.Outcome State Fault Refusal :=
  done (match (s.out o).state with
    | .locking _ (some t) => enterState o .showing (reach (t + Config.lockStable) s)
    | _ => s)

/-- LOCK_TIMEOUT (R110): the lock deadline expires while still LOCKING. -/
def execLockTimeout (o : OutputId) (s : State) : Host.Outcome State Fault Refusal :=
  done (match (s.out o).state with
    | .locking d _ => enterState o .noSignal (reach d s)
    | _ => s)

end Sys2Proof.Machine
end

