-- ==== Sys2Proof/Machine/Wake.lean ====
section
/-!
DEFINITION. Chapter 10, the wake controller: triggers (R166, R167), the stages of an attempt (R168 to R170), success
and failure (R171, R172), bus events and reconfigured lines during an attempt (R173, R174), the powered flag (R176),
and the meanings of the chapter's commands.
-/

namespace Sys2Proof.Machine

open Sys2Proof

/-- A POWER notice for Cn, its fields as they stand now (R177). -/
def notifyPower (n : Comp) (c : PowerCause) (s : State) : State :=
  notify .power (powerNotice n c (s.port n).bus (s.wakeOf n)) s

/-- The attempt state of Cn is written. -/
def setAttempt (n : Comp) (a : Attempt) (s : State) : State := s.modWake n fun w => { w with attempt := a }

/-- The wake controller sets the output level of a pulse line (R181). -/
def setPulse (l : LineId) (active : Bool) (s : State) : State := s.modLine l fun ln => { ln with level := active }

/-- The pulse line of an attempt in PULSE. -/
def Attempt.pulseLine : Attempt → Option LineId
  | .pulse _ l _ => some l
  | _ => Option.none

/-- Whether an attempt is in flight (R165). -/
def Attempt.inFlight : Attempt → Bool
  | .busSignal _ _ | .pulse _ _ _ | .wait _ _ _ => true
  | .none | .failed _ => false

/-- The fields of an attempt in flight. -/
def Attempt.flight : Attempt → Option Flight
  | .busSignal f _ | .pulse f _ _ | .wait f _ _ => some f
  | .none | .failed _ => Option.none

/-- A pulse line returns to its inactive level, if the attempt is in PULSE. -/
def endPulse (n : Comp) (s : State) : State :=
  match Attempt.pulseLine (s.wakeOf n).attempt with
  | some l => setPulse l false s
  | none => s

/-- An attempt fails (R172). -/
def failWake (n : Comp) (r : WakeFailure) (s : State) : State :=
  notifyPower n .failed (flushPort n (setAttempt n (.failed r) (endPulse n s)))

/-- A pulse is due: the attempt enters PULSE on Cn's WAKE_PULSE line, or fails with NO_LINE (R169, R170). -/
def pulseDue (n : Comp) (f : Flight) (c : PowerCause) (s : State) : State :=
  match wakeLine s n with
  | some l => notifyPower n c (setPulse l true (setAttempt n (.pulse f l (s.now + f.pulseWidth)) s))
  | none => failWake n .noLine s

/-- Whether Cn's bus can be signalled: SUSPENDED with the remote-wake permission on (R168). -/
def busWakeable (s : State) (n : Comp) : Bool := (s.port n).bus == .suspended && (s.port n).remoteWake

/-- The port drives resume signalling for 10 ms (R168). -/
def beginSignal (n : Comp) (f : Flight) (s : State) : State :=
  notifyPower n .started (setAttempt n (.busSignal f (s.now + Config.busSignal)) s)

/-- A new attempt starts with the values of the computer record (R168 to R170). -/
def startAttempt (n : Comp) (s : State) : State :=
  let r := s.comp n
  let f : Flight := ⟨r.method, s.now, s.now + r.wakeTimeout, r.pulseWidth⟩
  match r.method with
  | .bus => if busWakeable s n then beginSignal n f s else failWake n .notPermitted s
  | .line => pulseDue n f .started s
  | .both => if busWakeable s n then beginSignal n f s else pulseDue n f .started s

/-- The fields that a WAKE reply carries (R167): the in-progress flag of an OK, the attempt state after the request,
and in FAILED the failure reason. -/
def wakeReply (progress : Option Bool) (n : Comp) (s : State) : List Byte :=
  optional 1 flag progress ++ attemptByte (s.wakeOf n).attempt ++
    optional 1 failureByte (Attempt.reason (s.wakeOf n).attempt)

/-- A wake trigger for Cn reaches the controller (R167). -/
def wakeTrigger (n : Comp) (s : State) : Judged :=
  if (s.port n).bus = .active then okayWith (wakeReply (some false) n s) s
  else if Attempt.inFlight (s.wakeOf n).attempt then okayWith (wakeReply (some true) n s) s
  else
    let s1 := startAttempt n s
    ⟨.accepted, wakeReply none n s1, s1⟩

/-- An auto-wake trigger for Cn: dropped when its auto-wake flag is off (R166). -/
def autoWake (n : Comp) (s : State) : State := if (s.comp n).autoWake then (wakeTrigger n s).state else s

/-- The state that follows BUS_SIGNAL by the attempt's method (R168, R170). -/
def afterSignal (f : Flight) : Attempt :=
  match f.method with
  | .both => .wait f .busStage (f.start + Config.busStage)
  | _ => .wait f .final f.deadline

/-- The port has entered ACTIVE: an attempt in flight succeeds, and FAILED is discarded (R171). -/
def wakeActive (n : Comp) (s : State) : State := setAttempt n .none (endPulse n s)

/-- A bus reset during an attempt: signalling stops and nothing else changes (R173). -/
def wakeBusReset (n : Comp) (s : State) : State :=
  match (s.wakeOf n).attempt with
  | .busSignal f _ => setAttempt n (afterSignal f) s
  | _ => s

/-- A detach during an attempt: signalling stops, and a BOTH attempt looks for its line at once (R173). -/
def wakeDetach (n : Comp) (s : State) : State :=
  match (s.wakeOf n).attempt with
  | .busSignal f _ =>
    match f.method with
    | .both => pulseDue n f .pulse s
    | _ => setAttempt n (.wait f .final f.deadline) s
  | .wait f .busStage _ => pulseDue n f .pulse s
  | _ => s

/-- The line controller reports a change of a line that may be a pulse line: an attempt in PULSE on it fails with
NO_LINE (R174). -/
def pulseLineChanged (l : LineId) (s : State) (n : Comp) : State :=
  if Attempt.pulseLine (s.wakeOf n).attempt = some l then failWake n .noLine s else s

/-- A power sense level or the loss of the sense line reaches Cn's powered flag (R176). A flag that holds the value
already is left, without a notice, also at the loss of the line (DESIGN CHOICE, notes/assumptions/42.md). -/
def setPowered (n : Comp) (p : Powered) (s : State) : State :=
  if (s.wakeOf n).powered = p then s else notifyPower n .powerSense (s.modWake n fun w => { w with powered := p })

/-! ### Requests -/

def judgeWake (body : List Byte) (s : State) : Judged :=
  match body with
  | [b0] =>
    match compOf b0 with
    | some n => wakeTrigger n s
    | none => refuse .badArg s
  | _ => refuse .badLength s

/-- The stage end of an attempt in flight. -/
def Attempt.stageEnd : Attempt → Option Nat
  | .busSignal _ e | .pulse _ _ e | .wait _ _ e => some e
  | .none | .failed _ => Option.none

/-- The wait kind of an attempt in WAIT. -/
def Attempt.waitKind : Attempt → Option WaitKind
  | .wait _ k _ => some k
  | _ => Option.none

/-- The reply of GET_POWER (R177). Once a stage end or the deadline has passed, the time remaining to it is 0 (DESIGN
CHOICE, notes/assumptions/39.md). -/
def powerReply (n : Comp) (s : State) : List Byte :=
  let p := s.port n
  let c := s.comp n
  let a := (s.wakeOf n).attempt
  let f := Attempt.flight a
  busByte p.bus ++ flag p.remoteWake ++
    flag c.autoWake ++ methodByte c.method ++ byte2 c.wakeTimeout ++ byte2 c.pulseWidth ++
    attemptByte a ++ optional 1 methodByte (f.map Flight.method) ++
    optional 4 timeBytes (f.map fun f => s.now - f.start) ++ optional 1 waitKindByte (Attempt.waitKind a) ++
    optional 1 (fun l : LineId => byte1 l.val) (Attempt.pulseLine a) ++
    optional 4 timeBytes ((Attempt.stageEnd a).map (· - s.now)) ++
    optional 4 timeBytes (f.map fun f => f.deadline - s.now) ++
    optional 1 failureByte (Attempt.reason a) ++
    optional 1 (fun l : LineId => byte1 l.val) (wakeLine s n) ++
    poweredBytes (s.wakeOf n).powered ++ optional 1 (fun l : LineId => byte1 l.val) (senseLine s n)

def judgeGetPower (body : List Byte) (s : State) : Judged :=
  match body with
  | [b0] =>
    match compOf b0 with
    | some n => okayWith (powerReply n s) s
    | none => refuse .badArg s
  | _ => refuse .badLength s

/-! ### The meanings -/

/-- WAKE (R167). -/
def execWake (tag : Byte) (body : List Byte) (s : State) : Host.Outcome State Fault Refusal :=
  done (runRequest ⟨0x60, tag, body⟩ judgeWake s)

/-- GET_POWER (R177). -/
def execGetPower (tag : Byte) (body : List Byte) (s : State) : Host.Outcome State Fault Refusal :=
  done (runRequest ⟨0x61, tag, body⟩ judgeGetPower s)

/-- WAKE_SIGNAL_END (R168): the stage end of BUS_SIGNAL. -/
def execWakeSignalEnd (n : Comp) (s : State) : Host.Outcome State Fault Refusal :=
  done (match (s.wakeOf n).attempt with
    | .busSignal f e => setAttempt n (afterSignal f) (reach e s)
    | _ => s)

/-- WAKE_BUS_STAGE_END (R170): the stage end of WAIT (BUS_STAGE). -/
def execWakeBusStageEnd (n : Comp) (s : State) : Host.Outcome State Fault Refusal :=
  done (match (s.wakeOf n).attempt with
    | .wait f .busStage e => pulseDue n f .pulse (reach e s)
    | _ => s)

/-- The end of a pulse, before the deadline or at or after it (R169, step 2). -/
def pulseEnd (n : Comp) (f : Flight) (l : LineId) (s : State) : State :=
  if s.now < f.deadline then setAttempt n (.wait f .final f.deadline) (setPulse l false s) else failWake n .timeout s

/-- WAKE_PULSE_END (R169): the stage end of PULSE. -/
def execWakePulseEnd (n : Comp) (s : State) : Host.Outcome State Fault Refusal :=
  done (match (s.wakeOf n).attempt with
    | .pulse f l e => pulseEnd n f l (reach e s)
    | _ => s)

/-- WAKE_DEADLINE (R172): the deadline in the final WAIT. -/
def execWakeDeadline (n : Comp) (s : State) : Host.Outcome State Fault Refusal :=
  done (match (s.wakeOf n).attempt with
    | .wait f .final _ => failWake n .timeout (reach f.deadline s)
    | _ => s)

end Sys2Proof.Machine
end

