-- ==== Sys2Proof/Machine/Links.lean ====
section
/-!
DEFINITION. Chapter 8, the desk links: entering and leaving the sessions (R131 to R134), the link going DOWN and UP
(R137, R138), ALIVE and its reconciliation (R140, R141), the frames of both sides with remote input (R162, R163), the
receiver (R136), the requests, and the meanings of the chapter's commands.
-/

namespace Sys2Proof.Machine

open Sys2Proof

/-! ### The outbound session -/

def setOutbound (k : LinkId) (v : Outbound) (s : State) : State := s.modLink k fun l => { l with outbound := v }
def setInbound (k : LinkId) (v : Inbound) (s : State) : State := s.modLink k fun l => { l with inbound := v }

/-- The frame that a cause calls for, if it calls for one. -/
def sendIf (k : LinkId) (f : Option LinkMsg) (s : State) : State :=
  match f with
  | some m => sendFrame k m s
  | none => s

/-- The notice of a session change; a warm reset produces none (R148). -/
def notifyIf (f : Option SupFrame) (s : State) : State :=
  match f with
  | some f => notify .share f s
  | none => s

/-- The outbound session of DLk enters ACTIVE on a head (R131). -/
def outActivate (k : LinkId) (h : Head) (viewOnly : Bool) (c : ShareCause) (s : State) : State :=
  let s1 := setOutbound k (.active h viewOnly) s
  let s2 := takeTarget (laneOut k) (some (.head h)) s1
  let s3 := sendFrame k (.mode (sentMode s2 h) (effMode s2 h.comp)) s2
  notify .share (shareOutNotice k (.active h viewOnly) h viewOnly c) s3

/-- The outbound session of DLk leaves OFFERED or ACTIVE (R132), sending the frame its cause calls for. Without a
cause it takes steps 1 to 3 alone, as a warm reset does. -/
def outEnd (k : LinkId) (frame : Option LinkMsg) (c : Option ShareCause) (s : State) : State :=
  match (s.link k).outbound with
  | .none => s
  | .offered h v _ =>
    let s3 := takeTarget (laneOut k) none (setOutbound k .none s)
    notifyIf (c.map (shareOutNotice k .none h v)) (sendIf k frame s3)
  | .active h v =>
    let s2 := endControl k .sessionEnd (setOutbound k .none s)
    let s3 := takeTarget (laneOut k) none s2
    notifyIf (c.map (shareOutNotice k .none h v)) (sendIf k frame s3)

/-! ### The inbound session -/

/-- The inbound session of DLk enters ACTIVE by ACCEPT_SHARE (R133). -/
def inActivate (k : LinkId) (o : Offer) (s : State) : State :=
  let s1 := setInbound k (.active o) s
  let s2 := sendFrame k .accept s1
  let s3 := changeInput (.lane k) (laneState o.mode) s2
  notify .share (shareInNotice k (.active o) o .accepted) s3

/-- The target that an output in BLANKING switches to. -/
def OutputState.switchTarget : OutputState → Option Target
  | .blanking t _ => some t
  | _ => none

/-- Whether a monitor concerns an inbound lane: by its assignment, its switch target or its pending slot (R134). -/
def usesLane (k : LinkId) (o : Output) : Bool :=
  o.assignment == some (.lane k) || OutputState.switchTarget o.state == some (some (.lane k)) ||
    o.pendingSlot == some (some (.lane k))

/-- DARK is handed to a monitor that concerns an inbound lane (R134, step 4). -/
def darkenLane (k : LinkId) (s : State) (m : Monitor) : State :=
  if usesLane k (s.out (monitorOut m)) then takeTarget (monitorOut m) none s else s

/-- The inbound session of DLk leaves OFFERED_IN or ACTIVE (R134). Without a cause it takes steps 1 to 5 alone, as
a warm reset does. -/
def inEnd (k : LinkId) (frame : Option LinkMsg) (c : Option ShareCause) (s : State) : State :=
  match (s.link k).inbound with
  | .none => s
  | .offeredIn o _ =>
    notifyIf (c.map (shareInNotice k .none o)) (sendIf k frame (setInbound k .none s))
  | .active o =>
    let s1 := setInbound k .none s
    let s2 := match c with
      | some _ => setViewer k .none .sessionEnd s1
      | none => rederive s1 (clearCaptureOn k (s1.modLink k fun l => { l with viewer := .none }))
    let s3 := changeInput (.lane k) .absent s2
    let s4 := allMonitors.foldl (darkenLane k) s3
    let s5 := sessionFocusEnd k s4
    notifyIf (c.map (shareInNotice k .none o)) (sendIf k frame s5)
where
  /-- Capture on Nk ends with the viewer control (R28). -/
  clearCaptureOn (k : LinkId) (s : State) : State := if s.focus.target = .rem k then clearCapture s else s

/-! ### The link -/

/-- A link goes DOWN (R138). The frames that wait in its send queue stay there (DESIGN CHOICE,
notes/assumptions/41.md). -/
def linkDown (k : LinkId) (c : LinkCause) (s : State) : State :=
  let s1 := s.modLink k fun l => { l with up := false, peerZones := 0 }
  let s2 := outEnd k none (some .linkDown) s1
  let s3 := inEnd k none (some .linkDown) s2
  let s4 := endControl k .linkDown s3
  notify .link (linkNotice k false c none) s4

/-- The link sends an ALIVE, and its next one is due 100 ms later (R140). -/
def sendAlive (k : LinkId) (s : State) : State :=
  (sendFrame k (.alive (aliveOf s k)) s).modLink k fun l => { l with nextAlive := s.now + Config.alivePeriod }

/-! ### Reconciliation, row by row (R141) -/

def row1 (k : LinkId) (a : Alive) (s : State) : State :=
  match (s.link k).inbound, a.outbound with
  | .active _, .none => inEnd k none (some .peerEnded) s
  | _, _ => s

def row2 (k : LinkId) (a : Alive) (s : State) : State :=
  match (s.link k).inbound, a.outbound with
  | .offeredIn _ _, .none => inEnd k none (some .peerEnded) s
  | _, _ => s

def row3 (k : LinkId) (a : Alive) (s : State) : State :=
  match (s.link k).inbound, a.outbound with
  | .none, .active => sendFrame k (.endSession .viewer .peerEnded) s
  | _, _ => s

def row4 (k : LinkId) (a : Alive) (s : State) : State :=
  if (s.link k).viewer = .held ∧ a.controlToYou = false then setViewer k .none .reconciled s else s

def row5 (k : LinkId) (a : Alive) (s : State) : State :=
  if (s.link k).viewer = .requested ∧ a.controlToYou = true then setViewer k .held .reconciled s else s

def row6 (k : LinkId) (a : Alive) (s : State) : State :=
  if (s.link k).viewer = .none ∧ a.controlToYou = true then sendFrame k .release s else s

def row7 (k : LinkId) (a : Alive) (s : State) : State :=
  match (s.link k).outbound, a.inbound with
  | .offered h v _, .active => outActivate k h v .peerActive s
  | _, _ => s

def row8 (k : LinkId) (a : Alive) (s : State) : State :=
  match (s.link k).outbound, a.inbound with
  | .active _ _, .none => outEnd k none (some .peerEnded) s
  | _, _ => s

def row9 (k : LinkId) (a : Alive) (s : State) : State :=
  match Outbound.activeHead (s.link k).outbound with
  | some h =>
    if (s.control h.comp).holder = .link k ∧ a.viewer = .none then returnToDesk h.comp k .reconciled s else s
  | none => s

/-- The nine rows in order, each judged against the state that the rows before it have left. -/
def reconcile (k : LinkId) (a : Alive) (s : State) : State :=
  row9 k a (row8 k a (row7 k a (row6 k a (row5 k a (row4 k a (row3 k a (row2 k a (row1 k a s))))))))

/-- What an ALIVE writes in the link's record (R140, step 2). -/
def learnPeer (a : Alive) (l : Link) : Link :=
  { l with
    up := true
    peerZones := a.zones
    peerOutbound := some a.outbound
    peerControlToYou := some a.controlToYou
    peerInbound := some a.inbound
    peerViewer := some a.viewer }

/-- An ALIVE is taken on an enabled link (R137, R140). -/
def takeAlive (k : LinkId) (a : Alive) (s : State) : State :=
  let s1 := reconcile k a (s.modLink k (learnPeer a))
  if (s.link k).up then s1 else notify .link (linkNotice k true .aliveReceived (some a.zones)) s1

/-! ### Frames of the sessions -/

/-- An OFFER is taken (R130). The SHARE notice of one refused with BUSY carries the refused offer's fields beside the
state of the session that stands (DESIGN CHOICE, notes/assumptions/38.md). -/
def takeOffer (k : LinkId) (o : Offer) (s : State) : State :=
  match (s.link k).inbound with
  | .none =>
    if s.desk.zones.getLsbD o.zone.val then
      notify .share (shareInNotice k (.offeredIn o s.now) o .offerReceived) (setInbound k (.offeredIn o s.now) s)
    else
      notify .share (shareInNotice k .none o (.offerRefused .zone)) (sendFrame k (.decline .zone) s)
  | st => notify .share (shareInNotice k st o (.offerRefused .busy)) (sendFrame k (.decline .busy) s)

/-- An ACCEPT is taken (R129, R131). -/
def takeAccept (k : LinkId) (s : State) : State :=
  match (s.link k).outbound with
  | .offered h v _ => outActivate k h v .accepted s
  | _ => discardFrame k s

/-- A DECLINE is taken (R129). -/
def takeDecline (k : LinkId) (r : DeclineReason) (s : State) : State :=
  match (s.link k).outbound with
  | .none => discardFrame k s
  | _ => outEnd k none (some (.declined r)) s

/-- An END is taken: marked OWNER it addresses the inbound session, marked VIEWER the outbound one (R130). -/
def takeEnd (k : LinkId) (side : EndSide) (r : EndReason) (s : State) : State :=
  match side with
  | .owner =>
    match (s.link k).inbound with
    | .none => discardFrame k s
    | _ => inEnd k none (some (.endReceived r)) s
  | .viewer =>
    match (s.link k).outbound with
    | .none => discardFrame k s
    | _ => outEnd k none (some (.endReceived r)) s

/-- A MODE is taken (R146). -/
def takeMode (k : LinkId) (m : Mode) (p : PointerMode) (s : State) : State :=
  match (s.link k).inbound with
  | .none => discardFrame k s
  | .offeredIn o t => setInbound k (.offeredIn { o with mode := m, pointerMode := p } t) s
  | .active o =>
    let s1 := changeInput (.lane k) (laneState m) (setInbound k (.active { o with mode := m, pointerMode := p }) s)
    if p = .absolute ∧ s1.focus.target = .rem k then clearCapture s1 else s1

/-- A GRANT is taken (R161). -/
def takeGrant (k : LinkId) (s : State) : State :=
  match (s.link k).viewer with
  | .none => sendFrame k .release s
  | .requested => setViewer k .held .granted s
  | .held => s

/-- A DENY is taken (R161). -/
def takeDeny (k : LinkId) (r : DenyReason) (s : State) : State :=
  match (s.link k).viewer with
  | .requested => setViewer k .none (.denied r) s
  | _ => discardFrame k s

/-- A REVOKE is taken (R161). -/
def takeRevoke (k : LinkId) (s : State) : State :=
  match (s.link k).viewer with
  | .held => setViewer k .none .revoked s
  | _ => discardFrame k s

/-! ### Remote input at the owner -/

/-- The head that DLk drives: that of its ACTIVE outbound session, when DLk is the holder of the computer (R162). -/
def drivenHead (s : State) (k : LinkId) : Option Head :=
  match Outbound.activeHead (s.link k).outbound with
  | some h => if (s.control h.comp).holder = .link k then some h else none
  | none => none

/-- Whether a key state holds a modifier or a code that another lacks. -/
def pressesKey (new old : KeyState) : Bool :=
  new.mods &&& ~~~old.mods != 0 || new.keys.any fun c => !old.keys.contains c

/-- A press for a SUSPENDED computer is an auto-wake trigger (R166). -/
def wakeIfSuspended (n : Comp) (press : Bool) (s : State) : State :=
  if press && (s.port n).bus == .suspended then autoWake n s else s

/-- A KEYS frame is taken (R162). Its record is handed to the port before its press can wake the computer (R166). -/
def takeKeys (k : LinkId) (ks : KeyState) (s : State) : State :=
  match drivenHead s k with
  | some h =>
    let s1 := s.modControl h.comp fun c => { c with remoteKeys := ks }
    wakeIfSuspended h.comp (pressesKey ks (s.control h.comp).remoteKeys) (deliverKeys .table h.comp ks s1)
  | none => discardFrame k s

/-- A POINTER frame is taken (R163). -/
def takePointer (k : LinkId) (f : PointerFrame) (s : State) : State :=
  match drivenHead s k with
  | some h =>
    let s1 := s.modControl h.comp fun c => { c with remoteButtons := PointerFrame.buttons f }
    wakeIfSuspended h.comp (PointerFrame.buttons f &&& ~~~(s.control h.comp).remoteButtons != 0) (deliverRemote h f s1)
  | none => discardFrame k s

/-! ### The receiver -/

/-- A valid frame is handed to the unit its kind addresses (R136). -/
def dispatchFrame (k : LinkId) (m : LinkMsg) (s : State) : State :=
  match m with
  | .alive a => takeAlive k a s
  | .offer o => takeOffer k o s
  | .accept => takeAccept k s
  | .decline r => takeDecline k r s
  | .endSession d r => takeEnd k d r s
  | .mode m p => takeMode k m p s
  | .claim kind => takeClaim k kind s
  | .grant => takeGrant k s
  | .deny r => takeDeny k r s
  | .release => takeRelease k s
  | .revoke => takeRevoke k s
  | .keys ks => takeKeys k ks s
  | .pointer f => takePointer k f s

/-- Whether a frame is an ALIVE. -/
def LinkMsg.isAlive : LinkMsg → Bool
  | .alive _ => true
  | _ => false

/-- A malformed frame is counted (R136). -/
def malformed (k : LinkId) (s : State) : State :=
  s.modLink k fun l => { l with counters := { l.counters with malformed := count l.counters.malformed } }

/-- A frame whose CRC fails is counted (R136). -/
def crcFailed (k : LinkId) (s : State) : State :=
  s.modLink k fun l => { l with counters := { l.counters with crcErrors := count l.counters.crcErrors } }

/-- A valid frame is counted as received. -/
def received (k : LinkId) (s : State) : State :=
  s.modLink k fun l => { l with counters := { l.counters with received := count l.counters.received } }

/-- The last valid frame time is written. -/
def stamp (k : LinkId) (s : State) : State := s.modLink k fun l => { l with lastValid := some s.now }

/-- A valid frame (R136). A disabled link discards it, and it restarts no time (R139). A DOWN link discards it
unless it is an ALIVE. -/
def frameIn (k : LinkId) (m : LinkMsg) (s : State) : State :=
  if !(s.link k).enabled then discardFrame k (received k s)
  else if !(s.link k).up && !LinkMsg.isAlive m then discardFrame k (stamp k (received k s))
  else dispatchFrame k m (stamp k (received k s))

/-- A frame arrives whole, and the receiver is left hunting. One with a field out of range is malformed (R136). -/
def wholeFrame (k : LinkId) (m : LinkMsg) (s : State) : State :=
  let s1 := s.modLink k fun l => { l with receiver := [] }
  if LinkMsg.sendable m then frameIn k m s1 else malformed k s1

/-- The receiver reads bytes from its hunting state (R136): it answers the state after every frame it finds, and it
holds the bytes of a frame in progress. `fuel` bounds the number of bytes read. -/
def scanLink (k : LinkId) : Nat → List Byte → State → State
  | 0, _, s => s
  | _ + 1, [], s => s.modLink k fun l => { l with receiver := [] }
  | fuel + 1, b :: rest, s =>
    if b ≠ 0x3C then scanLink k fuel rest s
    else
      match rest with
      | kind :: len :: more =>
        if 64 < len.toNat then scanLink k fuel rest (malformed k s)
        else if more.length < len.toNat + 2 then s.modLink k fun l => { l with receiver := b :: rest }
        else
          let body := more.take len.toNat
          let after := more.drop (len.toNat + 2)
          if crcBytes (crc16 (kind :: len :: body)) ≠ (more.drop len.toNat).take 2 then
            scanLink k fuel rest (crcFailed k s)
          else
            match LinkMsg.parse kind body with
            | some m => scanLink k fuel after (frameIn k m s)
            | none => scanLink k fuel after (malformed k s)
      | _ => s.modLink k fun l => { l with receiver := b :: rest }

/-- Bytes arrive on a link behind those of the frame in progress. -/
def linkBytes (k : LinkId) (bs : List Byte) (s : State) : State :=
  let work := (s.link k).receiver ++ bs
  scanLink k (work.length + 1) work s

/-- The frame being sent has left: it is counted, and the oldest waiting frame follows (R135, R136). -/
def linkSent (l : Link) : Link :=
  match l.sending with
  | none => l
  | some _ =>
    { l with
      sending := l.sendQueue.head?
      sendQueue := l.sendQueue.tail
      counters := { l.counters with sent := count l.counters.sent } }

/-! ### Requests -/

/-- SET_LINK on a link and a flag (R139). The frames that wait in the send queue stay there and are still sent (DESIGN
CHOICE, notes/assumptions/41.md). -/
def setLink (k : LinkId) (on : Bool) (s : State) : State :=
  if (s.link k).enabled = on then s
  else
    let s1 := s.modLink k fun l => { l with enabled := on }
    if on then sendAlive k s1
    else if (s.link k).up then linkDown k .disabled s1
    else s1

def judgeSetLink (body : List Byte) (s : State) : Judged :=
  match body with
  | [b0, b1] =>
    match linkOf b0, flagOf b1 with
    | some k, some on => okay (setLink k on s)
    | _, _ => refuse .badArg s
  | _ => refuse .badLength s

/-- The time left to an offer timeout. -/
def offerLeft (s : State) (t : Nat) : Nat := t + Config.offerTimeout - s.now

/-- The offer time of an outbound session. -/
def Outbound.offerTime : Outbound → Option Nat
  | .offered _ _ t => some t
  | _ => Option.none

/-- The offer time of an inbound session. -/
def Inbound.offerTime : Inbound → Option Nat
  | .offeredIn _ t => some t
  | _ => Option.none

/-- The offer that an inbound session keeps. -/
def Inbound.offer : Inbound → Option Offer
  | .none => Option.none
  | .offeredIn o _ => some o
  | .active o => some o

/-- The six counts of a link (R136). -/
def linkCountBytes (c : LinkCounters) : List Byte :=
  byte4 c.sent ++ byte4 c.received ++ byte4 c.crcErrors ++ byte4 c.malformed ++ byte4 c.discarded ++ byte4 c.sendOverflow

/-- The reply of GET_LINK (R149). Each field of a session has its own presence byte (R197, notes/assumptions/8.md). The
peer zone set is its one set byte, 0 when empty, without a presence byte (DESIGN CHOICE,
notes/assumptions/19.md). -/
def linkReply (k : LinkId) (s : State) : List Byte :=
  let l := s.link k
  flag l.enabled ++ flag l.up ++ optional 4 timeBytes (l.lastValid.map (s.now - ·)) ++
    zoneSetByte l.peerZones ++ optional 1 outboundSummaryByte l.peerOutbound ++ optional 1 flag l.peerControlToYou ++
    optional 1 inboundSummaryByte l.peerInbound ++ optional 1 viewerByte l.peerViewer ++
    outboundByte l.outbound ++
    optional 2 headBytes ((Outbound.share l.outbound).map Prod.fst) ++
    optional 1 flag ((Outbound.share l.outbound).map Prod.snd) ++
    optional 4 timeBytes ((Outbound.offerTime l.outbound).map (offerLeft s)) ++
    inboundByte l.inbound ++
    optional 2 headBytes ((Inbound.offer l.inbound).map Offer.head) ++
    optional 6 modeBytes ((Inbound.offer l.inbound).map Offer.mode) ++
    optional 1 pointerModeByte ((Inbound.offer l.inbound).map Offer.pointerMode) ++
    optional 1 (fun z : Zone => byte1 z.val) ((Inbound.offer l.inbound).map Offer.zone) ++
    optional 4 timeBytes ((Inbound.offerTime l.inbound).map (offerLeft s)) ++
    viewerByte l.viewer ++ linkCountBytes l.counters

def judgeGetLink (body : List Byte) (s : State) : Judged :=
  match body with
  | [b0] =>
    match linkOf b0 with
    | some k => okayWith (linkReply k s) s
    | none => refuse .badArg s
  | _ => refuse .badLength s

/-- OFFER_SHARE on a link, a head and the allow-control flag, judged in the order of R142. -/
def offerShare (k : LinkId) (h : Head) (allow : Bool) (s : State) : Judged :=
  let c := s.comp h.comp
  if !(s.link k).up then refuse .linkDown s
  else if (s.link k).outbound ≠ .none then refuse .wrongState s
  else if !(s.headMap h).enabled then refuse .badArg s
  else if c.policy = .noShare then refuse .wrongState s
  else if !(s.link k).peerZones.getLsbD c.zone.val then refuse .zone s
  else
    let viewOnly := c.policy == .viewOnly || !allow
    let s1 := setOutbound k (.offered h viewOnly s.now) s
    let s2 := sendFrame k (.offer ⟨h, sentMode s h, effMode s h.comp, c.zone⟩) s1
    accepted (notify .share (shareOutNotice k (.offered h viewOnly s.now) h viewOnly .offered) s2)

def judgeOfferShare (body : List Byte) (s : State) : Judged :=
  match body with
  | [b0, b1, b2, b3] =>
    match linkOf b0, compOf b1, letterOf b2, flagOf b3 with
    | some k, some n, some l, some allow => offerShare k ⟨n, l⟩ allow s
    | _, _, _, _ => refuse .badArg s
  | _ => refuse .badLength s

/-- ACCEPT_SHARE on a link (R143). -/
def acceptShare (k : LinkId) (s : State) : Judged :=
  if !(s.link k).up then refuse .linkDown s
  else
    match (s.link k).inbound with
    | .offeredIn o _ => okay (inActivate k o s)
    | _ => refuse .wrongState s

def judgeAcceptShare (body : List Byte) (s : State) : Judged :=
  match body with
  | [b0] =>
    match linkOf b0 with
    | some k => acceptShare k s
    | none => refuse .badArg s
  | _ => refuse .badLength s

/-- DECLINE_SHARE on a link (R143). -/
def declineShare (k : LinkId) (s : State) : Judged :=
  if !(s.link k).up then refuse .linkDown s
  else
    match (s.link k).inbound with
    | .offeredIn _ _ => okay (inEnd k (some (.decline .user)) (some (.declined .user)) s)
    | _ => refuse .wrongState s

def judgeDeclineShare (body : List Byte) (s : State) : Judged :=
  match body with
  | [b0] =>
    match linkOf b0 with
    | some k => declineShare k s
    | none => refuse .badArg s
  | _ => refuse .badLength s

/-- END_SHARE on a link, outbound or inbound (R144). -/
def endShare (k : LinkId) (inbound : Bool) (s : State) : Judged :=
  if inbound then
    match (s.link k).inbound with
    | .active _ => okay (inEnd k (some (.endSession .viewer .user)) (some .ended) s)
    | _ => refuse .wrongState s
  else
    match (s.link k).outbound with
    | .none => refuse .wrongState s
    | _ => okay (outEnd k (some (.endSession .owner .user)) (some .ended) s)

def judgeEndShare (body : List Byte) (s : State) : Judged :=
  match body with
  | [b0, b1] =>
    match linkOf b0, flagOf b1 with
    | some k, some side => endShare k side s
    | _, _ => refuse .badArg s
  | _ => refuse .badLength s

/-! ### The meanings -/

/-- SET_LINK (R139). -/
def execSetLink (tag : Byte) (body : List Byte) (s : State) : Host.Outcome State Fault Refusal :=
  done (runRequest ⟨0x50, tag, body⟩ judgeSetLink s)

/-- GET_LINK (R149). -/
def execGetLink (tag : Byte) (body : List Byte) (s : State) : Host.Outcome State Fault Refusal :=
  done (runRequest ⟨0x51, tag, body⟩ judgeGetLink s)

/-- OFFER_SHARE (R142). -/
def execOfferShare (tag : Byte) (body : List Byte) (s : State) : Host.Outcome State Fault Refusal :=
  done (runRequest ⟨0x52, tag, body⟩ judgeOfferShare s)

/-- ACCEPT_SHARE (R143). -/
def execAcceptShare (tag : Byte) (body : List Byte) (s : State) : Host.Outcome State Fault Refusal :=
  done (runRequest ⟨0x53, tag, body⟩ judgeAcceptShare s)

/-- DECLINE_SHARE (R143). -/
def execDeclineShare (tag : Byte) (body : List Byte) (s : State) : Host.Outcome State Fault Refusal :=
  done (runRequest ⟨0x54, tag, body⟩ judgeDeclineShare s)

/-- END_SHARE (R144). -/
def execEndShare (tag : Byte) (body : List Byte) (s : State) : Host.Outcome State Fault Refusal :=
  done (runRequest ⟨0x55, tag, body⟩ judgeEndShare s)

/-- ALIVE_TIMER (R140): an enabled link's ALIVE is due. -/
def execAliveTimer (k : LinkId) (s : State) : Host.Outcome State Fault Refusal :=
  done (if (s.link k).enabled then sendAlive k (reach (s.link k).nextAlive s) else s)

/-- When the silence of an UP link reaches 500 ms (R137). -/
def silenceTime (s : State) (k : LinkId) : Option Nat :=
  if (s.link k).enabled && (s.link k).up then (s.link k).lastValid.map (· + Config.linkSilence) else none

/-- LINK_SILENCE (R137): 500 ms have passed on an UP link without a valid frame. -/
def execLinkSilence (k : LinkId) (s : State) : Host.Outcome State Fault Refusal :=
  done (match silenceTime s k with
    | some t => linkDown k .silence (reach t s)
    | none => s)

/-- OUTBOUND_OFFER_TIMEOUT (R129): 15000 ms after the offer time of OFFERED. -/
def execOutboundOfferTimeout (k : LinkId) (s : State) : Host.Outcome State Fault Refusal :=
  done (match (s.link k).outbound with
    | .offered _ _ t => outEnd k (some (.endSession .owner .timeout)) (some .timeout) (reach (t + Config.offerTimeout) s)
    | _ => s)

/-- INBOUND_OFFER_TIMEOUT (R130): 15000 ms after the offer time of OFFERED_IN. -/
def execInboundOfferTimeout (k : LinkId) (s : State) : Host.Outcome State Fault Refusal :=
  done (match (s.link k).inbound with
    | .offeredIn _ t => inEnd k (some (.decline .timeout)) (some .timeout) (reach (t + Config.offerTimeout) s)
    | _ => s)

/-- LINK_FRAME_DAMAGED (R136). -/
def execLinkFrameDamaged (k : LinkId) (bs : List Byte) (s : State) : Host.Outcome State Fault Refusal :=
  done (linkBytes k bs s)

/-- ALIVE (R140, R141). -/
def execAlive (k : LinkId) (a : Alive) (s : State) : Host.Outcome State Fault Refusal :=
  done (wholeFrame k (.alive a) s)

/-- OFFER (R130). -/
def execOffer (k : LinkId) (o : Offer) (s : State) : Host.Outcome State Fault Refusal :=
  done (wholeFrame k (.offer o) s)

/-- ACCEPT (R131). -/
def execAccept (k : LinkId) (s : State) : Host.Outcome State Fault Refusal := done (wholeFrame k .accept s)

/-- DECLINE (R132). -/
def execDecline (k : LinkId) (r : DeclineReason) (s : State) : Host.Outcome State Fault Refusal :=
  done (wholeFrame k (.decline r) s)

/-- END (R130, R134). -/
def execEndSession (k : LinkId) (d : EndSide) (r : EndReason) (s : State) : Host.Outcome State Fault Refusal :=
  done (wholeFrame k (.endSession d r) s)

/-- MODE (R146). -/
def execMode (k : LinkId) (m : Mode) (p : PointerMode) (s : State) : Host.Outcome State Fault Refusal :=
  done (wholeFrame k (.mode m p) s)

/-- CLAIM (R154). -/
def execClaim (k : LinkId) (kind : ClaimKind) (s : State) : Host.Outcome State Fault Refusal :=
  done (wholeFrame k (.claim kind) s)

/-- GRANT (R161). -/
def execGrant (k : LinkId) (s : State) : Host.Outcome State Fault Refusal := done (wholeFrame k .grant s)

/-- DENY (R161). -/
def execDeny (k : LinkId) (r : DenyReason) (s : State) : Host.Outcome State Fault Refusal :=
  done (wholeFrame k (.deny r) s)

/-- RELEASE (R158). -/
def execRelease (k : LinkId) (s : State) : Host.Outcome State Fault Refusal := done (wholeFrame k .release s)

/-- REVOKE (R161). -/
def execRevoke (k : LinkId) (s : State) : Host.Outcome State Fault Refusal := done (wholeFrame k .revoke s)

/-- KEYS (R162). -/
def execKeys (k : LinkId) (ks : KeyState) (s : State) : Host.Outcome State Fault Refusal :=
  done (wholeFrame k (.keys ks) s)

/-- POINTER (R163). -/
def execPointer (k : LinkId) (f : PointerFrame) (s : State) : Host.Outcome State Fault Refusal :=
  done (wholeFrame k (.pointer f) s)

/-- LINK_SEND_DONE (R135): the frame being sent has left the link. -/
def execLinkSendDone (k : LinkId) (s : State) : Host.Outcome State Fault Refusal := done (s.modLink k linkSent)

end Sys2Proof.Machine
end

