-- ==== Sys2Proof/Machine/Privacy.lean ====
section
/-!
DEFINITION. Chapter 7, the privacy blank unit: engaging (R120 to R122), releasing and recovering (R123, R124),
resuming (R125, R126), the settings (R127), and the meanings of the chapter's commands.
-/

namespace Sys2Proof.Machine

open Sys2Proof

/-- The unit's state is written, with its BLANK notice (R128). -/
def setBlankState (st : BlankState) (c : BlankCause) (s : State) : State :=
  let s1 := s.modBlank fun u => { u with state := st }
  notify .blank (blankNotice s1.blank c) s1

/-- The unit leaves CLEAR for ENGAGED (R122): the state and sources are written, the router takes the steps of R44,
and a BLANK notice follows. The monitors present black from the first step on (R112). -/
def leaveClear (src : Sources) (c : BlankCause) (s : State) : State :=
  let s1 := s.modBlank fun u => { u with state := .engaged src }
  let s2 := focusBlank s s1
  notify .blank (blankNotice s2.blank c) s2

/-- The unit goes to CLEAR (R126). The recipients are derived afresh at the next event; nothing is masked, and no
record is formed. -/
def goClear (c : BlankCause) (s : State) : State := setBlankState .clear c s

/-- A set of sources with one more. -/
def Sources.join (a b : Sources) : Sources := ⟨a.line || b.line, a.hotkey || b.hotkey, a.request || b.request⟩

/-- A source reaches the unit (R120, R121). -/
def engageBy (src : Sources) (c : BlankCause) (s : State) : State :=
  match s.blank.state with
  | .clear => leaveClear src c s
  | .engaged old => if Sources.join old src = old then s else setBlankState (.engaged (Sources.join old src)) c s
  | .recovering _ => setBlankState (.engaged src) c s

/-- A blank line becomes asserted (R120). -/
def assertLine (l : LineId) (s : State) : State :=
  let s1 := if s.blank.asserted.contains l then s else s.modBlank fun u => { u with asserted := u.asserted ++ [l] }
  engageBy ⟨true, false, false⟩ .lineAsserted s1

/-- The asserted blank lines set has become empty: LINE leaves the source set (R123). -/
def linesReleased (s : State) : State :=
  match s.blank.state with
  | .engaged src =>
    if src.hotkey || src.request || !s.blank.autoRecover then
      setBlankState (.engaged ⟨false, src.hotkey, src.request⟩) .lineReleased s
    else if s.blank.holdTime = 0 then goClear .lineReleased s
    else setBlankState (.recovering (s.now + s.blank.holdTime)) .lineReleased s
  | _ => s

/-- A blank line stops being asserted or leaves its role (R123). -/
def releaseLine (l : LineId) (s : State) : State :=
  if s.blank.asserted.contains l then
    let s1 := s.modBlank fun u => { u with asserted := u.asserted.filter (· != l) }
    if s1.blank.asserted.isEmpty then linesReleased s1 else s1
  else s

/-- Whether a resume is refused because a blank line is asserted (R125). -/
def lineHeld (s : State) : Bool := !s.blank.asserted.isEmpty

/-- The effect of a resume (R125, step 3). -/
def resumeEffect (s : State) : State :=
  match s.blank.state with
  | .clear => s
  | _ => goClear .resume s

/-! ### Requests -/

def judgeBlank (body : List Byte) (s : State) : Judged :=
  match body with
  | [] => okay (engageBy ⟨false, false, true⟩ .request s)
  | _ => refuse .badLength s

def judgeResume (body : List Byte) (s : State) : Judged :=
  match body with
  | [] => if lineHeld s then refuse .wrongState s else okay (resumeEffect s)
  | _ => refuse .badLength s

/-- Whether settings are frozen: the lock level is at least `level` (R14). -/
def frozen (level : Nat) (s : State) : Bool := decide (level ≤ s.lock.level)

/-- The three settings in the reply of SET_BLANK (R127). -/
def blankSettings (u : BlankUnit) : List Byte := flag u.autoRecover ++ byte2 u.holdTime ++ flag u.hotkeyResume

def judgeSetBlank (body : List Byte) (s : State) : Judged :=
  match body with
  | [a, h1, h0, r] =>
    match flagOf a, flagOf r with
    | some a, some r =>
      let u := { s.blank with autoRecover := a, holdTime := clampTo 0 10000 (num2 h1 h0), hotkeyResume := r }
      if frozen 2 s && u != s.blank then refuse .locked s
      else okayWith (blankSettings u) (s.modBlank fun _ => u)
    | _, _ => refuse .badArg s
  | _ => refuse .badLength s

/-! ### The meanings -/

/-- BLANK (R121). -/
def execBlank (tag : Byte) (body : List Byte) (s : State) : Host.Outcome State Fault Refusal :=
  done (runRequest ⟨0x48, tag, body⟩ judgeBlank s)

/-- RESUME (R125). -/
def execResume (tag : Byte) (body : List Byte) (s : State) : Host.Outcome State Fault Refusal :=
  done (runRequest ⟨0x49, tag, body⟩ judgeResume s)

/-- SET_BLANK (R127). -/
def execSetBlank (tag : Byte) (body : List Byte) (s : State) : Host.Outcome State Fault Refusal :=
  done (runRequest ⟨0x4A, tag, body⟩ judgeSetBlank s)

/-- HOLD_EXPIRY (R124): the hold deadline is reached in RECOVERING. -/
def execHoldExpiry (s : State) : Host.Outcome State Fault Refusal :=
  done (match s.blank.state with
    | .recovering d => goClear .holdExpired (reach d s)
    | _ => s)

end Sys2Proof.Machine
end

