-- ==== Sys2Proof/Machine/Hotkeys.lean ====
section
/-!
DEFINITION. Chapter 5, hotkeys and line triggers: running an action (R80 to R82), firing (R96, R97), the key matcher
(R88 to R92), the line counters (R94, R95), the table's requests, and the meanings of the chapter's commands.
-/

namespace Sys2Proof.Machine

open Sys2Proof

/-! ### Running an action -/

/-- How an action ended: the code the equivalent request would answer, or none when it found nothing to act on. -/
structure Ran where
  code : Option ResultCode
  state : State

/-- An action carried out, or refused, as a request is. -/
def Judged.ran (j : Judged) : Ran := ⟨some j.code, j.state⟩
/-- An action carried out. -/
def ranOk (s : State) : Ran := ⟨some .ok, s⟩
/-- An action that finds nothing to act on. -/
def ranNothing (s : State) : Ran := ⟨none, s⟩

/-- The origin that an action writes (R39, R81). -/
def FireSource.origin : FireSource → Origin
  | .request => .request
  | _ => .hotkey

/-- LEAD (R81). -/
def runLead (s : State) : Ran :=
  ranOk (s.modMatcher fun m => { m with state := .command (s.now + m.commandWindow) })

/-- FOCUS_NEXT and FOCUS_PREV (R42, R81). -/
def runStep (next : Bool) (src : FireSource) (s : State) : Ran :=
  match steppedFocus s next with
  | some n => ranOk (focusBy (.loc n) (FireSource.origin src) s)
  | none => ranNothing s

/-- BROADCAST_TOGGLE (R54, R81). -/
def runBroadcastToggle (s : State) : Ran :=
  ranOk (rederive s (s.modRouter fun r => { r with broadcast := !r.broadcast }))

/-- BLANK, with source HOTKEY, or REQUEST under TRIGGER (R82, R121). -/
def runBlank (src : FireSource) (s : State) : Ran :=
  match src with
  | .request => ranOk (engageBy ⟨false, false, true⟩ .request s)
  | _ => ranOk (engageBy ⟨false, true, false⟩ .hotkey s)

/-- RESUME_BLANK (R125). -/
def runResumeBlank (s : State) : Ran :=
  if !s.blank.hotkeyResume || lineHeld s then ranNothing s else ranOk (resumeEffect s)

/-- WAKE with its argument (R82, R166). -/
def runWake (n : Option Comp) (src : FireSource) (s : State) : Ran :=
  match n with
  | some n => Judged.ran (wakeTrigger n (focusBy (.loc n) (FireSource.origin src) s))
  | none =>
    match s.focus.target with
    | .loc n => Judged.ran (wakeTrigger n s)
    | _ => ranNothing s

/-- TAKE_BACK (R82, R159). -/
def runTakeBack (s : State) : Ran :=
  match s.focus.target with
  | .loc n => Judged.ran (takeBack n s)
  | _ => ranNothing s

/-- GRANT (R82, R156). -/
def runGrant (s : State) : Ran :=
  match s.focus.target with
  | .loc n => if (s.control n).claims.isEmpty then ranNothing s else Judged.ran (grantControl n none s)
  | _ => ranNothing s

/-- CLAIM, as a QUEUED claim (R82, R161). -/
def runClaim (s : State) : Ran :=
  match s.focus.target with
  | .rem k => if (s.link k).viewer = .none then Judged.ran (claimControl k .queued s) else ranNothing s
  | _ => ranNothing s

/-- RELEASE (R82, R161). -/
def runRelease (s : State) : Ran :=
  match s.focus.target with
  | .rem k => if (s.link k).viewer = .none then ranNothing s else Judged.ran (releaseControl k s)
  | _ => ranNothing s

/-- An action runs with its argument (R80 to R82). -/
def runAction (a : Action) (src : FireSource) (s : State) : Ran :=
  match a with
  | .lead => runLead s
  | .focus n => ranOk (focusBy (.loc n) (FireSource.origin src) s)
  | .focusNext => runStep true src s
  | .focusPrev => runStep false src s
  | .switch o t => Judged.ran (switchTo o t s)
  | .recallSlot i => Judged.ran (recallSlot i s)
  | .broadcastToggle => runBroadcastToggle s
  | .blank => runBlank src s
  | .resumeBlank => runResumeBlank s
  | .wake n => runWake n src s
  | .takeBack => runTakeBack s
  | .grant => runGrant s
  | .claim => runClaim s
  | .release => runRelease s
  | .notify => ranOk (notify .hotkey (hotkeyNotice src) s)

/-! ### Firing -/

def countFired (s : State) : State := s.modMatcher fun m => { m with fired := count m.fired }
def countSuppressed (s : State) : State := s.modMatcher fun m => { m with suppressed := count m.suppressed }
def countRefused (s : State) : State := s.modMatcher fun m => { m with refused := count m.refused }

/-- Whether an action was carried out. -/
def Ran.carriedOut (r : Ran) : Bool := r.code == some .ok || r.code == some .accepted

/-- Whether privacy blank holds an action back (R97). -/
def suppressed (a : Action) (s : State) : Bool := blanked s && a != .resumeBlank

/-- The entry at an index fires, its trigger completed by a key or a line (R96, R97). -/
def fire (a : Action) (src : FireSource) (s : State) : State :=
  let s1 := countFired s
  if suppressed a s then countSuppressed s1
  else
    let r := runAction a src s1
    if Ran.carriedOut r then r.state else countRefused r.state

/-! ### The key matcher -/

/-- A desk key event: a press or a release of a code. -/
structure KeyEvent where
  press : Bool
  code : Nat
  deriving DecidableEq, Repr

/-- Whether a code is a modifier. -/
def isModifier (c : Nat) : Bool := decide (224 ≤ c ∧ c ≤ 231)

/-- The index of the entry whose trigger satisfies a condition. -/
def findEntry (s : State) (p : Trigger → Bool) : Option (Fin 32) :=
  allHotkeys.find? fun i =>
    match s.hotkey i with
    | some e => p e.trigger
    | none => false

/-- Whether a trigger is the CHORD of a key under the modifiers held (R89). -/
def isChord (mods : Mods) (k : Nat) : Trigger → Bool
  | .chord m j => m == mods && j == k
  | _ => false

/-- Whether a trigger is a TAP on a key. -/
def isTap (k : Nat) : Trigger → Bool
  | .tap j _ => j == k
  | _ => false

/-- Whether a trigger is the COMMAND of a key. -/
def isCommand (k : Nat) : Trigger → Bool
  | .command j => j == k
  | _ => false

/-- Whether a trigger is a LINE on a line. -/
def isLine (l : LineId) : Trigger → Bool
  | .line j _ => j == l
  | _ => false

/-- The count of a TAP or a LINE trigger. -/
def Trigger.count : Trigger → Nat
  | .tap _ c => c
  | .line _ c => c
  | _ => 0

/-- The judgement of a key event: the matcher's next state, whether the press is withheld, and the entry that
fires. -/
structure Judgement where
  state : MatcherState
  withheld : Bool
  fires : Option (Fin 32)
  deriving DecidableEq, Repr

/-- A press judged in IDLE (R89). -/
def judgeIdlePress (s : State) (k : Nat) : Judgement :=
  match (if isModifier k then none else findEntry s (isChord s.keyboard.held.mods k)) with
  | some i => ⟨.idle, true, some i⟩
  | none =>
    match findEntry s (isTap k) with
    | some _ => ⟨.tapping k 0 true none, false, none⟩
    | none => ⟨.idle, false, none⟩

/-- The release that completes a tap of `k` (R90). -/
def judgeTap (s : State) (k taps : Nat) : Judgement :=
  match findEntry s (isTap k) with
  | none => ⟨.idle, false, none⟩
  | some i =>
    let n := match s.hotkey i with
      | some e => Trigger.count e.trigger
      | none => 0
    if n ≤ taps + 1 then ⟨.idle, false, some i⟩
    else ⟨.tapping k (taps + 1) false (some (s.now + s.matcher.tapWindow)), false, none⟩

/-- The matcher judges a key event (R88 to R92). -/
def judgeKey (s : State) (e : KeyEvent) : Judgement :=
  match s.matcher.state with
  | .idle => if e.press then judgeIdlePress s e.code else ⟨.idle, false, none⟩
  | .tapping k taps pending deadline =>
    if e.press then
      if e.code = k then ⟨.tapping k taps true none, false, none⟩ else judgeIdlePress s e.code
    else if e.code = k ∧ pending = true then judgeTap s k taps
    else ⟨.tapping k taps pending deadline, false, none⟩
  | .command deadline =>
    if e.press && !isModifier e.code then ⟨.idle, true, findEntry s (isCommand e.code)⟩
    else ⟨.command deadline, false, none⟩

/-! ### Line counters -/

/-- A line's counter returns to 0 and its window stops (R95). -/
def resetTrigger (l : LineId) (s : State) : State := s.setLineTrigger l ⟨0, none⟩

/-- The LINE entry of a line, with its index. -/
def lineEntry (s : State) (l : LineId) : Option (Fin 32 × HotkeyEntry) :=
  match findEntry s (isLine l) with
  | some i => (s.hotkey i).map fun e => (i, e)
  | none => none

/-- A qualifying edge of a line in TRIGGER role (R94). -/
def qualifyingEdge (l : LineId) (s : State) : State :=
  match lineEntry s l with
  | none => s
  | some (i, e) =>
    let c := (s.lineTrigger l).count + 1
    if Trigger.count e.trigger ≤ c then fire e.action (.line i) (resetTrigger l s)
    else s.setLineTrigger l ⟨c, some (s.now + s.matcher.tapWindow)⟩

/-! ### Requests -/

/-- Whether two triggers may not stand in the table together (R79, R83). -/
def clash (a b : Trigger) : Bool :=
  a == b ||
    match a, b with
    | .tap k _, .tap j _ => k == j
    | .line l _, .line j _ => l == j
    | _, _ => false

/-- The counter of the line that an entry names returns to 0 (R84). -/
def resetNamed (e : Option HotkeyEntry) (s : State) : State :=
  match e with
  | some ⟨.line l _, _⟩ => resetTrigger l s
  | _ => s

/-- SET_HOTKEY with an entry in range (R83). -/
def setHotkeyEntry (i : Fin 32) (e : HotkeyEntry) (s : State) : Judged :=
  let clashes := allHotkeys.any fun j =>
    j != i && match s.hotkey j with
      | some d => clash e.trigger d.trigger
      | none => false
  if clashes then refuse .badArg s
  else if frozen 2 s && s.hotkey i != some e then refuse .locked s
  else okay ((resetNamed (some e) (resetNamed (s.hotkey i) s)).setHotkey i (some e))

def judgeSetHotkey (body : List Byte) (s : State) : Judged :=
  match body with
  | [b0, t, f1, f2, a, x, y] =>
    match hotkeyIndexOf b0, hotkeyEntryOf t f1 f2 a x y with
    | some i, some e => setHotkeyEntry i e s
    | _, _ => refuse .badArg s
  | _ => refuse .badLength s

def judgeClearHotkey (body : List Byte) (s : State) : Judged :=
  match body with
  | [b0] =>
    match hotkeyIndexOf b0 with
    | some i =>
      if frozen 2 s && (s.hotkey i).isSome then refuse .locked s
      else okay ((resetNamed (s.hotkey i) s).setHotkey i none)
    | none => refuse .badArg s
  | _ => refuse .badLength s

/-- The number of a matcher state (R88). -/
def matcherByte : MatcherState → List Byte
  | .idle => [0]
  | .tapping _ _ _ _ => [1]
  | .command _ => [2]

/-- The key, the taps done and whether a press is pending, in TAPPING. -/
def MatcherState.tapping? : MatcherState → Option (Nat × Nat × Bool)
  | .tapping k t p _ => some (k, t, p)
  | _ => Option.none

/-- The end of the tap window, where one runs. -/
def MatcherState.tapEnd : MatcherState → Option Nat
  | .tapping _ _ _ d => d
  | _ => Option.none

/-- The end of the command window, in COMMAND. -/
def MatcherState.commandEnd : MatcherState → Option Nat
  | .command d => some d
  | _ => Option.none

/-- The matcher state in a reply: its number, the fields of TAPPING, and the time left in a window (R85). Each field has
its own presence byte (R197, notes/assumptions/8.md). -/
def matcherBytes (now : Nat) (m : MatcherState) : List Byte :=
  let tap := MatcherState.tapping? m
  matcherByte m ++ optional 1 byte1 (tap.map fun p => p.1) ++ optional 1 byte1 (tap.map fun p => p.2.1) ++
    optional 1 flag (tap.map fun p => p.2.2) ++
    optional 4 timeBytes ((MatcherState.tapEnd m).map (· - now)) ++
    optional 4 timeBytes ((MatcherState.commandEnd m).map (· - now))

/-- The reply of GET_HOTKEY (R85). The counters of the sixteen lines stand one after another, without a count byte before
them (DESIGN CHOICE, notes/assumptions/19.md). -/
def hotkeyReply (i : Fin 32) (s : State) : List Byte :=
  let m := s.matcher
  hotkeyBytes (s.hotkey i) ++ byte2 m.tapWindow ++ byte2 m.commandWindow ++ matcherBytes s.now m.state ++
    (allLines.flatMap fun l => byte1 (s.lineTrigger l).count) ++
    byte4 m.fired ++ byte4 m.suppressed ++ byte4 m.refused

def judgeGetHotkey (body : List Byte) (s : State) : Judged :=
  match body with
  | [b0] =>
    match hotkeyIndexOf b0 with
    | some i => okayWith (hotkeyReply i s) s
    | none => refuse .badArg s
  | _ => refuse .badLength s

/-- The code that TRIGGER answers (R98). -/
def Ran.triggerCode (r : Ran) : ResultCode := r.code.getD .wrongState

def judgeTrigger (body : List Byte) (s : State) : Judged :=
  match body with
  | [a, x, y] =>
    match actionOf a x y with
    | some act =>
      let r := runAction act .request s
      ⟨Ran.triggerCode r, [], r.state⟩
    | none => refuse .badArg s
  | _ => refuse .badLength s

def judgeSetHotkeyTiming (body : List Byte) (s : State) : Judged :=
  match body with
  | [t1, t0, c1, c0] =>
    let t := clampTo 100 1000 (num2 t1 t0)
    let c := clampTo 500 5000 (num2 c1 c0)
    if frozen 2 s && (t != s.matcher.tapWindow || c != s.matcher.commandWindow) then refuse .locked s
    else okay (s.modMatcher fun m => { m with tapWindow := t, commandWindow := c })
  | _ => refuse .badLength s

/-! ### The meanings -/

/-- SET_HOTKEY (R83). -/
def execSetHotkey (tag : Byte) (body : List Byte) (s : State) : Host.Outcome State Fault Refusal :=
  done (runRequest ⟨0x38, tag, body⟩ judgeSetHotkey s)

/-- GET_HOTKEY (R85). -/
def execGetHotkey (tag : Byte) (body : List Byte) (s : State) : Host.Outcome State Fault Refusal :=
  done (runRequest ⟨0x39, tag, body⟩ judgeGetHotkey s)

/-- CLEAR_HOTKEY (R84). -/
def execClearHotkey (tag : Byte) (body : List Byte) (s : State) : Host.Outcome State Fault Refusal :=
  done (runRequest ⟨0x3A, tag, body⟩ judgeClearHotkey s)

/-- TRIGGER (R98). -/
def execTrigger (tag : Byte) (body : List Byte) (s : State) : Host.Outcome State Fault Refusal :=
  done (runRequest ⟨0x3B, tag, body⟩ judgeTrigger s)

/-- SET_HOTKEY_TIMING (R86). -/
def execSetHotkeyTiming (tag : Byte) (body : List Byte) (s : State) : Host.Outcome State Fault Refusal :=
  done (runRequest ⟨0x3C, tag, body⟩ judgeSetHotkeyTiming s)

/-- TAP_WINDOW_EXPIRY (R91): the tap window of TAPPING has run out. -/
def execTapWindowExpiry (s : State) : Host.Outcome State Fault Refusal :=
  done (match s.matcher.state with
    | .tapping _ _ false (some d) => (reach d s).modMatcher fun m => { m with state := .idle }
    | _ => s)

/-- COMMAND_WINDOW_EXPIRY (R92): the command window has run out. -/
def execCommandWindowExpiry (s : State) : Host.Outcome State Fault Refusal :=
  done (match s.matcher.state with
    | .command d => (reach d s).modMatcher fun m => { m with state := .idle }
    | _ => s)

/-- LINE_WINDOW_EXPIRY (R94): the window of a line's counter has run out. -/
def execLineWindowExpiry (l : LineId) (s : State) : Host.Outcome State Fault Refusal :=
  done (match (s.lineTrigger l).deadline with
    | some d => resetTrigger l (reach d s)
    | none => s)

end Sys2Proof.Machine
end

