-- ==== Sys2Proof/Machine/Keyboard.lean ====
section
/-!
DEFINITION. Chapter 3, the desk keyboard: the held set and its key events (R46, R47), from key event to record
(R50), attach and detach (R48), the focus and broadcast requests, and the meanings of the chapter's commands.
-/

namespace Sys2Proof.Machine

open Sys2Proof

/-! ### The held set and the mask -/

/-- The bit of a modifier code in a set of modifiers. -/
def modBit (c : Nat) : Mods := 1#8 <<< (c - 224)

/-- A key state with a code added: a modifier to its set, another key to the end of the list. -/
def KeyState.add (k : KeyState) (c : Nat) : KeyState :=
  if isModifier c then { k with mods := k.mods ||| modBit c } else { k with keys := k.keys ++ [c] }

/-- A key state with a code removed. -/
def KeyState.drop (k : KeyState) (c : Nat) : KeyState :=
  if isModifier c then { k with mods := k.mods &&& ~~~modBit c } else { k with keys := k.keys.filter (· != c) }

/-- Whether a code is in a key state. -/
def KeyState.has (k : KeyState) (c : Nat) : Bool :=
  if isModifier c then k.mods.getLsbD (c - 224) else k.keys.contains c

def setHeld (k : KeyState) (s : State) : State := s.modKeyboard fun p => { p with held := k }

def modMask (f : KeyState → KeyState) (s : State) : State := s.modRouter fun r => { r with mask := f r.mask }

/-- A withheld code enters the mask, at most once (R49). -/
def maskCode (c : Nat) (s : State) : State := if KeyState.has s.router.mask c then s else modMask (KeyState.add · c) s

/-! ### From key event to record (R50) -/

/-- A key-state record for computer `m`, if it is a recipient (R50, step 4). -/
def recordFor (s : State) (m : Comp) : State :=
  if isRecipient s m then deliverKeys .desk m (visibleKeys s) s else s

/-- A KEYS frame for link `k`, if it is a recipient (R50, step 4; R56). -/
def keysFor (s : State) (k : LinkId) : State :=
  if linkIsRecipient s k then sendKeys k (visibleKeys s) s else s

/-- The records of a key event for every recipient: the computers from C1 to C8, and then the links (DESIGN CHOICE,
notes/assumptions/35.md). -/
def sendRecords (s : State) : State := allLinks.foldl keysFor (allComps.foldl recordFor s)

/-- The matcher's part of a key event (R50, step 2; R88): its next state, the mask, and what fires. -/
def matchKey (e : KeyEvent) (s : State) : State :=
  let j := judgeKey s e
  let s1 := s.modMatcher fun m => { m with state := j.state }
  let s2 := if e.press then (if j.withheld then maskCode e.code s1 else s1) else modMask (KeyState.drop · e.code) s1
  match j.fires with
  | some i =>
    match s.hotkey i with
    | some d => fire d.action (.keys i) s2
    | none => s2
  | none => s2

/-- A view-only drop is counted on a port (R50, step 5; R53). -/
def countViewOnly (n : Comp) (s : State) : State :=
  s.modPort n fun p => { p with counters := { p.counters with viewOnlyDrops := count p.counters.viewOnlyDrops } }

/-- Step 5 of R50: the view-only drop, and the wake trigger of a delivered press. -/
def countAndWake (delivered : Bool) (s : State) : State :=
  match s.focus.target with
  | .loc n =>
    if !blanked s && BusState.present (s.port n).bus then
      match (s.control n).holder with
      | .desk => wakeIfSuspended n delivered s
      | .link _ => countViewOnly n s
    else s
  | _ => s

/-- A desk key event, already applied to the held set (R50). Steps 3 to 5 follow the action that the matcher step fires,
so the event whose entry fires RESUME_BLANK forms a record itself, R126's "next desk key event" notwithstanding (DESIGN
CHOICE, notes/assumptions/46.md). -/
def handleKey (e : KeyEvent) (s : State) : State :=
  countAndWake (e.press && !(judgeKey s e).withheld) (sendRecords (matchKey e s))

/-! ### The desk keyboard port -/

/-- A key event is raised (R47): applied to the held set and handed on whole, unless it changes nothing or the held
list is full. -/
def raiseKey (s : State) (e : KeyEvent) : State :=
  let held := s.keyboard.held
  if e.press then
    if KeyState.has held e.code then s
    else if !isModifier e.code && decide (Config.heldKeys ≤ held.keys.length) then
      s.modKeyboard fun p => { p with ignoredPresses := count p.ignoredPresses }
    else handleKey e (setHeld (KeyState.add held e.code) s)
  else if KeyState.has held e.code then handleKey e (setHeld (KeyState.drop held e.code) s)
  else s

/-- The modifier codes in order. -/
def modCodes : List Nat := [224, 225, 226, 227, 228, 229, 230, 231]

/-- The key events of a report, in the order of R46. A press is tried at each listing of a key (DESIGN CHOICE,
notes/assumptions/47.md). -/
def reportEvents (held : KeyState) (mods : Mods) (keys : List Nat) : List KeyEvent :=
  ((held.keys.filter fun c => !keys.contains c).map fun c => ⟨false, c⟩) ++
    ((modCodes.filter fun c => held.mods.getLsbD (c - 224) && !mods.getLsbD (c - 224)).map fun c => ⟨false, c⟩) ++
    ((modCodes.filter fun c => mods.getLsbD (c - 224) && !held.mods.getLsbD (c - 224)).map fun c => ⟨true, c⟩) ++
    ((keys.filter fun c => !held.keys.contains c).map fun c => ⟨true, c⟩)

/-- The key codes of a report's key positions, the codes that are passed over left out (R46). A report that has no other
codes raises no presses of its own, and the releases of what it leaves out are raised (DESIGN CHOICE,
notes/assumptions/47.md). -/
def reportKeys (codes : List Byte) : List Nat :=
  (codes.map BitVec.toNat).filter fun c => decide (4 ≤ c ∧ c ≤ 223)

/-- A report of an attached desk keyboard (R46). -/
def keyboardReport (mods : Mods) (codes : List Byte) (s : State) : State :=
  if codes.contains 1 then s.modKeyboard fun p => { p with rollovers := count p.rollovers }
  else (reportEvents s.keyboard.held mods (reportKeys codes)).foldl raiseKey s

/-- The desk keyboard detaches (R48, R93). A detach that finds the port DETACHED already does the same, so an open
COMMAND phase returns to IDLE (DESIGN CHOICE, notes/assumptions/24.md). -/
def keyboardDetach (s : State) : State :=
  let s1 := s.modKeyboard fun p => { p with attached := false, held := KeyState.empty, lightsSent := none }
  let s2 := s1.modMatcher fun m => { m with state := .idle }
  sendRecords (modMask (fun _ => KeyState.empty) s2)

/-- The desk keyboard attaches, and its lights are sent, during a privacy blank as well (R48, R57; DESIGN CHOICE,
notes/assumptions/45.md). -/
def keyboardAttach (s : State) : State :=
  checkLights (s.modKeyboard fun p => { p with attached := true, held := KeyState.empty })

/-! ### Requests -/

/-- SET_FOCUS on a target (R41). -/
def requestFocus (t : FocusTarget) (s : State) : Judged :=
  match t with
  | .rem k => if (activeOffer s k).isSome then okay (focusBy t .request s) else refuse .wrongState s
  | _ => okay (focusBy t .request s)

def judgeSetFocus (body : List Byte) (s : State) : Judged :=
  match body with
  | [b0] =>
    match focusTargetOf b0 with
    | some t => requestFocus t s
    | none => refuse .badArg s
  | _ => refuse .badLength s

/-- The member flags of C1 to C8 as one set of computers, as SET_BROADCAST carries them (R41, R197; DESIGN CHOICE,
notes/assumptions/19.md). -/
def memberByte (s : State) : List Byte :=
  byte1 ((allComps.filter fun n => (s.comp n).member).foldl (fun t n => t + 2 ^ n.val) 0)

/-- The reply of GET_FOCUS (R41). -/
def focusReply (s : State) : List Byte :=
  let f := s.focus
  let k := s.keyboard
  focusByte f.target ++ originByte f.origin ++ optional 1 monitorByte f.tile ++
    flag s.router.broadcast ++ memberByte s ++ flag k.attached ++ keyBytes k.held ++ keyBytes s.router.mask ++
    optional 3 lightBytes k.lightsSent ++ byte4 k.ignoredPresses ++ byte4 k.rollovers

def judgeGetFocus (body : List Byte) (s : State) : Judged :=
  match body with
  | [] => okayWith (focusReply s) s
  | _ => refuse .badLength s

/-- The member flag of a computer is written from a set of computers. -/
def setMember (members : Byte) (s : State) (n : Comp) : State :=
  s.modComp n fun r => { r with member := members.getLsbD n.val }

/-- SET_BROADCAST with its state and member flags (R54). -/
def setBroadcast (on : Bool) (members : Byte) (s : State) : State :=
  rederive s (allComps.foldl (setMember members) (s.modRouter fun r => { r with broadcast := on }))

def judgeSetBroadcast (body : List Byte) (s : State) : Judged :=
  match body with
  | [b0, b1] =>
    match flagOf b0 with
    | some on => okay (setBroadcast on b1 s)
    | none => refuse .badArg s
  | _ => refuse .badLength s

/-! ### The meanings -/

/-- SET_FOCUS (R41). -/
def execSetFocus (tag : Byte) (body : List Byte) (s : State) : Host.Outcome State Fault Refusal :=
  done (runRequest ⟨0x28, tag, body⟩ judgeSetFocus s)

/-- GET_FOCUS (R41). -/
def execGetFocus (tag : Byte) (body : List Byte) (s : State) : Host.Outcome State Fault Refusal :=
  done (runRequest ⟨0x29, tag, body⟩ judgeGetFocus s)

/-- SET_BROADCAST (R54). -/
def execSetBroadcast (tag : Byte) (body : List Byte) (s : State) : Host.Outcome State Fault Refusal :=
  done (runRequest ⟨0x2A, tag, body⟩ judgeSetBroadcast s)

/-- DESK_KEYBOARD_REPORT (R46). A DETACHED port receives no report. -/
def execDeskKeyboardReport (mods : Mods) (codes : List Byte) (s : State) : Host.Outcome State Fault Refusal :=
  done (if s.keyboard.attached then keyboardReport mods codes s else s)

/-- DESK_KEYBOARD_ATTACH (R48). -/
def execDeskKeyboardAttach (s : State) : Host.Outcome State Fault Refusal := done (keyboardAttach s)

/-- DESK_KEYBOARD_DETACH (R48). -/
def execDeskKeyboardDetach (s : State) : Host.Outcome State Fault Refusal := done (keyboardDetach s)

end Sys2Proof.Machine
end

