-- ==== Sys2Proof/Machine/Lines.lean ====
section
/-!
DEFINITION. Chapter 11, the desk lines: the filter (R180), a level accepted and handed to the block of the role,
SET_LINE (R182), DRIVE_LINE and GET_LINES (R183), and the meanings of the chapter's commands.
-/

namespace Sys2Proof.Machine

open Sys2Proof

/-! ### The filter -/

/-- Whether an edge select admits a change to a level (R180). -/
def EdgeSelect.admits : EdgeSelect → Bool → Bool
  | .rising, level => level
  | .falling, level => !level
  | .both, _ => true

/-- A level accepted on a line is handed to the block that its role names (R180). -/
def handLevel (l : LineId) (level first : Bool) (s : State) : State :=
  match (s.line l).config.role with
  | .blankInput => if level then assertLine l s else if first then s else releaseLine l s
  | .powerSense n => setPowered n (if level then .powered else .unpowered) s
  | .trigger => if !first && EdgeSelect.admits (s.line l).config.edge level then qualifyingEdge l s else s
  | _ => s

/-- A level becomes the filtered level of a line (R180), and a LINE notice follows (R186). -/
def acceptLevel (l : LineId) (level : Bool) (s : State) : State :=
  let old := (s.line l).filtered
  let s1 := s.modLine l fun ln => { ln with filtered := some level, candidate := none }
  if old = some level then s1
  else
    notify .line (lineNotice l (s.line l).config.role level old.isNone) (handLevel l level old.isNone s1)

/-- A candidate starts, or with a filter of 0 its level is accepted at once (R180). -/
def propose (l : LineId) (level : Bool) (s : State) : State :=
  if (s.line l).config.filter = 0 then acceptLevel l level s
  else s.modLine l fun ln => { ln with candidate := some (level, s.now) }

/-- The filter of a line watches its pin as it stands (R180). -/
def refilter (l : LineId) (s : State) : State :=
  let ln := s.line l
  let pin := Line.pinLevel ln
  if Line.filtering ln then
    match ln.filtered, ln.candidate with
    | some f, none => if pin = f then s else propose l pin s
    | some f, some _ => if pin = f then s.modLine l fun ln => { ln with candidate := none } else s
    | none, none => propose l pin s
    | none, some (c, _) => if c = pin then s else propose l pin s
  else s

/-- The wiring outside changes what it gives a pin (R178, R180). -/
def pinChange (l : LineId) (level strong : Bool) (s : State) : State :=
  refilter l (s.modLine l fun ln => { ln with wireLevel := level, wireStrong := strong })

/-- The end of the filter time of a line's candidate (R180). -/
def filterEnd (l : LineId) (s : State) : State :=
  match (s.line l).candidate with
  | some (level, t) =>
    if Line.filtering (s.line l) then acceptLevel l level (reach (t + (s.line l).config.filter) s) else s
  | none => s

/-! ### SET_LINE -/

/-- A line leaves its old configuration (R182, step 1). -/
def leaveConfig (l : LineId) (s : State) : State :=
  match (s.line l).config.role with
  | .blankInput => releaseLine l s
  | .powerSense n => setPowered n .unknown s
  | .trigger => resetTrigger l s
  | .wakePulse n => pulseLineChanged l s n
  | _ => s

/-- The output level that a line takes with a configuration (R181, R182 step 3). -/
def takenLevel (s : State) (l : LineId) (new : Role) : Bool :=
  match new, (s.line l).config.role with
  | .tally n, _ => s.focus.target == .loc n
  | .output, .output => (s.line l).level
  | _, _ => false

/-- A line takes a configuration that differs from the one it holds (R182, steps 1 to 3). -/
def reconfigure (l : LineId) (c : LineConfig) (s : State) : State :=
  let s1 := leaveConfig l s
  let level := takenLevel s1 l c.role
  refilter l (s1.modLine l fun ln =>
    { ln with config := c, hold := none, filtered := none, candidate := none, level := level })

/-- Whether a role names a computer and another line holds it already (R182, check 3). -/
def roleTaken (s : State) (l : LineId) (r : Role) : Bool :=
  match r with
  | .powerSense _ | .tally _ | .wakePulse _ => allLines.any fun j => j != l && (s.line j).config.role == r
  | _ => false

/-- SET_LINE on a line and a clamped configuration (R182). -/
def setLine (l : LineId) (c : LineConfig) (s : State) : Judged :=
  if roleTaken s l c.role then refuse .badArg s
  else if frozen 2 s && c != (s.line l).config then refuse .locked s
  else if c = (s.line l).config then okay (refilter l (s.modLine l fun ln => { ln with hold := none }))
  else okay (reconfigure l c s)

/-- The configuration that a SET_LINE body carries, its filter clamped. -/
def lineConfigOf (role computer drive polarity pull f1 f0 edge : Byte) : Option LineConfig :=
  match roleOf role computer, driveOf drive, polarityOf polarity, flagOf pull, edgeSelectOf edge with
  | some r, some d, some p, some u, some e => some ⟨r, d, p, u, clampTo 0 255 (num2 f1 f0), e⟩
  | _, _, _, _, _ => none

def judgeSetLine (body : List Byte) (s : State) : Judged :=
  match body with
  | [l, r, n, d, p, u, f1, f0, e] =>
    match lineOf l, lineConfigOf r n d p u f1 f0 e with
    | some l, some c => setLine l c s
    | _, _ => refuse .badArg s
  | _ => refuse .badLength s

/-! ### DRIVE_LINE and GET_LINES -/

/-- DRIVE_LINE on a line and a level (R183). -/
def driveLine (l : LineId) (level : Bool) (s : State) : Judged :=
  if (s.line l).config.role = .output then okay (s.modLine l fun ln => { ln with level := level })
  else refuse .wrongState s

def judgeDriveLine (body : List Byte) (s : State) : Judged :=
  match body with
  | [b0, b1] =>
    match lineOf b0, flagOf b1 with
    | some l, some level => driveLine l level s
    | _, _ => refuse .badArg s
  | _ => refuse .badLength s

/-- One line in the reply of GET_LINES (R183). -/
def lineReply (ln : Line) : List Byte :=
  let c := ln.config
  roleBytes c.role ++ driveByte c.drive ++ polarityByte c.polarity ++ flag c.pullUp ++ byte1 c.filter ++
    edgeByte c.edge ++ optional 1 levelByte ln.filtered ++ flag ln.candidate.isSome ++
    optional 1 levelByte (if Role.isOutput c.role then some ln.level else none) ++
    optional 1 pinByte ln.hold ++ pinByte (Line.pin ln)

/-- GET_LINES (R183): the sixteen lines' fields one line after another, without a count byte before them (DESIGN CHOICE,
notes/assumptions/19.md). -/
def judgeGetLines (body : List Byte) (s : State) : Judged :=
  match body with
  | [] => okayWith (allLines.flatMap fun l => lineReply (s.line l)) s
  | _ => refuse .badLength s

/-! ### The meanings -/

/-- SET_LINE (R182). -/
def execSetLine (tag : Byte) (body : List Byte) (s : State) : Host.Outcome State Fault Refusal :=
  done (runRequest ⟨0x68, tag, body⟩ judgeSetLine s)

/-- GET_LINES (R183). -/
def execGetLines (tag : Byte) (body : List Byte) (s : State) : Host.Outcome State Fault Refusal :=
  done (runRequest ⟨0x69, tag, body⟩ judgeGetLines s)

/-- DRIVE_LINE (R183). -/
def execDriveLine (tag : Byte) (body : List Byte) (s : State) : Host.Outcome State Fault Refusal :=
  done (runRequest ⟨0x6A, tag, body⟩ judgeDriveLine s)

/-- LINE_PIN_CHANGE (R180). -/
def execLinePinChange (l : LineId) (level strong : Bool) (s : State) : Host.Outcome State Fault Refusal :=
  done (pinChange l level strong s)

/-- LINE_FILTER_EXPIRY (R180). -/
def execLineFilterExpiry (l : LineId) (s : State) : Host.Outcome State Fault Refusal := done (filterEnd l s)

end Sys2Proof.Machine
end

