-- ==== Sys2Proof/Machine/Supervisor.lean ====
section
/-!
DEFINITION. Chapter 12, the supervisor link: the receiver (R187), the transmitter's end of a frame (R190), the
requests that the chapter owns (R189, R192 to R194), and their meanings.
-/

namespace Sys2Proof.Machine

open Sys2Proof

/-! ### The receiver -/

/-- Whether a length byte is one that discards its frame (R187). -/
def badLength (l : Byte) : Bool := decide (l.toNat < 2 ∨ 250 < l.toNat)

/-- The length byte of a frame held from its start marker onwards, 0 while it is not held. -/
def heldLength (held : List (Byte × Nat)) : Nat := ((held.drop 1).head?.map fun b => b.1.toNat).getD 0

/-- Whether a frame is held whole: L + 4 bytes (R187). -/
def frameWhole (held : List (Byte × Nat)) : Bool := decide (2 ≤ held.length ∧ held.length = heldLength held + 4)

/-- The kind, tag and body of a whole frame, when its CRC matches (R187). -/
def frameRequest (held : List (Byte × Nat)) : Option Request :=
  let bytes := held.map Prod.fst
  let inner := (bytes.drop 1).take (heldLength held + 1)
  if crcBytes (crc16 inner) = bytes.drop (heldLength held + 2) then
    match inner with
    | _ :: kind :: tag :: body => some ⟨kind, tag, body⟩
    | _ => none
  else none

/-- The gap between the last byte held and a byte at time `t` is too long (R187). -/
def gapBefore (held : List (Byte × Nat)) (t : Nat) : Bool :=
  match held.getLast? with
  | some (_, u) => decide (u + Config.byteGap < t)
  | none => false

/-- The receiver, holding the bytes `held`, takes the bytes `input` with their arrival times (R187). A discard scans
the bytes held after the marker afresh, ahead of the rest. `fuel` bounds the steps taken. -/
def scanSup : Nat → List (Byte × Nat) → List (Byte × Nat) → Supervisor → Supervisor
  | 0, held, _, p => { p with receiver := held }
  | _ + 1, held, [], p => { p with receiver := held }
  | fuel + 1, [], b :: rest, p =>
    if b.1 = 0xC3 then scanSup fuel [b] rest p else scanSup fuel [] rest p
  | fuel + 1, m :: more, b :: rest, p =>
    let held := m :: more
    if gapBefore held b.2 then
      scanSup fuel [] (more ++ b :: rest) { p with gapErrors := count p.gapErrors }
    else if more = [] ∧ badLength b.1 = true then
      scanSup fuel [] (b :: rest) { p with lengthErrors := count p.lengthErrors }
    else if frameWhole (held ++ [b]) then
      match frameRequest (held ++ [b]) with
      | some r => scanSup fuel [] rest (receiveRequest r p)
      | none => scanSup fuel [] (more ++ b :: rest) { p with crcErrors := count p.crcErrors }
    else scanSup fuel (held ++ [b]) rest p

/-- Enough steps for `n` bytes: each discard drops one byte for good, and at most `n` bytes are scanned after it. -/
def scanFuel (n : Nat) : Nat := (n + 1) * (n + 1)

/-- Bytes arrive at the present time behind those of the frame in progress. -/
def takeBytes (now : Nat) (bs : List Byte) (p : Supervisor) : Supervisor :=
  scanSup (scanFuel (p.receiver.length + bs.length)) p.receiver (bs.map fun b => (b, now)) p

/-- The bytes held after the marker of a discarded frame are scanned as though they were arriving afresh. -/
def rescan (p : Supervisor) : Supervisor := scanSup (scanFuel p.receiver.length) [] p.receiver.tail p

/-- The frame in progress is discarded for the gap after its last byte (R187). -/
def gapTimeout (p : Supervisor) : Supervisor := rescan { p with gapErrors := count p.gapErrors }

/-- A byte whose stop bit is missing discards the frame in progress and is not scanned (R187). It counts as a byte
error also when it arrives more than 5 ms after the last byte held, before GAP_TIMEOUT has been taken (DESIGN CHOICE,
notes/assumptions/40.md). -/
def byteError (p : Supervisor) : Supervisor :=
  match p.receiver with
  | [] => p
  | _ => rescan { p with byteErrors := count p.byteErrors }

/-! ### The transmitter -/

/-- The transmitter has sent the last byte of its frame (R190). After a RESET reply the warm reset is due (R194). -/
def transmitEnd (p : Supervisor) : Supervisor :=
  match p.sending with
  | some f => { p with sending := none, resetDue := p.resetDue || SupFrame.isResetReply f }
  | none => p

/-! ### Requests -/

/-- The counts of the receiver and the overrun count, in the order of R193. -/
def supCountBytes (p : Supervisor) : List Byte :=
  byte4 p.lengthErrors ++ byte4 p.crcErrors ++ byte4 p.gapErrors ++ byte4 p.byteErrors ++ byte4 p.overruns

/-- The time left to the hold deadline in RECOVERING. -/
def holdLeft (s : State) : Option Nat :=
  match s.blank.state with
  | .recovering d => some (d - s.now)
  | _ => none

/-- The reply of GET_STATUS (R193). Its last four bytes are DL1's state and enable flag, and then DL2's (DESIGN
CHOICE, notes/assumptions/19.md). -/
def statusReply (s : State) : List Byte :=
  let p := s.sup
  [Config.partCode, Config.revision] ++ byte1 s.lock.level ++ resetCauseByte p.cause ++ byte1 p.lost ++
    supCountBytes p ++ byte1 p.requests.length ++ blankStateByte s.blank.state ++
    sourcesByte (BlankState.sources s.blank.state) ++ optional 4 timeBytes (holdLeft s) ++
    flag (s.link 0).up ++ flag (s.link 0).enabled ++ flag (s.link 1).up ++ flag (s.link 1).enabled

def judgeGetStatus (body : List Byte) (s : State) : Judged :=
  match body with
  | [] => okayWith (statusReply s) (s.modSup fun p => { p with lost := 0 })
  | _ => refuse .badLength s

/-- RESET is answered OK; the warm reset begins when that reply has been sent (R194). -/
def judgeReset (body : List Byte) (s : State) : Judged :=
  match body with
  | [] => okay s
  | _ => refuse .badLength s

/-- The subscription set is written and answered (R192), as its bare set byte (DESIGN CHOICE, notes/assumptions/19.md). -/
def setClasses (c : BitVec 8) (s : State) : Judged := okayWith [c] (s.modSup fun p => { p with classes := c })

def judgeSubscribe (body : List Byte) (s : State) : Judged :=
  match body with
  | [b0] => setClasses (s.sup.classes ||| b0) s
  | _ => refuse .badLength s

def judgeUnsubscribe (body : List Byte) (s : State) : Judged :=
  match body with
  | [b0] => setClasses (s.sup.classes &&& ~~~b0) s
  | _ => refuse .badLength s

/-- A frame whose kind names no request (R189, step 1). -/
def judgeUnknown (_ : List Byte) (s : State) : Judged := refuse .unknownKind s

/-! ### The meanings -/

/-- SUPERVISOR_FRAME_RECEIVED (R187, R188). -/
def execSupervisorFrameReceived (bs : List Byte) (s : State) : Host.Outcome State Fault Refusal :=
  done (s.modSup (takeBytes s.now bs))

/-- GAP_TIMEOUT (R187): more than 5 ms have passed since the last byte of the frame in progress. -/
def execGapTimeout (s : State) : Host.Outcome State Fault Refusal :=
  done (match s.sup.receiver.getLast? with
    | some (_, t) => (reach (t + Config.byteGap + 1) s).modSup gapTimeout
    | none => s)

/-- BYTE_ERROR (R187). -/
def execByteError (s : State) : Host.Outcome State Fault Refusal := done (s.modSup byteError)

/-- LENGTH_ERROR (R187): the byte arrives, and the receiver judges it as the second byte of a frame. -/
def execLengthError (len : Byte) (s : State) : Host.Outcome State Fault Refusal :=
  done (s.modSup (takeBytes s.now [len]))

/-- TRANSMIT_DONE (R190). -/
def execTransmitDone (s : State) : Host.Outcome State Fault Refusal := done (s.modSup transmitEnd)

/-- UNKNOWN_KIND (R189). A kind that names a request is received as that request (R188). -/
def execUnknownKind (kind tag : Byte) (body : List Byte) (s : State) : Host.Outcome State Fault Refusal :=
  done (if kindNamed kind then s.modSup (receiveRequest ⟨kind, tag, body⟩)
    else runRequest ⟨kind, tag, body⟩ judgeUnknown s)

/-- GET_STATUS (R193). -/
def execGetStatus (tag : Byte) (body : List Byte) (s : State) : Host.Outcome State Fault Refusal :=
  done (runRequest ⟨0x01, tag, body⟩ judgeGetStatus s)

/-- RESET (R194). -/
def execReset (tag : Byte) (body : List Byte) (s : State) : Host.Outcome State Fault Refusal :=
  done (runRequest ⟨0x02, tag, body⟩ judgeReset s)

/-- SUBSCRIBE (R192). -/
def execSubscribe (tag : Byte) (body : List Byte) (s : State) : Host.Outcome State Fault Refusal :=
  done (runRequest ⟨0x03, tag, body⟩ judgeSubscribe s)

/-- UNSUBSCRIBE (R192). -/
def execUnsubscribe (tag : Byte) (body : List Byte) (s : State) : Host.Outcome State Fault Refusal :=
  done (runRequest ⟨0x04, tag, body⟩ judgeUnsubscribe s)

end Sys2Proof.Machine
end

