-- ==== Sys2Proof/Machine/Pointer.lean ====
section
/-!
DEFINITION. Chapter 2, the desk pointer: the walk through the tiles (R22 to R25), a motion event (R21, R27 to R29,
R36), the desk pointer port (R19), the pointer requests, and the meanings of the chapter's commands.
-/

namespace Sys2Proof.Machine

open Sys2Proof

/-! ### Tiles and edges -/

/-- An axis of glide space. -/
inductive Axis
  | x | y
  deriving DecidableEq, Repr

/-- The first column or row of a tile. -/
def Tile.first (t : Tile) : Axis → Nat
  | .x => t.x0
  | .y => t.y0

/-- The width or height of a tile. -/
def Tile.size (t : Tile) : Axis → Nat
  | .x => t.w
  | .y => t.h

/-- The last column or row of a tile. -/
def Tile.last (t : Tile) (a : Axis) : Nat := Tile.first t a + Tile.size t a - 1

/-- The other axis. -/
def Axis.other : Axis → Axis
  | .x => .y
  | .y => .x

/-- The side of a tile at the high or the low end of an axis. -/
def sideOf (a : Axis) (high : Bool) : Side :=
  match a, high with
  | .x, true => .right
  | .x, false => .left
  | .y, true => .bottom
  | .y, false => .top

/-- The position of the desk pointer on an axis. -/
def DeskPointer.pos (p : DeskPointer) : Axis → Nat
  | .x => p.px
  | .y => p.py

/-- The desk pointer with a new position on one axis. -/
def DeskPointer.setPos (p : DeskPointer) (a : Axis) (v : Nat) : DeskPointer :=
  match a with
  | .x => { p with px := v }
  | .y => { p with py := v }

/-- Whether `b` abuts `t` at the high or the low end of an axis, its span on the other axis containing the
coordinate `q` (R11). -/
def abuts (a : Axis) (high : Bool) (t b : Tile) (q : Nat) : Bool :=
  (if high then Tile.first b a == Tile.first t a + Tile.size t a
    else Tile.first t a == Tile.first b a + Tile.size b a) &&
    decide (Tile.first b (Axis.other a) ≤ q ∧ q < Tile.first b (Axis.other a) + Tile.size b (Axis.other a))

/-- The neighbour of a tile at a crossing coordinate (R11). -/
def neighbourAt (layout : List Tile) (a : Axis) (high : Bool) (t : Tile) (q : Nat) : Option Tile :=
  layout.find? fun b => abuts a high t b q

/-- Whether a crossing into a tile is blocked (R24). -/
def crossingBlocked (s : State) (b : Tile) : Bool :=
  s.desk.crossing == .block &&
    match sourceZone s (assignmentOf s b.monitor) with
    | some z => z != s.pointer.glideZone
    | none => false

/-! ### The walk along one axis -/

/-- A move away from the edge that the pressure names resets the pressure (R22). -/
def relieve (a : Axis) (m : Int) (p : DeskPointer) : DeskPointer :=
  match p.pressure.edge with
  | some (_, side) =>
    if side = sideOf a (decide (m < 0)) then { p with pressure := Pressure.none } else p
  | none => p

/-- The edge pressure after a push (R23, steps 1 to 4). -/
def pushPressure (p : DeskPointer) (edge : Monitor × Side) (ov now : Nat) : Pressure :=
  let p1 := if p.pressure.edge = some edge then p.pressure else Pressure.none
  let p2 := match p1.lastPush with
    | some t => if t + p.dwell < now then Pressure.none else p1
    | none => p1
  ⟨some edge, min Config.pressureMax (p2.amount + ov), some now⟩

/-- A push on an edge with an unblocked neighbour (R23, R25). -/
def pushEdge (a : Axis) (high : Bool) (t b : Tile) (ov now : Nat) (p : DeskPointer) : DeskPointer :=
  let q := pushPressure p (t.monitor, sideOf a high) ov now
  if p.threshold ≤ q.amount then
    DeskPointer.setPos (DeskPointer.settled p) a (if high then Tile.first b a else Tile.last b a)
  else { DeskPointer.setPos p a (if high then Tile.last t a else Tile.first t a) with pressure := q }

/-- A candidate beyond the high or the low edge of the tile (R22). -/
def pushOut (a : Axis) (high : Bool) (t : Tile) (ov : Nat) (s : State) : State :=
  let edge := if high then Tile.last t a else Tile.first t a
  match neighbourAt s.layout a high t (DeskPointer.pos s.pointer (Axis.other a)) with
  | some b =>
    if crossingBlocked s b then s.modPointer fun p => DeskPointer.setPos p a edge
    else s.modPointer (pushEdge a high t b ov s.now)
  | none => s.modPointer fun p => DeskPointer.setPos p a edge

/-- Stage B on one axis (R22). -/
def walk (a : Axis) (m : Int) (s : State) : State :=
  if m = 0 then s
  else
    match pointerTile s with
    | none => s
    | some t =>
      let s1 := s.modPointer (relieve a m)
      let c : Int := DeskPointer.pos s.pointer a + m
      if c < Tile.first t a then pushOut a false t (Tile.first t a - c).toNat s1
      else if (Tile.last t a : Int) < c then pushOut a true t (c - Tile.last t a).toNat s1
      else s1.modPointer fun p => DeskPointer.setPos p a c.toNat

/-! ### A motion event -/

/-- A motion event, with the buttons held before the report (R19). -/
structure Motion where
  dx : Int
  dy : Int
  wheel : Int
  buttons : Buttons
  before : Buttons
  deriving DecidableEq, Repr

/-- Whether the pointer is attached to a target of a kind that R28 names. -/
def capturable (s : State) : Bool :=
  attached s &&
    match s.focus.target with
    | .loc n => (s.control n).holder == .desk && effMode s n == .relative
    | .rem k =>
      (s.link k).viewer == .held &&
        match activeOffer s k with
        | some o => o.pointerMode == .relative
        | none => false
    | .none => false

/-- What an event on the relative delta path produces (R27, R29, R36): nothing where the pointer is no longer attached
(DEDUCED, notes/assumptions/23.md). -/
def emitRelative (e : Motion) (s : State) : State :=
  if attached s then
    match s.focus.target with
    | .loc n =>
      if (s.control n).holder = .desk then deliverPointer .desk n (.relative e.buttons e.dx e.dy e.wheel) s else s
    | .rem k =>
      match activeOffer s k with
      | some o =>
        if linkIsRecipient s k ∧ laneState o.mode ≠ .absent then
          sendPointer k (.relative e.buttons e.dx e.dy e.wheel) s
        else s
      | none => s
    | .none => s
  else s

/-- The relative delta path: capture starts or continues (R21, R28). -/
def captured (e : Motion) (s : State) : State :=
  emitRelative e
    (if s.pointer.capture then s
      else s.modPointer fun p => { DeskPointer.settled p with capture := true })

/-- The absolute record of an attached head (R27). -/
def emitAbsolute (e : Motion) (t : Tile) (h : Head) (s : State) : State :=
  let size := effSize s h
  deliverMapped .desk h (stageC s.pointer.px t.x0 t.w size.1) (stageC s.pointer.py t.y0 t.h size.2) e.buttons e.wheel s

/-- The frame of an attached inbound lane whose session is ABSOLUTE (R36). -/
def emitFrame (e : Motion) (t : Tile) (k : LinkId) (m : Mode) (s : State) : State :=
  sendPointer k (.absolute e.buttons (stageC s.pointer.px t.x0 t.w m.width) (stageC s.pointer.py t.y0 t.h m.height)
    e.wheel) s

/-- What a glided event produces where the pointer has ended (R27, R36). -/
def emitGlided (e : Motion) (s : State) : State :=
  if !attached s || capturable s then s
  else
    match pointerTile s with
    | none => s
    | some t =>
      match s.focus.target, assignmentOf s t.monitor with
      | .loc n, some (.head h) => if (s.control n).holder = .desk then emitAbsolute e t h s else s
      | .rem k, _ =>
        match activeOffer s k with
        | some o => if linkIsRecipient s k ∧ laneState o.mode ≠ .absent then emitFrame e t k o.mode s else s
        | none => s
      | _, _ => s

/-- Stage A on both axes, the new residuals stored, and stage B on x and then on y (R21). -/
def moveAndWalk (e : Motion) (s : State) : State :=
  let ax := stageA s.pointer.rx e.dx s.pointer.gain
  let ay := stageA s.pointer.ry e.dy s.pointer.gain
  walk .y ay.1 (walk .x ax.1 (s.modPointer fun p => { p with rx := ax.2, ry := ay.2 }))

/-- The focus is re-evaluated once when the pointer's monitor has changed (R21). -/
def reevaluateIfMoved (before : Option Monitor) (s : State) : State :=
  match pointerMonitor s with
  | some m => if before = some m then s else reevaluate m s
  | none => s

/-- A glided event (R21). -/
def glided (e : Motion) (s : State) : State :=
  emitGlided e (reevaluateIfMoved (pointerMonitor s) (moveAndWalk e s))

/-- A button press with the focus on a SUSPENDED computer is an auto-wake trigger (R166), the focus being the one after the
event (DEDUCED, notes/assumptions/23.md). -/
def wakeByButton (e : Motion) (s : State) : State :=
  match s.focus.target with
  | .loc n =>
    if (s.control n).holder = .desk then wakeIfSuspended n (e.buttons &&& ~~~e.before != 0) s else s
  | _ => s

/-- A motion event (R21). Its record is handed to the port before its press can wake the computer (R166). -/
def motion (e : Motion) (s : State) : State :=
  if blanked s then s
  else wakeByButton e (if s.pointer.capture || capturable s then captured e s else glided e s)

/-! ### The desk pointer port -/

/-- A value held within −`m`..`m`. -/
def clampSigned (m i : Int) : Int := max (-m) (min m i)

/-- A report of an attached mouse becomes a motion event (R19). -/
def mouseReport (dx dy wheel : Int) (buttons : Buttons) (s : State) : State :=
  motion ⟨clampSigned 2047 dx, clampSigned 2047 dy, clampSigned 127 wheel, buttons, s.mouse.buttons⟩
    (s.setMouse ⟨true, buttons⟩)

/-- The mouse detaches (R19). -/
def mouseDetach (s : State) : State :=
  if s.mouse.attached then motion ⟨0, 0, 0, 0, s.mouse.buttons⟩ (s.setMouse ⟨false, 0⟩) else s

/-! ### Requests -/

def judgeSetPointer (body : List Byte) (s : State) : Judged :=
  match body with
  | [g, t1, t0, d1, d0] =>
    okay (s.modPointer fun p =>
      { p with
        gain := clampTo 1 64 g.toNat
        threshold := clampTo 0 1023 (num2 t1 t0)
        dwell := clampTo 50 2000 (num2 d1 d0) })
  | _ => refuse .badLength s

/-- PLACE_POINTER on a monitor and a position (R31). Where several refusals hold, BAD_ARG answers first, then
WRONG_STATE and then BLANKED: R31 and R122 name the cases without an order among them (DESIGN CHOICE,
notes/assumptions/43.md). -/
def placePointer (m : Monitor) (x y : Nat) (s : State) : Judged :=
  match tileOf s.layout m with
  | none => refuse .wrongState s
  | some t =>
    if blanked s then refuse .blanked s
    else
      okay (reevaluate m
        (movePointer (clampTo t.x0 (t.x0 + t.w - 1) x) (clampTo t.y0 (t.y0 + t.h - 1) y) s))

/-- A PLACE_POINTER body; a byte that names no monitor is refused before anything else (notes/assumptions/43.md). -/
def judgePlacePointer (body : List Byte) (s : State) : Judged :=
  match body with
  | [m, x1, x0, y1, y0] =>
    match monitorOf m with
    | some m => placePointer m (num2 x1 x0) (num2 y1 y0) s
    | none => refuse .badArg s
  | _ => refuse .badLength s

/-- The reply of GET_POINTER (R20). R20 speaks of the whole record of R18 and then lists its fields without the last push
time of the edge pressure and without the focus target that gave the glide zone; the reply holds the listed fields, and
neither of these two (DESIGN CHOICE, notes/assumptions/19.md). -/
def pointerReply (s : State) : List Byte :=
  let p := s.pointer
  byte2 p.px ++ byte2 p.py ++ sbyte1 p.rx ++ sbyte1 p.ry ++
    optional 2 (fun e : Monitor × Side => monitorByte e.1 ++ sideByte e.2) p.pressure.edge ++ byte2 p.pressure.amount ++
    flag p.capture ++ byte1 p.glideZone.val ++ byte1 p.gain ++ byte2 p.threshold ++ byte2 p.dwell ++
    ((pointerMonitor s).map monitorByte).getD [0] ++ flag (attached s)

def judgeGetPointer (body : List Byte) (s : State) : Judged :=
  match body with
  | [] => okayWith (pointerReply s) s
  | _ => refuse .badLength s

/-! ### The meanings -/

/-- SET_POINTER (R20). -/
def execSetPointer (tag : Byte) (body : List Byte) (s : State) : Host.Outcome State Fault Refusal :=
  done (runRequest ⟨0x20, tag, body⟩ judgeSetPointer s)

/-- PLACE_POINTER (R31). -/
def execPlacePointer (tag : Byte) (body : List Byte) (s : State) : Host.Outcome State Fault Refusal :=
  done (runRequest ⟨0x21, tag, body⟩ judgePlacePointer s)

/-- GET_POINTER (R20). -/
def execGetPointer (tag : Byte) (body : List Byte) (s : State) : Host.Outcome State Fault Refusal :=
  done (runRequest ⟨0x22, tag, body⟩ judgeGetPointer s)

/-- DESK_POINTER_REPORT (R19, R21). A DETACHED port takes no report. -/
def execDeskPointerReport (dx dy wheel : Int) (buttons : Buttons) (s : State) : Host.Outcome State Fault Refusal :=
  done (if s.mouse.attached then mouseReport dx dy wheel buttons s else s)

/-- DESK_POINTER_ATTACH (R19). -/
def execDeskPointerAttach (s : State) : Host.Outcome State Fault Refusal := done (s.setMouse ⟨true, 0⟩)

/-- DESK_POINTER_DETACH (R19). -/
def execDeskPointerDetach (s : State) : Host.Outcome State Fault Refusal := done (mouseDetach s)

end Sys2Proof.Machine
end

