-- ==== Sys2Proof/Machine/Ports.lean ====
section
/-!
DEFINITION. Chapter 4, the computer ports: the six bus events (R59 to R63), what the computer tells the port (R64,
R65), the polls (R67, R71), the port requests (R77, R78), and the meanings of the chapter's commands.
-/

namespace Sys2Proof.Machine

open Sys2Proof

/-! ### A change of effective pointer mode -/

/-- A link whose outbound session is ACTIVE on a head of Cn sends a MODE frame (R4, R145). -/
def sendModeOfComp (n : Comp) (s : State) (k : LinkId) : State :=
  match Outbound.activeHead (s.link k).outbound with
  | some h => if h.comp = n then sendFrame k (.mode (sentMode s h) (effMode s n)) s else s
  | none => s

/-- What follows when the effective pointer mode of Cn differs from what it was in `old` (R4, R28, R64). -/
def followMode (n : Comp) (old s : State) : State :=
  if effMode old n = effMode s n then s
  else
    let s1 := if effMode s n = .absolute ∧ s.focus.target = .loc n then clearCapture s else s
    allLinks.foldl (sendModeOfComp n) s1

/-! ### Bus events -/

/-- The light report of Cn, when Cn is the focus computer, makes the desk keyboard port check (R57), during a privacy
blank as well (DESIGN CHOICE, notes/assumptions/45.md). -/
def lightsChanged (n : Comp) (s : State) : State := if s.focus.target = .loc n then checkLights s else s

/-- A port as a computer begins it afresh: formats, permission, light report, carry and buttons at their reset
values (R60, R61, R63). -/
def Port.fresh (p : Port) : Port :=
  { p with
    keyFormat := .full
    pointerFormat := .full
    remoteWake := false
    lights := Lights.off
    cx := 0
    cy := 0
    buttons := 0 }

/-- The bus state is written and the router derives its recipients afresh (R59). -/
def setBus (n : Comp) (b : BusState) (s : State) : State := rederive s (s.modPort n fun p => { p with bus := b })

/-- The host is told of a bus state that ends no attempt (R59, R177). -/
def tellBus (n : Comp) (s : State) : State := notifyPower n (.busState false) s

/-- An attach in DETACHED (R60). -/
def attachPort (n : Comp) (s : State) : State :=
  tellBus n (setBus n .attached
    (s.modPort n fun p => { Port.fresh p with keyQueue := [], pointerQueue := [] }))

/-- The port enters ACTIVE: the wake controller's steps, and the POWER notice, which carries WOKEN when an attempt
was in flight (R59, R171). -/
def enterActive (n : Comp) (s : State) : State :=
  notifyPower n (.busState (Attempt.inFlight (s.wakeOf n).attempt)) (wakeActive n (setBus n .active s))

/-- A queue cut to its newest record (R62). -/
def newest {α : Type} (q : List α) : List α := q.drop (q.length - 1)

/-- The port trims both queues on leaving SUSPENDED (R62). -/
def trimPort (p : Port) : Port :=
  { p with
    keyQueue := newest p.keyQueue
    pointerQueue := newest p.pointerQueue
    counters :=
      { p.counters with
        keyTrimmed := countBy (p.keyQueue.length - 1) p.counters.keyTrimmed
        pointerTrimmed := countBy (p.pointerQueue.length - 1) p.counters.pointerTrimmed } }

/-- A resume in SUSPENDED (R62). -/
def resumePort (n : Comp) (s : State) : State := enterActive n (s.modPort n trimPort)

/-- Steps 1 and 2 of a detach and of a port reset (R61, R63): the flushes, the values of a fresh port, the lights and
the change of pointer format. -/
def emptyPort (n : Comp) (s : State) : State :=
  let s1 := flushPort n s
  let s2 := s1.modPort n Port.fresh
  followMode n s1 (lightsChanged n s2)

/-- A detach in any other state than DETACHED (R61, R173). Step 3 of R61 tells the router, the wake controller and the host
at once; the PORT notices of the members that the router releases come first, then the notice of the controller's
PULSE or FAILED, and then the BUS_STATE one (DESIGN CHOICE, notes/assumptions/44.md). -/
def detachPort (n : Comp) (s : State) : State := tellBus n (wakeDetach n (setBus n .detached (emptyPort n s)))

/-- A bus reset in any other state than DETACHED (R63, R173). -/
def resetPort (n : Comp) (s : State) : State :=
  let s1 := wakeBusReset n (setBus n .attached (emptyPort n s))
  if (s.port n).bus = .attached then s1 else tellBus n s1

/-! ### What the computer tells the port -/

/-- A format selection that changes the format (R64). -/
def selectFormat (n : Comp) (i : Interface) (f : Format) (s : State) : State :=
  match i with
  | .keyboard =>
    if (s.port n).keyFormat = f then s else (flushKeys n s).modPort n fun p => { p with keyFormat := f }
  | .pointer =>
    if (s.port n).pointerFormat = f then s
    else followMode n s ((flushPointer n s).modPort n fun p => { p with pointerFormat := f })

/-! ### Polls -/

/-- How a key-state record is reported (R67): a boot record fills its six positions with zeros. -/
def reportRecord (r : KeyRecord) : KeyAnswer :=
  match r.shape with
  | .boot => .report r.mods (r.keys ++ List.replicate (6 - r.keys.length) 0)
  | _ => .report r.mods r.keys

/-- A keyboard poll in ACTIVE (R67). -/
def answerKeys (p : Port) : Port :=
  match p.keyQueue with
  | r :: rest =>
    { p with
      keyQueue := rest
      keyAnswer := some (reportRecord r)
      counters := { p.counters with keyTaken := count p.counters.keyTaken } }
  | [] => { p with keyAnswer := some .noChange }

/-- A pointer poll in ACTIVE under the computer's effective pointer mode (R71). -/
def answerPointer (m : PointerMode) (p : Port) : Port :=
  match p.pointerQueue with
  | r :: rest =>
    { p with
      pointerQueue := rest
      pointerAnswer := some (.report r)
      counters := { p.counters with pointerTaken := count p.counters.pointerTaken } }
  | [] =>
    if p.cx = 0 ∧ p.cy = 0 then { p with pointerAnswer := some .noChange }
    else
      match m with
      | .relative =>
        { p with
          cx := p.cx - clamp127 p.cx
          cy := p.cy - clamp127 p.cy
          pointerAnswer := some (.report (.relative p.buttons (clamp127 p.cx) (clamp127 p.cy) 0))
          counters := { p.counters with carryRecords := count p.counters.carryRecords } }
      | .absolute => { p with cx := 0, cy := 0, pointerAnswer := some .noChange }

/-- A poll in SUSPENDED is first taken as a resume (R62). -/
def pollResumes (n : Comp) (s : State) : State := if (s.port n).bus = .suspended then resumePort n s else s

/-- A keyboard poll (R60, R62, R67). One of a DETACHED port, which cannot arrive (R61), has no effect (DESIGN CHOICE,
notes/assumptions/11.md). -/
def pollKeys (n : Comp) (s : State) : State :=
  match (s.port n).bus with
  | .detached => s
  | .attached => s.modPort n fun p => { p with keyAnswer := some .noChange }
  | _ => (pollResumes n s).modPort n answerKeys

/-- A pointer poll (R60, R62, R71). One of a DETACHED port, which cannot arrive (R61), has no effect (DESIGN CHOICE,
notes/assumptions/11.md). -/
def pollPointer (n : Comp) (s : State) : State :=
  match (s.port n).bus with
  | .detached => s
  | .attached => s.modPort n fun p => { p with pointerAnswer := some .noChange }
  | _ =>
    let s1 := pollResumes n s
    s1.modPort n (answerPointer (effMode s1 n))

/-! ### Requests -/

/-- Every counter of a port (R74). -/
def counterBytes (c : PortCounters) : List Byte :=
  byte4 c.keyQueued ++ byte4 c.keyTaken ++ byte4 c.keyReplaced ++ byte4 c.keyFlushed ++ byte4 c.keyTrimmed ++
    byte4 c.rollovers ++ byte4 c.pointerQueued ++ byte4 c.pointerMerged ++ byte4 c.pointerTaken ++
    byte4 c.pointerReplaced ++ byte4 c.pointerFlushed ++ byte4 c.pointerTrimmed ++ byte4 c.carryRecords ++
    byte4 c.desktopClamps ++ byte4 c.viewOnlyDrops

/-- The reply of GET_PORT (R77). The pointer buttons, which may be none (R58), are their one set byte, without a presence
byte (DESIGN CHOICE, notes/assumptions/19.md). -/
def portReply (n : Comp) (s : State) : List Byte :=
  let p := s.port n
  busByte p.bus ++ formatByte p.keyFormat ++ formatByte p.pointerFormat ++ flag p.remoteWake ++ lightBytes p.lights ++
    pointerModeByte (effMode s n) ++ byte1 p.flow ++ byte1 p.keyQueue.length ++ byte1 p.pointerQueue.length ++
    sbyte2 p.cx ++ sbyte2 p.cy ++ buttonByte p.buttons ++ flag p.noticed ++ counterBytes p.counters

def judgeGetPort (body : List Byte) (s : State) : Judged :=
  match body with
  | [b0] =>
    match compOf b0 with
    | some n => okayWith (portReply n s) s
    | none => refuse .badArg s
  | _ => refuse .badLength s

/-- The counters of a port become 0 and its replacement noticed flag is cleared (R78). -/
def clearPort (s : State) (n : Comp) : State :=
  s.modPort n fun p => { p with counters := PortCounters.zero, noticed := false }

/-- The counts of a desk link become 0 (R136). -/
def clearLink (s : State) (k : LinkId) : State := s.modLink k fun l => { l with counters := LinkCounters.zero }

/-- The counts of the receiver and the overrun count become 0 (R187). -/
def clearSupCounts (p : Supervisor) : Supervisor :=
  { p with lengthErrors := 0, crcErrors := 0, gapErrors := 0, byteErrors := 0, overruns := 0 }

/-- The counts that every accepted CLEAR_COUNTERS clears, whatever port it names (R47, R96, R136, R187). -/
def clearOthers (s : State) : State :=
  let s1 := s.modKeyboard fun k => { k with ignoredPresses := 0, rollovers := 0 }
  let s2 := s1.modMatcher fun m => { m with fired := 0, suppressed := 0, refused := 0 }
  (allLinks.foldl clearLink s2).modSup clearSupCounts

/-- The ports that a port number 0..8 names (R78). -/
def portsOf (b : Byte) : Option (List Comp) := if b = 0 then some allComps else (compOf b).map fun n => [n]

def judgeClearCounters (body : List Byte) (s : State) : Judged :=
  match body with
  | [b0] =>
    match portsOf b0 with
    | some ns => okay (clearOthers (ns.foldl clearPort s))
    | none => refuse .badArg s
  | _ => refuse .badLength s

def judgeSetPort (body : List Byte) (s : State) : Judged :=
  match body with
  | [b0, b1] =>
    match compOf b0 with
    | some n => okay (s.modPort n fun p => { p with flow := clampTo 1 16 b1.toNat })
    | none => refuse .badArg s
  | _ => refuse .badLength s

/-! ### The meanings -/

/-- GET_PORT (R77). -/
def execGetPort (tag : Byte) (body : List Byte) (s : State) : Host.Outcome State Fault Refusal :=
  done (runRequest ⟨0x30, tag, body⟩ judgeGetPort s)

/-- CLEAR_COUNTERS (R78). -/
def execClearCounters (tag : Byte) (body : List Byte) (s : State) : Host.Outcome State Fault Refusal :=
  done (runRequest ⟨0x31, tag, body⟩ judgeClearCounters s)

/-- SET_PORT (R77). -/
def execSetPort (tag : Byte) (body : List Byte) (s : State) : Host.Outcome State Fault Refusal :=
  done (runRequest ⟨0x32, tag, body⟩ judgeSetPort s)

/-- PORT_ATTACH (R59, R60). -/
def execPortAttach (n : Comp) (s : State) : Host.Outcome State Fault Refusal :=
  done (if (s.port n).bus = .detached then attachPort n s else s)

/-- PORT_CONFIGURE (R59, R60, R62). -/
def execPortConfigure (n : Comp) (s : State) : Host.Outcome State Fault Refusal :=
  done (match (s.port n).bus with
    | .attached => enterActive n s
    | .suspended => resumePort n s
    | _ => s)

/-- PORT_SUSPEND (R59, R60). -/
def execPortSuspend (n : Comp) (s : State) : Host.Outcome State Fault Refusal :=
  done (if (s.port n).bus = .active then tellBus n (setBus n .suspended s) else s)

/-- PORT_RESUME (R59, R62). -/
def execPortResume (n : Comp) (s : State) : Host.Outcome State Fault Refusal :=
  done (if (s.port n).bus = .suspended then resumePort n s else s)

/-- BUS_RESET (R63). -/
def execBusReset (n : Comp) (s : State) : Host.Outcome State Fault Refusal :=
  done (if (s.port n).bus = .detached then s else resetPort n s)

/-- PORT_DETACH (R61). -/
def execPortDetach (n : Comp) (s : State) : Host.Outcome State Fault Refusal :=
  done (if (s.port n).bus = .detached then s else detachPort n s)

/-- FORMAT_SELECT (R64), at any bus state other than DETACHED. -/
def execFormatSelect (n : Comp) (i : Interface) (f : Format) (s : State) : Host.Outcome State Fault Refusal :=
  done (if (s.port n).bus = .detached then s else selectFormat n i f s)

/-- REMOTE_WAKE_SET (R65), at any bus state other than DETACHED. -/
def execRemoteWakeSet (n : Comp) (on : Bool) (s : State) : Host.Outcome State Fault Refusal :=
  done (if (s.port n).bus = .detached then s else s.modPort n fun p => { p with remoteWake := on })

/-- LIGHT_REPORT (R65). A computer that is DETACHED sends none. -/
def execLightReport (n : Comp) (lights : Lights) (s : State) : Host.Outcome State Fault Refusal :=
  done (if (s.port n).bus = .detached then s
    else lightsChanged n (s.modPort n fun p => { p with lights := lights }))

/-- KEYBOARD_POLL (R67). -/
def execKeyboardPoll (n : Comp) (s : State) : Host.Outcome State Fault Refusal := done (pollKeys n s)

/-- POINTER_POLL (R71). -/
def execPointerPoll (n : Comp) (s : State) : Host.Outcome State Fault Refusal := done (pollPointer n s)

end Sys2Proof.Machine
end

