-- ==== Sys2Proof/Machine/Tables.lean ====
section
/-!
DEFINITION. Chapter 1, the desk model tables: SET_COMPUTER and what it sets moving (R2 to R4), the head maps (R6, R7),
the layout (R9, R10, R32), the desk settings (R12), the configuration lock (R13 to R15), and the meanings of the
chapter's commands.
-/

namespace Sys2Proof.Machine

open Sys2Proof

/-! ### The lock -/

/-- SET_LOCK on a level (R13). -/
def setLock (level : Nat) (s : State) : Judged :=
  if 3 < level then refuse .badArg s
  else if s.lock.used then refuse .locked s
  else okay (s.setLock ⟨level, true⟩)

def judgeSetLock (body : List Byte) (s : State) : Judged :=
  match body with
  | [b0] => setLock b0.toNat s
  | _ => refuse .badLength s

/-! ### Computer records -/

/-- The record that a SET_COMPUTER body carries, clamped, its member flag taken from the record held (R2). -/
def compRecordOf (old : CompRecord) (z p sp q1 q0 aw wm t1 t0 w1 w0 vw1 vw0 vh1 vh0 : Byte) : Option CompRecord :=
  match zoneOf z, pointerModeOf p, sharePolicyOf sp, flagOf aw, wakeMethodOf wm with
  | some z, some p, some sp, some aw, some wm =>
    let vw := num2 vw1 vw0
    let vh := num2 vh1 vh0
    if 1 ≤ vw ∧ vw ≤ 16384 ∧ 1 ≤ vh ∧ vh ≤ 16384 then
      some
        { zone := z
          pointerMode := p
          member := old.member
          policy := sp
          quietTime := clampTo 0 60000 (num2 q1 q0)
          autoWake := aw
          method := wm
          wakeTimeout := clampTo 1000 30000 (num2 t1 t0)
          pulseWidth := clampTo 50 5000 (num2 w1 w0)
          vw := vw
          vh := vh }
    else none
  | _, _, _, _, _ => none

/-- Whether a SET_COMPUTER would change a field that the lock level freezes (R14, R15). -/
def compLocked (s : State) (old new : CompRecord) : Bool :=
  (frozen 1 s && (new.zone != old.zone || new.policy != old.policy)) ||
    (frozen 3 s && (new.pointerMode != old.pointerMode || new.vw != old.vw || new.vh != old.vh))

/-- The glide zone takes the new zone of the computer that gave it (R3). -/
def refreshGlideZone (n : Comp) (s : State) : State :=
  if s.pointer.glideFrom = .loc n then s.modPointer fun p => { p with glideZone := (s.comp n).zone } else s

/-- A computer record is written and the blocks act on what has changed (R3, R4). Where one request changes several
fields, the recipients are derived afresh first, then the MODE frames are sent, and the automatic grant is judged last
(DESIGN CHOICE, notes/assumptions/33.md). -/
def writeComp (n : Comp) (r : CompRecord) (s : State) : State :=
  let old := s.comp n
  let s1 := s.modComp n fun _ => r
  let s2 := rederive s s1
  let s3 := if r.zone = old.zone then s2 else refreshGlideZone n s2
  let s4 := followMode n s s3
  if r.quietTime = old.quietTime ∧ r.policy = old.policy then s4 else autoGrant n s4

/-- SET_COMPUTER on a computer and a clamped record (R2, R15). -/
def setComputer (n : Comp) (r : CompRecord) (s : State) : Judged :=
  if compLocked s (s.comp n) r then refuse .locked s else okay (writeComp n r s)

def judgeSetComputer (body : List Byte) (s : State) : Judged :=
  match body with
  | [b0, z, p, sp, q1, q0, aw, wm, t1, t0, w1, w0, vw1, vw0, vh1, vh0] =>
    match compOf b0 with
    | some n =>
      match compRecordOf (s.comp n) z p sp q1 q0 aw wm t1 t0 w1 w0 vw1 vw0 vh1 vh0 with
      | some r => setComputer n r s
      | none => refuse .badArg s
    | none => refuse .badArg s
  | _ => refuse .badLength s

/-- The reply of GET_COMPUTER: the fields in the order of R1, and the effective pointer mode (R5). -/
def compReply (n : Comp) (s : State) : List Byte :=
  let c := s.comp n
  byte1 c.zone.val ++ pointerModeByte c.pointerMode ++ flag c.member ++ policyByte c.policy ++ byte2 c.quietTime ++
    flag c.autoWake ++ methodByte c.method ++ byte2 c.wakeTimeout ++ byte2 c.pulseWidth ++ byte2 c.vw ++ byte2 c.vh ++
    pointerModeByte (effMode s n)

def judgeGetComputer (body : List Byte) (s : State) : Judged :=
  match body with
  | [b0] =>
    match compOf b0 with
    | some n => okayWith (compReply n s) s
    | none => refuse .badArg s
  | _ => refuse .badLength s

/-! ### Head maps -/

/-- The head map entry that a SET_HEAD body carries (R6). -/
def headMapOf (e x1 x0 y1 y0 w1 w0 h1 h0 : Byte) : Option HeadMap :=
  match flagOf e with
  | some e =>
    let m : HeadMap := ⟨e, num2 x1 x0, num2 y1 y0, num2 w1 w0, num2 h1 h0⟩
    if m.ox ≤ 16383 ∧ m.oy ≤ 16383 ∧ 1 ≤ m.w ∧ m.w ≤ Config.headSizeMax ∧ 1 ≤ m.h ∧ m.h ≤ Config.headSizeMax then
      some m
    else none
  | none => none

/-- SET_HEAD on a head and an entry (R6, R7, R15). -/
def setHead (h : Head) (m : HeadMap) (s : State) : Judged :=
  if frozen 3 s && m != s.headMap h then refuse .locked s
  else
    let s1 := s.setHeadMap h m
    okay (if effSize s1 h = effSize s h then s1 else allLinks.foldl (sendModeFor h) s1)

def judgeSetHead (body : List Byte) (s : State) : Judged :=
  match body with
  | [b0, b1, e, x1, x0, y1, y0, w1, w0, h1, h0] =>
    match compOf b0, letterOf b1, headMapOf e x1 x0 y1 y0 w1 w0 h1 h0 with
    | some n, some l, some m => setHead ⟨n, l⟩ m s
    | _, _, _ => refuse .badArg s
  | _ => refuse .badLength s

/-! ### The layout -/

/-- Whether two tiles have a desk unit in common (R9). -/
def Tile.overlaps (a b : Tile) : Bool :=
  decide (a.x0 < b.x0 + b.w ∧ b.x0 < a.x0 + a.w ∧ a.y0 < b.y0 + b.h ∧ b.y0 < a.y0 + a.h)

/-- Whether a tile's own fields are in range (R9). -/
def Tile.inRange (t : Tile) : Bool :=
  decide (t.x0 ≤ 16383 ∧ t.y0 ≤ 16383 ∧ 8 ≤ t.w ∧ t.w ≤ 16384 ∧ 8 ≤ t.h ∧ t.h ≤ 16384 ∧
    t.x0 + t.w ≤ 16384 ∧ t.y0 + t.h ≤ 16384)

/-- Whether no two tiles of a list name one monitor or overlap (R9). -/
def tilesApart : List Tile → Bool
  | [] => true
  | t :: rest => rest.all (fun u => u.monitor != t.monitor && !Tile.overlaps t u) && tilesApart rest

/-- Whether a tile list passes the checks of R9. -/
def layoutOk (ts : List Tile) : Bool :=
  decide (1 ≤ ts.length ∧ ts.length ≤ 4) && ts.all Tile.inRange && tilesApart ts

/-- An insertion of a tile in monitor order. -/
def insertTile (t : Tile) : List Tile → List Tile
  | [] => [t]
  | u :: rest => if t.monitor.val ≤ u.monitor.val then t :: u :: rest else u :: insertTile t rest

/-- A tile list in monitor order (R8). -/
def sortTiles (ts : List Tile) : List Tile := ts.foldr insertTile []

/-- The position that a layout change gives the pointer (R32): held within the new tile of its monitor, or the centre
of the lowest-numbered tile. -/
def repositioned (m : Option Monitor) (layout : List Tile) (p : DeskPointer) : Nat × Nat :=
  match m.bind (tileOf layout) with
  | some t => (clampTo t.x0 (t.x0 + t.w - 1) p.px, clampTo t.y0 (t.y0 + t.h - 1) p.py)
  | none =>
    match layout with
    | t :: _ => Tile.centre t
    | [] => (p.px, p.py)

/-- A layout change is signalled (R10, R32). -/
def changeLayout (ts : List Tile) (s : State) : State :=
  let before := pointerMonitor s
  let q := repositioned before ts s.pointer
  let s1 := movePointer q.1 q.2 (s.setLayout ts)
  if before.isSome ∧ s.focus.tile = before then
    match pointerMonitor s1 with
    | some m => reevaluate m s1
    | none => s1
  else s1

/-- SET_LAYOUT on a list in monitor order that has passed its checks (R10, R15). -/
def setLayout (ts : List Tile) (s : State) : Judged :=
  if ts = s.layout then okay s
  else if frozen 3 s then refuse .locked s
  else okay (changeLayout ts s)

def judgeSetLayout (body : List Byte) (s : State) : Judged :=
  match body with
  | n :: rest =>
    if rest.length = 9 * n.toNat then
      match tilesOf rest with
      | some ts => if layoutOk ts then setLayout (sortTiles ts) s else refuse .badArg s
      | none => refuse .badArg s
    else refuse .badLength s
  | _ => refuse .badLength s

/-- A tile in the reply of GET_LAYOUT, as in SET_LAYOUT. -/
def tileBytes (t : Tile) : List Byte := monitorByte t.monitor ++ byte2 t.x0 ++ byte2 t.y0 ++ byte2 t.w ++ byte2 t.h

def judgeGetLayout (body : List Byte) (s : State) : Judged :=
  match body with
  | [] => okayWith (listBytes tileBytes s.layout ++ zoneSetByte s.desk.zones ++ crossingByte s.desk.crossing) s
  | _ => refuse .badLength s

/-! ### The desk settings -/

def judgeSetDesk (body : List Byte) (s : State) : Judged :=
  match body with
  | [z, c] =>
    match zoneSetOf z, crossingOf c with
    | some z, some c =>
      if frozen 1 s && (⟨z, c⟩ : DeskSettings) != s.desk then refuse .locked s else okay (s.setDesk ⟨z, c⟩)
    | _, _ => refuse .badArg s
  | _ => refuse .badLength s

/-! ### The meanings -/

/-- SET_LOCK (R13). -/
def execSetLock (tag : Byte) (body : List Byte) (s : State) : Host.Outcome State Fault Refusal :=
  done (runRequest ⟨0x05, tag, body⟩ judgeSetLock s)

/-- SET_COMPUTER (R2). -/
def execSetComputer (tag : Byte) (body : List Byte) (s : State) : Host.Outcome State Fault Refusal :=
  done (runRequest ⟨0x10, tag, body⟩ judgeSetComputer s)

/-- GET_COMPUTER (R5). -/
def execGetComputer (tag : Byte) (body : List Byte) (s : State) : Host.Outcome State Fault Refusal :=
  done (runRequest ⟨0x11, tag, body⟩ judgeGetComputer s)

/-- SET_HEAD (R6). -/
def execSetHead (tag : Byte) (body : List Byte) (s : State) : Host.Outcome State Fault Refusal :=
  done (runRequest ⟨0x12, tag, body⟩ judgeSetHead s)

/-- SET_LAYOUT (R9). -/
def execSetLayout (tag : Byte) (body : List Byte) (s : State) : Host.Outcome State Fault Refusal :=
  done (runRequest ⟨0x13, tag, body⟩ judgeSetLayout s)

/-- GET_LAYOUT (R10). -/
def execGetLayout (tag : Byte) (body : List Byte) (s : State) : Host.Outcome State Fault Refusal :=
  done (runRequest ⟨0x14, tag, body⟩ judgeGetLayout s)

/-- SET_DESK (R12). -/
def execSetDesk (tag : Byte) (body : List Byte) (s : State) : Host.Outcome State Fault Refusal :=
  done (runRequest ⟨0x15, tag, body⟩ judgeSetDesk s)

end Sys2Proof.Machine
end

