-- ==== Sys2Proof/Machine/Reset.lean ====
section
/-!
DEFINITION. The two resets: the device reset (R195 and each chapter's device reset values) and the warm reset (R194,
with R17, R76, R87, R114, R119, R147, R160, R175 and R184), and their meanings.
-/

namespace Sys2Proof.Machine

open Sys2Proof

/-! ### Device reset -/

/-- A line after a device reset, its wiring outside as it stands. -/
def lineAfterReset (t : Nat) (l : Line) : Line := Line.reset t l.wireLevel l.wireStrong

/-- The cause that a device reset leaves (R195). -/
def DeviceResetCause.cause : DeviceResetCause → ResetCause
  | .powerOn => .powerOn
  | .resetPin => .resetPin

/-- A device reset: every block takes its device reset values. The timebase runs on, the wiring outside stands as it
is, and the commands that wait go on waiting. -/
def deviceReset (c : DeviceResetCause) (s : State) : State :=
  { State.reset with
    now := s.now
    links := Vector.replicate 2 (Link.reset s.now)
    lines := s.lines.map (lineAfterReset s.now)
    sup := Supervisor.reset (DeviceResetCause.cause c)
    pending := s.pending }

/-! ### Warm reset -/

/-- END(RESET) for each session of an UP link that is not NONE (R147, step 1). -/
def sendEnds (s : State) (k : LinkId) : State :=
  if (s.link k).up then
    let s1 := if (s.link k).outbound = .none then s else sendFrame k (.endSession .owner .reset) s
    if (s.link k).inbound = .none then s1 else sendFrame k (.endSession .viewer .reset) s1
  else s

/-- Both sessions of a link become NONE (R147, step 2). -/
def endSessions (s : State) (k : LinkId) : State := inEnd k none none (outEnd k none none s)

/-- The links end their sessions, once the control lock table has returned every computer to the desk without a
record, a frame or a notice (R147, R160). -/
def resetSessions (s : State) : State :=
  let s1 := allLinks.foldl sendEnds s
  allLinks.foldl endSessions { s1 with controls := Vector.replicate 8 Control.reset }

/-- An output at its default target, which a warm reset leaves as it is (R114, step 3). -/
def atDefault (o : OutputId) (r : Output) : Bool :=
  match defaultTarget o with
  | some i => r.state == .showing && r.assignment == some i
  | none => r.state == .dark && r.assignment == none

/-- The target of an output after a warm reset (R114, step 3). -/
def giveDefault (o : OutputId) (r : Output) : Output :=
  if atDefault o r then r
  else
    match r.state with
    | .blanking _ e => { r with state := .blanking (defaultTarget o) e }
    | _ => { r with pendingSlot := some (defaultTarget o) }

/-- An output at a warm reset (R114, steps 1 and 3). -/
def warmOutput (s : State) (o : OutputId) : State :=
  s.modOut o fun r => giveDefault o { Output.reset none with assignment := r.assignment, state := r.state }

/-- The crosspoint controller's warm reset (R114). -/
def resetVideo (s : State) : State :=
  allOutputs.foldl warmOutput { s with crosspointStart := none, scenes := Vector.replicate 16 none }

/-- A line at a warm reset, once the pulses have ended (R184, steps 2 and 3). -/
def warmLine (l : Line) : Line :=
  { l with
    config := LineConfig.reset
    filtered := none
    candidate := none
    level := false
    hold := if Role.isOutput l.config.role then some (Line.pin l) else l.hold }

/-- The filter of a line starts afresh (R184, step 4). -/
def restartFilter (s : State) (l : LineId) : State := refilter l s

/-- A pulse in flight ends (R175, R184 step 1). -/
def endPulseOf (s : State) (n : Comp) : State := endPulse n s

/-- The wake controller's and the line controller's warm resets (R175, R184). -/
def resetLines (s : State) : State :=
  let s1 := allComps.foldl endPulseOf s
  allLines.foldl restartFilter
    { s1 with wake := Vector.replicate 8 WakeRecord.reset, lines := s1.lines.map warmLine }

/-- A port at a warm reset (R76). -/
def warmPort (p : Port) : Port :=
  { Port.reset with
    bus := p.bus
    keyFormat := p.keyFormat
    pointerFormat := p.pointerFormat
    remoteWake := p.remoteWake
    lights := p.lights
    keyAnswer := p.keyAnswer
    pointerAnswer := p.pointerAnswer }

/-- The tables, the input router, the ports, the hotkey matcher and the privacy blank unit at a warm reset (R17, R18,
R38, R45, R49, R54, R76, R87, R119). -/
def resetDeskSide (s : State) : State :=
  { s with
    comps := State.reset.comps
    heads := State.reset.heads
    layout := State.reset.layout
    desk := State.reset.desk
    lock := State.reset.lock
    pointer := State.reset.pointer
    focus := State.reset.focus
    keyboard := ⟨s.keyboard.attached, KeyState.empty, none, 0, 0⟩
    router := Router.reset
    ports := s.ports.map warmPort
    hotkeys := State.reset.hotkeys
    matcher := Matcher.reset
    lineTriggers := State.reset.lineTriggers
    blank := BlankUnit.reset }

/-- The record of a link at a warm reset (R135, R147 step 3). -/
def warmLink (s : State) (k : LinkId) : State :=
  s.modLink k fun l =>
    { l with enabled := true, receiver := [], outbound := .none, inbound := .none, viewer := .none,
             counters := LinkCounters.zero }

/-- An ALIVE is sent at the end of the reset (R147, step 4). -/
def warmAlive (s : State) (k : LinkId) : State := sendAlive k s

/-- The supervisor link at a warm reset, READY placed in the empty notice queue (R194). -/
def warmSup : Supervisor :=
  { Supervisor.reset .request with sending := none, notices := [readyFrame .request] }

/-- The warm reset (R194). -/
def warmReset (s : State) : State :=
  let s1 := resetDeskSide (resetLines (resetVideo (resetSessions s)))
  let s2 := checkLights (allLinks.foldl warmAlive (allLinks.foldl warmLink s1))
  { s2 with sup := warmSup }

/-! ### The meanings -/

/-- DEVICE_RESET (R195). -/
def execDeviceReset (c : DeviceResetCause) (s : State) : Host.Outcome State Fault Refusal := done (deviceReset c s)

/-- WARM_RESET (R194): it begins when the last byte of a RESET reply has been sent. -/
def execWarmReset (s : State) : Host.Outcome State Fault Refusal :=
  done (if s.sup.resetDue then warmReset s else s)

end Sys2Proof.Machine
end

