-- ==== Sys2Proof/Machine/Clock.lean ====
section
/-!
DEFINITION. What the KD84 does of itself: the request at the head of the request queue (R189), the warm reset after a
RESET reply (R194), and the events of the timebase that are due. It acts when no command waits
(notes/assumptions/4.md).
-/

namespace Sys2Proof.Machine

open Sys2Proof

/-- Whether a deadline has come. -/
def dueAt (s : State) (d : Option Nat) : Bool :=
  match d with
  | some t => decide (t ≤ s.now)
  | none => false

/-- A command that is due when its deadline has come. -/
def whenDue (s : State) (d : Option Nat) (c : Instr) : List Instr := if dueAt s d then [c] else []

/-- The warm reset that follows a RESET reply (R194). -/
def dueWarmReset (s : State) : List Instr := if s.sup.resetDue then [.warmReset] else []

/-- The request whose turn has come (R189). -/
def dueRequest (s : State) : List Instr :=
  match s.sup.requests, s.sup.waiting with
  | r :: _, none => [requestCommand r.kind r.tag r.body]
  | _, _ => []

/-- The end of the filter time of a line's candidate. -/
def filterDue (s : State) (l : LineId) : List Instr :=
  if Line.filtering (s.line l) then
    whenDue s ((s.line l).candidate.map fun c => c.2 + (s.line l).config.filter) (.lineFilterExpiry l)
  else []

/-- The expiries of the hotkey matcher. -/
def matcherDue (s : State) : List Instr :=
  (match s.matcher.state with
    | .tapping _ _ false d => whenDue s d .tapWindowExpiry
    | .command d => whenDue s (some d) .commandWindowExpiry
    | _ => []) ++
    allLines.flatMap fun l => whenDue s (s.lineTrigger l).deadline (.lineWindowExpiry l)

/-- The events of an output in BLANKING or LOCKING. -/
def outputDue (s : State) (o : OutputId) : List Instr :=
  match (s.out o).state with
  | .blanking _ e => whenDue s (some e) (.blankEnd o)
  | .locking d st =>
    whenDue s (st.map (· + Config.lockStable)) (.lockStable o) ++ whenDue s (some d) (.lockTimeout o)
  | _ => []

/-- The hold expiry of the privacy blank unit. -/
def blankDue (s : State) : List Instr :=
  match s.blank.state with
  | .recovering d => whenDue s (some d) .holdExpiry
  | _ => []

/-- The stage ends of a wake attempt. -/
def wakeDue (s : State) (n : Comp) : List Instr :=
  match (s.wakeOf n).attempt with
  | .busSignal _ e => whenDue s (some e) (.wakeSignalEnd n)
  | .pulse _ _ e => whenDue s (some e) (.wakePulseEnd n)
  | .wait _ .busStage e => whenDue s (some e) (.wakeBusStageEnd n)
  | .wait f .final _ => whenDue s (some f.deadline) (.wakeDeadline n)
  | _ => []

/-- The automatic grant of a computer whose quiet timer has reached its quiet time. -/
def quietDue (s : State) (n : Comp) : List Instr := if autoGrantDue s n then [.quietTimeReached n] else []

/-- The timers of a desk link. -/
def linkDue (s : State) (k : LinkId) : List Instr :=
  whenDue s (silenceTime s k) (.linkSilence k) ++
    whenDue s ((Outbound.offerTime (s.link k).outbound).map (· + Config.offerTimeout)) (.outboundOfferTimeout k) ++
    whenDue s ((Inbound.offerTime (s.link k).inbound).map (· + Config.offerTimeout)) (.inboundOfferTimeout k) ++
    (if (s.link k).enabled then whenDue s (some (s.link k).nextAlive) (.aliveTimer k) else [])

/-- Everything that is due, in the order the model takes it: what a request starts at once comes before the next
request, as the switch of the worked case 12.5 does (notes/assumptions/4.md). -/
def dueCommands (s : State) : List Instr :=
  dueWarmReset s ++
    whenDue s (s.sup.receiver.getLast?.map fun b => b.2 + Config.byteGap + 1) .gapTimeout ++
    allLines.flatMap (filterDue s) ++
    matcherDue s ++
    allOutputs.flatMap (outputDue s) ++
    whenDue s (startTime s) .switchStart ++
    blankDue s ++
    allComps.flatMap (wakeDue s) ++
    allComps.flatMap (quietDue s) ++
    allLinks.flatMap (linkDue s) ++
    dueRequest s

/-- A millisecond of the timebase. -/
def tick (s : State) : State := s.setNow (s.now + 1)

end Sys2Proof.Machine
end

