-- ==== Sys2Proof/Machine/Dispatch.lean ====
section
/-!
DEFINITION. The command that runs: one arm for each constructor of `Instr`, one meaning for each arm.
-/

namespace Sys2Proof.Machine

open Sys2Proof

def exec (i : Instr) (s : State) : Host.Outcome State Fault Refusal :=
  match i with
  | .deviceReset cause => Sys2Proof.Machine.execDeviceReset cause s
  | .warmReset => Sys2Proof.Machine.execWarmReset s
  | .supervisorFrameReceived bytes => Sys2Proof.Machine.execSupervisorFrameReceived bytes s
  | .gapTimeout => Sys2Proof.Machine.execGapTimeout s
  | .byteError => Sys2Proof.Machine.execByteError s
  | .transmitDone => Sys2Proof.Machine.execTransmitDone s
  | .unknownKind kind tag body => Sys2Proof.Machine.execUnknownKind kind tag body s
  | .getStatus tag body => Sys2Proof.Machine.execGetStatus tag body s
  | .reset tag body => Sys2Proof.Machine.execReset tag body s
  | .subscribe tag body => Sys2Proof.Machine.execSubscribe tag body s
  | .unsubscribe tag body => Sys2Proof.Machine.execUnsubscribe tag body s
  | .setLock tag body => Sys2Proof.Machine.execSetLock tag body s
  | .setComputer tag body => Sys2Proof.Machine.execSetComputer tag body s
  | .getComputer tag body => Sys2Proof.Machine.execGetComputer tag body s
  | .setHead tag body => Sys2Proof.Machine.execSetHead tag body s
  | .setLayout tag body => Sys2Proof.Machine.execSetLayout tag body s
  | .getLayout tag body => Sys2Proof.Machine.execGetLayout tag body s
  | .setDesk tag body => Sys2Proof.Machine.execSetDesk tag body s
  | .setPointer tag body => Sys2Proof.Machine.execSetPointer tag body s
  | .placePointer tag body => Sys2Proof.Machine.execPlacePointer tag body s
  | .getPointer tag body => Sys2Proof.Machine.execGetPointer tag body s
  | .setFocus tag body => Sys2Proof.Machine.execSetFocus tag body s
  | .getFocus tag body => Sys2Proof.Machine.execGetFocus tag body s
  | .setBroadcast tag body => Sys2Proof.Machine.execSetBroadcast tag body s
  | .getPort tag body => Sys2Proof.Machine.execGetPort tag body s
  | .clearCounters tag body => Sys2Proof.Machine.execClearCounters tag body s
  | .setPort tag body => Sys2Proof.Machine.execSetPort tag body s
  | .setHotkey tag body => Sys2Proof.Machine.execSetHotkey tag body s
  | .getHotkey tag body => Sys2Proof.Machine.execGetHotkey tag body s
  | .clearHotkey tag body => Sys2Proof.Machine.execClearHotkey tag body s
  | .trigger tag body => Sys2Proof.Machine.execTrigger tag body s
  | .setHotkeyTiming tag body => Sys2Proof.Machine.execSetHotkeyTiming tag body s
  | .switch tag body => Sys2Proof.Machine.execSwitch tag body s
  | .getOutput tag body => Sys2Proof.Machine.execGetOutput tag body s
  | .setOutput tag body => Sys2Proof.Machine.execSetOutput tag body s
  | .storeScene tag body => Sys2Proof.Machine.execStoreScene tag body s
  | .recallScene tag body => Sys2Proof.Machine.execRecallScene tag body s
  | .getHead tag body => Sys2Proof.Machine.execGetHead tag body s
  | .blank tag body => Sys2Proof.Machine.execBlank tag body s
  | .resume tag body => Sys2Proof.Machine.execResume tag body s
  | .setBlank tag body => Sys2Proof.Machine.execSetBlank tag body s
  | .setLink tag body => Sys2Proof.Machine.execSetLink tag body s
  | .getLink tag body => Sys2Proof.Machine.execGetLink tag body s
  | .offerShare tag body => Sys2Proof.Machine.execOfferShare tag body s
  | .acceptShare tag body => Sys2Proof.Machine.execAcceptShare tag body s
  | .declineShare tag body => Sys2Proof.Machine.execDeclineShare tag body s
  | .endShare tag body => Sys2Proof.Machine.execEndShare tag body s
  | .grantControl tag body => Sys2Proof.Machine.execGrantControl tag body s
  | .refuseClaim tag body => Sys2Proof.Machine.execRefuseClaim tag body s
  | .takeBack tag body => Sys2Proof.Machine.execTakeBack tag body s
  | .claimControl tag body => Sys2Proof.Machine.execClaimControl tag body s
  | .releaseControl tag body => Sys2Proof.Machine.execReleaseControl tag body s
  | .getControl tag body => Sys2Proof.Machine.execGetControl tag body s
  | .wake tag body => Sys2Proof.Machine.execWake tag body s
  | .getPower tag body => Sys2Proof.Machine.execGetPower tag body s
  | .setLine tag body => Sys2Proof.Machine.execSetLine tag body s
  | .getLines tag body => Sys2Proof.Machine.execGetLines tag body s
  | .driveLine tag body => Sys2Proof.Machine.execDriveLine tag body s
  | .deskKeyboardReport mods keys => Sys2Proof.Machine.execDeskKeyboardReport mods keys s
  | .deskKeyboardAttach => Sys2Proof.Machine.execDeskKeyboardAttach s
  | .deskKeyboardDetach => Sys2Proof.Machine.execDeskKeyboardDetach s
  | .deskPointerReport dx dy wheel buttons => Sys2Proof.Machine.execDeskPointerReport dx dy wheel buttons s
  | .deskPointerAttach => Sys2Proof.Machine.execDeskPointerAttach s
  | .deskPointerDetach => Sys2Proof.Machine.execDeskPointerDetach s
  | .tapWindowExpiry => Sys2Proof.Machine.execTapWindowExpiry s
  | .commandWindowExpiry => Sys2Proof.Machine.execCommandWindowExpiry s
  | .lineWindowExpiry l => Sys2Proof.Machine.execLineWindowExpiry l s
  | .portAttach n => Sys2Proof.Machine.execPortAttach n s
  | .portConfigure n => Sys2Proof.Machine.execPortConfigure n s
  | .portSuspend n => Sys2Proof.Machine.execPortSuspend n s
  | .portResume n => Sys2Proof.Machine.execPortResume n s
  | .busReset n => Sys2Proof.Machine.execBusReset n s
  | .portDetach n => Sys2Proof.Machine.execPortDetach n s
  | .formatSelect n x f => Sys2Proof.Machine.execFormatSelect n x f s
  | .remoteWakeSet n on => Sys2Proof.Machine.execRemoteWakeSet n on s
  | .lightReport n lights => Sys2Proof.Machine.execLightReport n lights s
  | .keyboardPoll n => Sys2Proof.Machine.execKeyboardPoll n s
  | .pointerPoll n => Sys2Proof.Machine.execPointerPoll n s
  | .signalFound h => Sys2Proof.Machine.execSignalFound h s
  | .modeMeasured h m => Sys2Proof.Machine.execModeMeasured h m s
  | .signalLost h => Sys2Proof.Machine.execSignalLost h s
  | .switchStart => Sys2Proof.Machine.execSwitchStart s
  | .blankEnd o => Sys2Proof.Machine.execBlankEnd o s
  | .lockStable o => Sys2Proof.Machine.execLockStable o s
  | .lockTimeout o => Sys2Proof.Machine.execLockTimeout o s
  | .holdExpiry => Sys2Proof.Machine.execHoldExpiry s
  | .linePinChange l level strong => Sys2Proof.Machine.execLinePinChange l level strong s
  | .lineFilterExpiry l => Sys2Proof.Machine.execLineFilterExpiry l s
  | .wakeSignalEnd n => Sys2Proof.Machine.execWakeSignalEnd n s
  | .wakeBusStageEnd n => Sys2Proof.Machine.execWakeBusStageEnd n s
  | .wakePulseEnd n => Sys2Proof.Machine.execWakePulseEnd n s
  | .wakeDeadline n => Sys2Proof.Machine.execWakeDeadline n s
  | .quietTimeReached n => Sys2Proof.Machine.execQuietTimeReached n s
  | .aliveTimer k => Sys2Proof.Machine.execAliveTimer k s
  | .linkSilence k => Sys2Proof.Machine.execLinkSilence k s
  | .outboundOfferTimeout k => Sys2Proof.Machine.execOutboundOfferTimeout k s
  | .inboundOfferTimeout k => Sys2Proof.Machine.execInboundOfferTimeout k s
  | .linkFrameDamaged k bytes => Sys2Proof.Machine.execLinkFrameDamaged k bytes s
  | .alive k a => Sys2Proof.Machine.execAlive k a s
  | .offer k o => Sys2Proof.Machine.execOffer k o s
  | .accept k => Sys2Proof.Machine.execAccept k s
  | .decline k reason => Sys2Proof.Machine.execDecline k reason s
  | .endSession k side reason => Sys2Proof.Machine.execEndSession k side reason s
  | .mode k m p => Sys2Proof.Machine.execMode k m p s
  | .claim k kind => Sys2Proof.Machine.execClaim k kind s
  | .grant k => Sys2Proof.Machine.execGrant k s
  | .deny k reason => Sys2Proof.Machine.execDeny k reason s
  | .release k => Sys2Proof.Machine.execRelease k s
  | .revoke k => Sys2Proof.Machine.execRevoke k s
  | .keys k ks => Sys2Proof.Machine.execKeys k ks s
  | .pointer k f => Sys2Proof.Machine.execPointer k f s
  | .linkSendDone k => Sys2Proof.Machine.execLinkSendDone k s
  | .lengthError len => Sys2Proof.Machine.execLengthError len s

end Sys2Proof.Machine
end

