-- ==== Sys2Proof/Machine/Step.lean ====
section
/-!
DEFINITION. One step of the KD84: the command at the front of the queue, or what the part does of itself.
-/

namespace Sys2Proof.Machine

open Sys2Proof

/-- One step. The command at the front of the queue runs with the queue's rest. On an empty queue the first event
that is due runs, and when nothing is due a millisecond passes (DESIGN CHOICE, notes/assumptions/4.md). -/
def step (s : State) : Host.Outcome State Fault Refusal :=
  match s.pending with
  | c :: rest => exec c (s.setPending rest)
  | [] =>
    match dueCommands s with
    | c :: _ => exec c s
    | [] => .next (tick s)

/-- The state with the command that a table word spells at the front of its queue; the state itself where the word
spells none. -/
def State.withFetchWord (s : State) (nbits w : Nat) : State :=
  match decodeTableWord nbits w with
  | some c => s.setPending (c :: s.pending)
  | none => s

end Sys2Proof.Machine
end

