-- ==== Sys2Proof/Safety.lean ====
section
/-!
DEFINITION. The terms that the statements use: a request with its turn, the answer to it, what ends a command, and
the invariants that every step keeps.
-/

namespace Sys2Proof.Machine

open Sys2Proof

/-! ### Requests -/

/-- The turn of a request has come: it stands at the head of the request queue or the queue is empty, and no reply of
an earlier run waits for room (R189). -/
def takesTurn (r : Request) (s : State) : Prop :=
  s.sup.waiting = none ∧ (s.sup.requests = [] ∨ s.sup.requests.head? = some r)

/-- The state in which a request runs: the request is in the request queue (R188). -/
def begun (r : Request) (s : State) : State := s.modSup (enterQueue r)

/-- What ends every command: a free transmitter takes a frame (R190). -/
def handedOn (u : State) : State := u.modSup transmitNext

/-- The request has run and left the state `u`: its reply, with a result code and the fields after it, is placed or
waits for room (R189), and a free transmitter takes a frame (R190). -/
def replied (r : Request) (c : ResultCode) (fields : List Byte) (u : State) : State :=
  handedOn (u.modSup (finishRequest ⟨replyKind r.kind, r.tag, c.code :: fields⟩))

/-- The body lengths of the requests without a list, by their kinds (R197). -/
def fixedLength (kind : Byte) : Option Nat :=
  match kind.toNat with
  | 0x01 | 0x02 | 0x14 | 0x22 | 0x29 | 0x48 | 0x49 | 0x69 => some 0
  | 0x03 | 0x04 | 0x05 | 0x11 | 0x28 | 0x30 | 0x31 | 0x39 | 0x3A => some 1
  | 0x41 | 0x44 | 0x45 | 0x51 | 0x53 | 0x54 | 0x5A | 0x5C | 0x5D | 0x60 | 0x61 => some 1
  | 0x15 | 0x2A | 0x32 | 0x40 | 0x50 | 0x55 | 0x58 | 0x59 | 0x5B | 0x6A => some 2
  | 0x3B => some 3
  | 0x3C | 0x4A | 0x52 => some 4
  | 0x20 | 0x21 => some 5
  | 0x38 | 0x42 => some 7
  | 0x68 => some 9
  | 0x12 => some 11
  | 0x10 => some 16
  | _ => none

/-- Whether a request's body has the length of its kind; a list's length is fixed by the count it carries (R189,
R197). -/
def lengthFits (r : Request) : Prop :=
  match r.kind.toNat, r.body with
  | 0x13, n :: rest => rest.length = 9 * n.toNat
  | 0x13, [] => False
  | 0x43, _ :: _ :: n :: rest => rest.length = 2 * n.toNat
  | 0x43, _ => False
  | _, body => fixedLength r.kind = some body.length

/-! ### What handing a record to a port says and wakes -/

/-- The supervisor link after a key-state record has been handed to a port: a PORT notice is produced when the record
replaces the newest one of a full queue and the replacement noticed flag was clear (R66, R75). -/
def toldKey (n : Comp) (p : Port) (u : Supervisor) : Supervisor :=
  if 32 ≤ p.keyQueue.length ∧ p.noticed = false then queueNotice .power ⟨0xFC, 0, [BitVec.ofNat 8 (n.val + 1), 0]⟩ u
  else u

/-- The supervisor link after a pointer record has been handed to a port: a PORT notice is produced when the queue is
full, its newest record cannot take the record by a merge, and the replacement noticed flag was clear (R68, R75). -/
def toldPointer (n : Comp) (r : PointerRecord) (p : Port) (u : Supervisor) : Supervisor :=
  if 16 ≤ p.pointerQueue.length ∧ p.noticed = false ∧ p.pointerQueue.getLast?.map (mergeable · r) = some false then
    queueNotice .power ⟨0xFC, 0, [BitVec.ofNat 8 (n.val + 1), 1]⟩ u
  else u

/-- A press for a SUSPENDED computer whose auto-wake flag is set triggers its wake controller (R166, R167), once the
record has been handed to its port. -/
def woken (n : Comp) (press : Bool) (v : State) : State :=
  if press = true ∧ (v.port n).bus = .suspended ∧ (v.comp n).autoWake = true then (wakeTrigger n v).state else v

/-- Steps 3 to 5 of R50 after a desk key event that has left the state `x`, its matcher step taken: what the command
that raised the event answers. While privacy blank is engaged, with the focus NONE, or on a DETACHED computer, nothing
is handed on; on a computer that a link holds, one view-only drop is counted. With the focus on a computer that the
desk holds, it and under broadcast each other member of its zone that the desk holds and that is not DETACHED, when it
is a member itself, is handed the held set minus the mask, shaped to its format, unless it equals the last record
queued to it. The record becomes its last one, its quiet timer restarts, and a replacement in a full queue is noticed
(R51, R52, R53, R75, R151). A delivered press wakes a SUSPENDED focus computer whose auto-wake flag is set (R166). With
the focus on REMOTE k under HELD control the link sends the state as a KEYS frame unless it equals the last one sent
(R56); without HELD control nothing is sent. -/
def handsKeysOn (press : Bool) (x : State) (o : Host.Outcome State Fault Refusal) : Prop :=
  let keys := x.keyboard.held.keys.filter fun c => !x.router.mask.keys.contains c
  let mods := x.keyboard.held.mods &&& ~~~x.router.mask.mods
  (x.blank.state ≠ .clear ∨ x.focus.target = .none → o = .next (handedOn x)) ∧
  (∀ n, x.blank.state = .clear → x.focus.target = .loc n →
    ((x.port n).bus = .detached → o = .next (handedOn x)) ∧
    (∀ k, (x.port n).bus ≠ .detached → (x.control n).holder = .link k → ∃ t, o = .next t ∧
      t.port n = { x.port n with counters :=
        { (x.port n).counters with viewOnlyDrops := min ((x.port n).counters.viewOnlyDrops + 1) 4294967295 } } ∧
      (∀ m, m ≠ n → t.port m = x.port m) ∧ t = { x with ports := t.ports, sup := transmitNext x.sup }) ∧
    ((x.port n).bus ≠ .detached → (x.control n).holder = .desk →
      let shaped (m : Comp) : KeyRecord :=
        if (x.port m).keyFormat = .full then ⟨.full, mods, keys⟩
        else if keys.length ≤ 6 then ⟨.boot, mods, keys⟩
        else ⟨.rollover, mods, [1, 1, 1, 1, 1, 1]⟩
      let same (m : Comp) : Bool :=
        match x.lastKey m with
        | some l => l.mods == (shaped m).mods && l.keys == (shaped m).keys
        | none => (shaped m).mods == 0 && (shaped m).keys == []
      let member (m : Comp) : Bool :=
        x.router.broadcast && (x.comp n).member && (x.comp m).member && (x.comp m).zone == (x.comp n).zone &&
          (x.port m).bus != .detached && (x.control m).holder == .desk
      let gets (m : Comp) : Bool := (m == n || member m) && !same m
      ∃ v, o = .next (handedOn (woken n press v)) ∧
        (∀ m, gets m = true → v.port m = pushKey (shaped m) (x.port m) ∧ v.lastKey m = some (shaped m) ∧
          v.control m = { x.control m with lastDesk := some x.now }) ∧
        (∀ m, gets m = false → v.port m = x.port m ∧ v.lastKey m = x.lastKey m ∧ v.control m = x.control m) ∧
        v = { x with
          ports := v.ports, controls := v.controls, router := { x.router with lastKey := v.router.lastKey }
          sup := allComps.foldl (fun u m => if gets m then toldKey m (x.port m) u else u) x.sup })) ∧
  ∀ k, x.blank.state = .clear → x.focus.target = .rem k →
    ((x.link k).viewer ≠ .held ∨ x.linkKeys k = ⟨mods, keys⟩ → o = .next (handedOn x)) ∧
    ((x.link k).viewer = .held → x.linkKeys k ≠ ⟨mods, keys⟩ → ∃ t, o = .next t ∧
      t.link k = enqueueFrame (.keys ⟨mods, keys⟩) (x.link k) ∧ (∀ j, j ≠ k → t.link j = x.link j) ∧
      t.linkKeys k = ⟨mods, keys⟩ ∧ (∀ j, j ≠ k → t.linkKeys j = x.linkKeys j) ∧
      t = { x with
        links := t.links, router := { x.router with linkKeys := t.router.linkKeys }, sup := transmitNext x.sup })

/-- Step 5 of R21 and what R27 and R36 produce after it, for a desk mouse report with buttons `b` and wheel `z` whose walk
and re-evaluation have left the state `x`, its pointer uncaptured: what the command answers. Nothing is handed on where
the pointer is not attached or is attached to a target of a kind that R28 names. Attached to a computer that the desk
holds, which is then ABSOLUTE, its port is handed the absolute record of stages C, D and E for the pointer's position,
each desktop clamp counted, and a DETACHED port has the clamps counted alone (R33, R34, R35). The record becomes its
last one, its quiet timer restarts, and a replacement in a full queue is noticed (R75, R151). Attached to a lane under
HELD control whose session mode is not 0 × 0, the link sends the absolute frame of stage C. A press of a button then
wakes a SUSPENDED focus computer that the desk holds, its auto-wake flag being set (R166); the focus is the one after
the re-evaluation (notes/assumptions/23.md). -/
def handsPointerOn (b : Buttons) (z : Int) (press : Bool) (x : State) (o : Host.Outcome State Fault Refusal) : Prop :=
  let leaves (v : State) : Prop :=
    o = .next (handedOn
      (match x.focus.target with
        | .loc n => if (x.control n).holder = .desk then woken n press v else v
        | _ => v))
  (attached x = false ∨ capturable x = true → leaves x) ∧
  ∀ tile, attached x = true → capturable x = false → pointerTile x = some tile →
    (∀ h, assignmentOf x tile.monitor = some (.head h) →
      ((x.control h.comp).holder ≠ .desk → leaves x) ∧
      ((x.control h.comp).holder = .desk →
        let n := h.comp
        let gx := (x.headMap h).ox + (x.pointer.px - tile.x0) * (effSize x h).1 / tile.w
        let gy := (x.headMap h).oy + (x.pointer.py - tile.y0) * (effSize x h).2 / tile.h
        let c := x.comp n
        let r : PointerRecord := .absolute b (stageE (min gx (c.vw - 1)) c.vw) (stageE (min gy (c.vh - 1)) c.vh) z
        let clamped : Port := { x.port n with counters := { (x.port n).counters with
          desktopClamps := min ((x.port n).counters.desktopClamps +
            ((if c.vw - 1 < gx then 1 else 0) + (if c.vh - 1 < gy then 1 else 0))) 4294967295 } }
        ((x.port n).bus = .detached → ∃ v, leaves v ∧ v.port n = clamped ∧ (∀ m, m ≠ n → v.port m = x.port m) ∧
          v = { x with ports := v.ports }) ∧
        ((x.port n).bus ≠ .detached → ∃ v, leaves v ∧
          v.port n = pushPointer r clamped ∧ (∀ m, m ≠ n → v.port m = x.port m) ∧
          v.control n = { x.control n with lastDesk := some x.now } ∧ (∀ m, m ≠ n → v.control m = x.control m) ∧
          v.lastPointer n = some r ∧ (∀ m, m ≠ n → v.lastPointer m = x.lastPointer m) ∧
          v = { x with
            ports := v.ports, controls := v.controls, router := { x.router with lastPointer := v.router.lastPointer }
            sup := toldPointer n r (x.port n) x.sup }))) ∧
    ∀ k, assignmentOf x tile.monitor = some (.lane k) →
      (((x.link k).viewer ≠ .held ∨ ∀ s, (x.link k).inbound = .active s → s.mode.width = 0 ∧ s.mode.height = 0) →
        leaves x) ∧
      ∀ s, (x.link k).viewer = .held → (x.link k).inbound = .active s →
        ¬ (s.mode.width = 0 ∧ s.mode.height = 0) →
        let f : PointerFrame := .absolute b ((x.pointer.px - tile.x0) * s.mode.width / tile.w)
          ((x.pointer.py - tile.y0) * s.mode.height / tile.h) z
        ∃ v, leaves v ∧ v.link k = enqueueFrame (.pointer f) (x.link k) ∧ (∀ j, j ≠ k → v.link j = x.link j) ∧
          v.linkPointer k = some f ∧ (∀ j, j ≠ k → v.linkPointer j = x.linkPointer j) ∧
          v = { x with links := v.links, router := { x.router with linkPointer := v.router.linkPointer } }

/-! ### Releases -/

/-- The empty key-state record that the release of a computer hands to its port, shaped to its format: none when its
last record is empty or there is none (R52, R55), or when its port is DETACHED (R61). -/
def emptyRecordDue (s : State) (n : Comp) : Option KeyRecord :=
  match s.lastKey n with
  | some l =>
    if (s.port n).bus = .detached ∨ (l.mods = 0 ∧ l.keys = []) then none
    else some (match (s.port n).keyFormat with
      | .full => ⟨.full, 0, []⟩
      | .boot => ⟨.boot, 0, []⟩)
  | none => none

/-- The no-button pointer record that the release of a computer hands to its port: the last position, or no movement;
none when its last record had no button down or there is none, or when its port is DETACHED (R55, R61). -/
def noButtonsDue (s : State) (n : Comp) : Option PointerRecord :=
  match s.lastPointer n with
  | some (.absolute b x y _) => if (s.port n).bus = .detached ∨ b = 0 then none else some (.absolute 0 x y 0)
  | some (.relative b _ _ _) => if (s.port n).bus = .detached ∨ b = 0 then none else some (.relative 0 0 0 0)
  | none => none

/-- A port `p` of a computer after the records of its release have been handed to it (R55). -/
def releasedPort (s : State) (n : Comp) (p : Port) : Port :=
  let q := (emptyRecordDue s n).elim p fun r => pushKey r p
  (noButtonsDue s n).elim q fun r => pushPointer r q

/-- A link after the frames of its release: an empty KEYS frame if the last one sent was not empty, and a no-button
POINTER frame if the last one sent had a button down (R56). -/
def releasedLink (s : State) (k : LinkId) : Link :=
  let l := if s.linkKeys k = ⟨0, []⟩ then s.link k else enqueueFrame (.keys ⟨0, []⟩) (s.link k)
  match s.linkPointer k with
  | some (.absolute b x y _) => if b = 0 then l else enqueueFrame (.pointer (.absolute 0 x y 0)) l
  | some (.relative b _ _ _) => if b = 0 then l else enqueueFrame (.pointer (.relative 0 0 0 0)) l
  | none => l

/-- Computer `m` at a change from `s` to `u` that releases it if `gone` says so and else leaves its records alone: its
port, which is `p` but for the release, and its last records. -/
def computerLetGo (gone : Bool) (s u : State) (p : Port) (m : Comp) : Prop :=
  u.port m = (if gone then releasedPort s m p else p) ∧
  u.lastKey m = (if gone then (emptyRecordDue s m).or (s.lastKey m) else s.lastKey m) ∧
  u.lastPointer m = if gone then (noButtonsDue s m).or (s.lastPointer m) else s.lastPointer m

/-- A record that the router hands over in a release restarts the computer's quiet timer (R55, R151). -/
def releaseTouches (gone : Bool) (s u : State) (m : Comp) : Prop :=
  u.control m =
    if gone = true ∧ (emptyRecordDue s m ≠ none ∨ noButtonsDue s m ≠ none) then
      { s.control m with lastDesk := some u.now }
    else s.control m

/-- Each computer that is a recipient in `s` and not in `u` has been released, and each other one's port, which is
`base` but for a release, last records and control record stay as they are (R53, R55). -/
def computersReleased (base : Comp → Port) (s u : State) : Prop :=
  ∀ m,
    computerLetGo (isRecipient s m && !isRecipient u m) s u (base m) m ∧
      releaseTouches (isRecipient s m && !isRecipient u m) s u m

/-- A link that is a recipient in `s` and not in `u`, its viewer control still HELD, has been released, and each other
link and its last frames stay as they are (R53, R56). -/
def linksReleased (s u : State) : Prop :=
  ∀ k,
    let gone : Bool := linkIsRecipient s k && !linkIsRecipient u k
    u.link k = (if gone then releasedLink s k else s.link k) ∧
    u.linkKeys k = (if gone then ⟨0, []⟩ else s.linkKeys k) ∧
    u.linkPointer k =
      if gone then
        match s.linkPointer k with
        | some (.absolute b x y w) => some (if b = 0 then .absolute b x y w else .absolute 0 x y 0)
        | some (.relative b x y w) => some (if b = 0 then .relative b x y w else .relative 0 0 0 0)
        | none => none
      else s.linkPointer k

/-- Every code held on the desk keyboard has entered the carry-over mask, which holds nothing else that it did not hold
(R49). -/
def heldMasked (s u : State) : Prop :=
  ∀ c, KeyState.has u.router.mask c = (KeyState.has s.router.mask c || KeyState.has s.keyboard.held c)

/-- The port of a computer whose capture has ended: its delta carry is 0 (R72). -/
def carryCleared (p : Port) : Port := { p with cx := 0, cy := 0 }

/-- What a change of the focus target leaves behind (R18, R40): capture has ended, every held key is masked, the old focus
computer's carry is cleared, the recipients that have left are released, an attached desk keyboard shows the lights of
the new target, and the glide zone is that of the new computer or of the new session's offer, or as it was for NONE. -/
def refocused (s u : State) : Prop :=
  u.pointer.capture = false ∧ heldMasked s u ∧
  computersReleased (fun m => if s.focus.target = .loc m then carryCleared (s.port m) else s.port m) s u ∧
  linksReleased s u ∧
  u.keyboard =
    (if s.keyboard.attached then
      { s.keyboard with lightsSent := some (match u.focus.target with
        | .loc n => (s.port n).lights
        | _ => ⟨false, false, false⟩) }
    else s.keyboard) ∧
  (u.focus.target = .none → u.pointer.glideZone = s.pointer.glideZone ∧ u.pointer.glideFrom = s.pointer.glideFrom) ∧
  (∀ n, u.focus.target = .loc n → u.pointer.glideZone = (s.comp n).zone ∧ u.pointer.glideFrom = u.focus.target) ∧
  ∀ k o, u.focus.target = .rem k → activeOffer s k = some o →
    u.pointer.glideZone = o.zone ∧ u.pointer.glideFrom = u.focus.target

/-- What a focus write that leaves the target leaves as it was: the glide zone, the mask and the last records, the
control records, the desk keyboard and the links (R39). -/
def targetKept (s u : State) : Prop :=
  u.pointer.glideZone = s.pointer.glideZone ∧ u.pointer.glideFrom = s.pointer.glideFrom ∧
    u.router = s.router ∧ u.controls = s.controls ∧ u.keyboard = s.keyboard ∧ u.links = s.links

/-! ### The notices of a release and of a focus write -/

/-- The supervisor link after the records of the release of Cn have been handed to its port: a PORT notice is produced
by each that replaces the newest record of a full queue while the replacement noticed flag is clear (R55, R75). -/
def toldRelease (s : State) (n : Comp) (p : Supervisor) : Supervisor :=
  let keyed : Port := (emptyRecordDue s n).elim (s.port n) fun r => pushKey r (s.port n)
  let told : Supervisor := (emptyRecordDue s n).elim p fun _ => toldKey n (s.port n) p
  (noButtonsDue s n).elim told fun r => toldPointer n r keyed told

/-- The supervisor link after the computers that `gone` names have been released, from C1 to C8 (the order is the
model's, notes/assumptions/35.md). -/
def toldOf (gone : Comp → Bool) (s : State) (p : Supervisor) : Supervisor :=
  allComps.foldl (fun p m => if gone m then toldRelease s m p else p) p

/-- The supervisor link after each computer that is a recipient in `s` and not in `u` has been released (R55). -/
def toldLeavers (s u : State) (p : Supervisor) : Supervisor :=
  toldOf (fun m => isRecipient s m && !isRecipient u m) s p

/-- The supervisor link after a focus write: a FOCUS notice of the record as it stands after the write, unless no field
of it has been altered (R38). -/
def toldFocus (s u : State) (p : Supervisor) : Supervisor :=
  if u.focus = s.focus then p else queueNotice .focus (focusNotice u.focus) p

/-- The notices of a focus write that may change the target: those of the recipients that leave, and then the FOCUS
notice (R40, steps 5 and 7). -/
def toldWrite (s u : State) (p : Supervisor) : Supervisor := toldFocus s u (toldLeavers s u p)

/-- Broadcast has been turned over from `base`, a state with the recipients of `s`, and the recipients derived afresh: each
computer that is one no longer is released, with its PORT notices; every held key enters the mask when one has become
a recipient, and the mask stays when none has; and nothing else changes (R49, R53, R54, R55, R80). -/
def broadcastTurned (s base u : State) : Prop :=
  u.router.broadcast = !s.router.broadcast ∧ computersReleased (fun m => s.port m) s u ∧
  u.router.linkKeys = s.router.linkKeys ∧ u.router.linkPointer = s.router.linkPointer ∧
  ((∃ m, isRecipient u m = true ∧ isRecipient s m = false) → heldMasked s u) ∧
  ((∀ m, isRecipient u m = true → isRecipient s m = true) → u.router.mask = s.router.mask) ∧
  u = { base with
    router := u.router, ports := u.ports, controls := u.controls, sup := toldLeavers s u base.sup }

/-- The state with the privacy blank unit returned to CLEAR, and a BLANK notice of the unit as it then stands (R126,
R128). -/
def blankLifted (c : BlankCause) (s : State) : State :=
  let unit : BlankUnit := { s.blank with state := .clear }
  { s with blank := unit, sup := queueNotice .blank (blankNotice unit c) s.sup }

/-! ### Control that passes to a link and returns -/

/-- What a change of the holder of Cn between the desk and a link does to input: the computer is released and its carry
cleared, each other computer that was a recipient in `base` and is none in `u` is released, and every held key enters
the mask if one has become a recipient in `base` (R49, R55, R152, R153). -/
def holderChanged (n : Comp) (base s u : State) : Prop :=
  u.port n = carryCleared (releasedPort s n (s.port n)) ∧ u.lastKey n = (emptyRecordDue s n).or (s.lastKey n) ∧
  u.lastPointer n = (noButtonsDue s n).or (s.lastPointer n) ∧
  (∀ m, m ≠ n →
    computerLetGo (isRecipient base m && !isRecipient u m) s u (s.port m) m ∧
      releaseTouches (isRecipient base m && !isRecipient u m) s u m) ∧
  ((∃ m, isRecipient base m = true ∧ isRecipient s m = false) → heldMasked s u) ∧
  ((∀ m, isRecipient base m = true → isRecipient s m = true) → u.router.mask = s.router.mask) ∧
  u.router.broadcast = s.router.broadcast ∧ u.router.linkKeys = s.router.linkKeys ∧
  u.router.linkPointer = s.router.linkPointer

/-- A grant of Cn to the claim of DLk, made while the holder is DESK (R152): the claim leaves the list, the computer is
released and the link becomes its holder, each other computer that stops being a recipient is released, a capture on
Cn ends, GRANT is formed on DLk, and a CONTROL notice follows the PORT notices of the releases. Nothing else
changes. -/
def grantMade (n : Comp) (k : LinkId) (c : HolderCause) (s u : State) : Prop :=
  u.control n =
    { holder := .link k, claims := (s.control n).claims.filter fun d => d.link != k, lastDesk := (s.control n).lastDesk
      remoteKeys := ⟨0, []⟩, remoteButtons := 0 } ∧
  holderChanged n s s u ∧
  u.link k = enqueueFrame .grant (s.link k) ∧ (∀ j, j ≠ k → u.link j = s.link j) ∧
  u = { s with
    controls := u.controls, ports := u.ports, router := u.router, links := u.links
    pointer := { s.pointer with capture := s.pointer.capture && !(s.focus.target == .loc n) }
    sup := queueNotice .share (holderNotice n .desk (.link k) c (u.control n).claims)
      (toldOf (fun m => m != n && isRecipient s m && !isRecipient u m) s (toldRelease s n s.sup)) }

/-- The holder of Cn has returned from DLk to DESK (R153). By `x` the computer is released, the holder written and the
remote state emptied, every held key is in the mask if a computer has become a recipient, and a CONTROL notice has
followed the PORT notices of the release (steps 1 to 4). From `x` an approved claim is granted where the share policy
allows it and loses its approval with every other claim where it does not; with none approved the oldest claim is
granted under AUTO with the quiet time met (step 5, R155). -/
def controlReturned (n : Comp) (k : LinkId) (c : HolderCause) (s u : State) : Prop :=
  ∃ x : State,
    x.control n = { s.control n with holder := .desk, remoteKeys := ⟨0, []⟩, remoteButtons := 0 } ∧
    holderChanged n x s x ∧
    x = { s with
      controls := x.controls, ports := x.ports, router := x.router
      sup := queueNotice .share (holderNotice n (.link k) .desk c (s.control n).claims) (toldRelease s n s.sup) } ∧
    match (s.control n).claims.find? Claim.approved with
    | some d =>
      if (s.comp n).policy = .ask ∨ (s.comp n).policy = .auto then grantMade n d.link .granted x u
      else
        u = x.modControl n fun r => { r with claims := r.claims.map fun d => { d with approved := false } }
    | none =>
      if (s.comp n).policy = .auto ∧ ∀ d, (s.control n).lastDesk = some d → (s.comp n).quietTime ≤ s.now - d then
        match (s.control n).claims with
        | d :: _ => grantMade n d.link .auto x u
        | [] => u = x
      else u = x

/-- Each computer of a list that DLk holds when its turn comes returns to the desk, one after another. -/
def returnsInTurn (k : LinkId) (c : HolderCause) : List Comp → State → State → Prop
  | [], s, u => u = s
  | n :: rest, s, u => ∃ x : State,
      (if (s.control n).holder = .link k then controlReturned n k c s x else x = s) ∧ returnsInTurn k c rest x u

/-- Every claim of DLk has been removed from every list, a CLAIM notice with cause REMOVED following for each one, from C1
to C8 (R160; the order is the model's, notes/assumptions/35.md). -/
def claimsDropped (k : LinkId) (s u : State) : Prop :=
  let without (n : Comp) : List Claim := (s.control n).claims.filter fun d => d.link != k
  (∀ n, u.control n = { s.control n with claims := without n }) ∧
  u = { s with
    controls := u.controls
    sup := allComps.foldl
      (fun p n =>
        if (s.control n).claims.any (fun d => d.link == k) then
          queueNotice .share (claimNotice (compByte n) k .removed (without n)) p
        else p) s.sup }

/-- Control has left DLk (R160): its claims are removed from every list, and then what it holds returns to the desk, from
C1 to C8 (the order is the model's, notes/assumptions/35.md). -/
def controlEnded (k : LinkId) (c : HolderCause) (s u : State) : Prop :=
  ∃ v, claimsDropped k s v ∧ returnsInTurn k c allComps v u

/-- The viewer control state of Nk has changed to `v` (R161), with a CONTROL notice (R164). When it has become HELD, the
last frames sent on the link are reset (R56), and with the focus on the lane and privacy blank CLEAR the link joins
the recipients and every held key enters the mask (R49, R53). In any other state a capture on the lane has ended
(R28). Nothing else changes. -/
def viewerMoved (k : LinkId) (v : ViewerControl) (c : ViewerCause) (s u : State) : Prop :=
  let held : Bool := v == .held
  let joins : Bool := held && s.focus.target == .rem k && s.blank.state == .clear
  u.link k = { s.link k with viewer := v } ∧ (∀ j, j ≠ k → u.link j = s.link j) ∧
  (joins = true → heldMasked s u) ∧ (joins = false → u.router.mask = s.router.mask) ∧
  u.linkKeys k = (if held then ⟨0, []⟩ else s.linkKeys k) ∧
  u.linkPointer k = (if held then none else s.linkPointer k) ∧
  (∀ j, j ≠ k → u.linkKeys j = s.linkKeys j ∧ u.linkPointer j = s.linkPointer j) ∧
  u = { s with
    links := u.links
    router := { s.router with
      mask := u.router.mask, linkKeys := u.router.linkKeys, linkPointer := u.router.linkPointer }
    pointer := { s.pointer with capture := s.pointer.capture && !(!held && s.focus.target == .rem k) }
    sup := queueNotice .share (viewerNotice k v c) s.sup }

/-! ### What a focus write does to the lines -/

/-- Each TALLY line is active while the focus target is its computer, from a change of the target on, and stays as it
was at a write that leaves the target (R181). -/
def tallied (s u : State) : Prop :=
  ∀ l n, (s.line l).config.role = .tally n →
    u.line l =
      if u.focus.target = s.focus.target then s.line l
      else { s.line l with level := decide (u.focus.target = .loc n) }

/-- The TALLY lines follow the focus target, and every other line stays as it was. -/
def linesFollow (s u : State) : Prop :=
  tallied s u ∧ ∀ l, (∀ n, (s.line l).config.role ≠ .tally n) → u.line l = s.line l

/-! ### What the end of an inbound session does to the focus -/

/-- What the end of an ACTIVE inbound session of DLk does to the focus: one on the lane becomes NONE with the origin
SESSION_END, capture ends, every held key is masked and an attached desk keyboard shows no lights (R40, R43, R49, R57),
and any other focus stays, with the pointer, the mask and the lights. The TALLY lines follow (R181). -/
def focusLosesLane (k : LinkId) (s u : State) : Prop :=
  let focused : Bool := s.focus.target == .rem k
  u.focus = (if focused then ⟨.none, .sessionEnd, s.focus.tile⟩ else s.focus) ∧ linesFollow s u ∧
  u.pointer = { s.pointer with capture := s.pointer.capture && !focused } ∧
  (focused = true → heldMasked s u) ∧ (focused = false → u.router.mask = s.router.mask) ∧
  u.router = { s.router with mask := u.router.mask } ∧
  u.keyboard =
    if focused && s.keyboard.attached then { s.keyboard with lightsSent := some ⟨false, false, false⟩ } else s.keyboard

/-! ### What a change of an input does to an output -/

/-- An output after the input state of `i` has been written with `v`: nothing follows where the state is the one held;
otherwise an output assigned to the input is stable from now if the mode is known in LOCKING, enters NO_SIGNAL at a
lost signal and LOCKING afresh at any other change in SHOWING, and LOCKING at a signal in NO_SIGNAL (R101, R110,
R111). -/
def inputFollowed (s : State) (i : Input) (v : InputState) (o : OutputId) : Output :=
  let p := s.out o
  let stable : Option Nat := match v with
    | .measured _ => some s.now
    | _ => none
  let afresh : Output := { p with state := .locking (s.now + p.lockTimeout) stable }
  if p.assignment = some i ∧ s.input i ≠ v then
    match p.state with
    | .locking d _ => { p with state := .locking d stable }
    | .showing => if v = .absent then { p with state := .noSignal } else afresh
    | .noSignal => if v = .absent then p else afresh
    | _ => p
  else p

/-- The supervisor link after the input state of `i` has been written with `v`, `size` being the effective size of a head:
an OUTPUT notice for each output that enters NO_SIGNAL or LOCKING by it, from M1 to O2 (the order is the model's,
notes/assumptions/35.md), and then a HEAD_MODE notice; none where the state is the one held (R101, R111, R115). An
output that enters one of these states presents black (R112). -/
def toldInput (s : State) (i : Input) (v : InputState) (size : Option (Nat × Nat)) (p : Supervisor) : Supervisor :=
  if s.input i = v then p
  else
    let enters (o : OutputId) : Bool :=
      (s.out o).assignment == some i &&
        ((s.out o).state == .showing || ((s.out o).state == .noSignal && v != .absent))
    queueNotice .video (headModeNotice i v size)
      (allOutputs.foldl
        (fun p o => if enters o then queueNotice .video (outputNotice o (inputFollowed s i v o) false) p else p) p)

/-- An output after an inbound lane has been taken away: it follows the lost signal when the lane is its assignment
(R111), and a monitor that concerned the lane by its assignment, its switch target or its pending slot is then handed
DARK (R105, R134). -/
def laneGone (s : State) (k : LinkId) (o : OutputId) : Output :=
  let p := s.out o
  let followed : Output := inputFollowed s (.lane k) .absent o
  let switching : Bool := match p.state with
    | .blanking t _ => t == some (.lane k)
    | _ => false
  if o.val < 4 ∧ (p.assignment = some (.lane k) ∨ switching = true ∨ p.pendingSlot = some (some (.lane k))) then
    takeTargetRecord none followed
  else followed

/-! ### What the changes of a session leave -/

/-- The outbound session of DLk has entered ACTIVE on a head (R131): its lane is handed the head, a MODE frame is formed,
and a SHARE notice follows. -/
def outboundActivated (k : LinkId) (h : Head) (viewOnly : Bool) (c : ShareCause) (s u : State) : Prop :=
  u = (((s.modLink k fun l =>
      { enqueueFrame (.mode (sentMode s h) (effMode s h.comp)) l with outbound := .active h viewOnly }).modOut
        (laneOut k) (takeTargetRecord (some (.head h)))).modSup
          (queueNotice .share (shareOutNotice k (.active h viewOnly) h viewOnly c)))

/-- The outbound session of DLk has left OFFERED or ACTIVE (R132): control has left the link with cause SESSION_END if
the session was ACTIVE, the lane is handed DARK, the frame `f`, if any, is formed, and a SHARE notice follows. A
session that is NONE leaves everything as it was. -/
def outboundEnded (k : LinkId) (f : Option LinkMsg) (c : ShareCause) (s u : State) : Prop :=
  let closed : State := s.modLink k fun l => { l with outbound := .none }
  let ends (h : Head) (v : Bool) (x : State) : Prop :=
    u = ((x.modOut (laneOut k) (takeTargetRecord none)).modLink k fun l => f.elim l fun m => enqueueFrame m l).modSup
      (queueNotice .share (shareOutNotice k .none h v c))
  match (s.link k).outbound with
  | .none => u = s
  | .offered h v _ => ends h v closed
  | .active h v => ∃ x, controlEnded k .sessionEnd closed x ∧ ends h v x

/-- The inbound session of DLk has left OFFERED_IN or ACTIVE (R134), and the frame `f`, if any, is formed. From ACTIVE the
viewer control is NONE, with a CONTROL notice if it was not; the lane is absent, its outputs following with their
OUTPUT notices and a HEAD_MODE notice; each monitor that concerned the lane is handed DARK; and a focus on it is NONE
with origin SESSION_END, with its FOCUS notice. A SHARE notice comes last. A session that is NONE leaves everything as
it was. -/
def inboundEnded (k : LinkId) (f : Option LinkMsg) (c : ShareCause) (s u : State) : Prop :=
  let formed (l : Link) : Link := f.elim l fun m => enqueueFrame m l
  match (s.link k).inbound with
  | .none => u = s
  | .offeredIn o _ =>
    u = (s.modLink k fun l => formed { l with inbound := .none }).modSup
      (queueNotice .share (shareInNotice k .none o c))
  | .active o =>
    u.link k = formed { s.link k with inbound := .none, viewer := .none } ∧ (∀ j, j ≠ k → u.link j = s.link j) ∧
    u.input (.lane k) = .absent ∧ (∀ i, i ≠ .lane k → u.input i = s.input i) ∧ (∀ p, u.out p = laneGone s k p) ∧
    focusLosesLane k s u ∧
    u = { s with
      links := u.links, inputs := u.inputs, outputs := u.outputs, focus := u.focus, router := u.router
      keyboard := u.keyboard, lines := u.lines, pointer := u.pointer
      sup := queueNotice .share (shareInNotice k .none o c) (toldFocus s u (toldInput s (.lane k) .absent none
        (if (s.link k).viewer = .none then s.sup
        else queueNotice .share (viewerNotice k .none .sessionEnd) s.sup))) }

/-- DLk has gone DOWN, in the order of R138: the peer zone set is empty, the outbound session and then the inbound one
have ended with cause LINK_DOWN and without a frame, control has left the link, and a LINK notice comes last. -/
def linkLost (k : LinkId) (c : LinkCause) (s u : State) : Prop :=
  ∃ x y z,
    outboundEnded k none .linkDown (s.modLink k fun l => { l with up := false, peerZones := 0 }) x ∧
    inboundEnded k none .linkDown x y ∧ controlEnded k .linkDown y z ∧
    u = z.modSup (queueNotice .link (linkNotice k false c none))

/-- The nine rows of R141 have been judged in their order, for an ALIVE that reports `a`: rows 1 and 2 by `x`, rows 3 to 6
by `y`, rows 7 and 8 by `z`, and then row 9. -/
def reconciled (k : LinkId) (a : Alive) (s u : State) : Prop :=
  ∃ x y z,
    (if a.outbound = .none then inboundEnded k none .peerEnded s x else x = s) ∧
    (let w : State :=
      if (x.link k).inbound = .none ∧ a.outbound = .active then
        x.modLink k (enqueueFrame (.endSession .viewer .peerEnded))
      else x
     if (x.link k).viewer = .held ∧ a.controlToYou = false then viewerMoved k .none .reconciled w y
     else if (x.link k).viewer = .requested ∧ a.controlToYou = true then viewerMoved k .held .reconciled w y
     else if (x.link k).viewer = .none ∧ a.controlToYou = true then y = w.modLink k (enqueueFrame .release)
     else y = w) ∧
    (match (y.link k).outbound, a.inbound with
      | .offered h v _, .active => outboundActivated k h v .peerActive y z
      | .active _ _, .none => outboundEnded k none .peerEnded y z
      | _, _ => z = y) ∧
    match (z.link k).outbound with
    | .active h _ =>
      if (z.control h.comp).holder = .link k ∧ a.viewer = .none then controlReturned h.comp k .reconciled z u else u = z
    | _ => u = z

/-- What an UP link that goes DOWN leaves behind. Its sessions, its viewer control of an ACTIVE inbound session and its
peer zone set are gone, nothing else of the link changes, so that no END or other frame is formed on it, and the other
link changes by frames alone (R132, R134, R138). The link holds and claims no computer (R160). The lane of an ACTIVE
inbound session is ABSENT, its outputs following the loss, and its monitors are handed DARK; the outbound lane of a
session is handed DARK. A focus on the lane becomes NONE with the origin SESSION_END, every held key masked (R43,
R49). -/
def wentDown (s u : State) (k : LinkId) : Prop :=
  let active : Bool := (activeOffer s k).isSome
  let focused : Bool := active && s.focus.target == .rem k
  u.link k = { s.link k with
    enabled := (u.link k).enabled, up := false, peerZones := 0, outbound := .none, inbound := .none
    viewer := if active then .none else (s.link k).viewer } ∧
  (∀ j, j ≠ k → u.link j = { s.link j with
    sending := (u.link j).sending, sendQueue := (u.link j).sendQueue
    counters := { (s.link j).counters with sendOverflow := (u.link j).counters.sendOverflow } }) ∧
  (∀ n, (u.control n).holder ≠ .link k ∧ ∀ c ∈ (u.control n).claims, c.link ≠ k) ∧
  u.input (.lane k) = (if active then .absent else s.input (.lane k)) ∧
  (∀ i, i ≠ .lane k → u.input i = s.input i) ∧
  (∀ o,
    let p : Output := if active then laneGone s k o else s.out o
    u.out o = if o = laneOut k ∧ (s.link k).outbound ≠ .none then takeTargetRecord none p else p) ∧
  u.focus = (if focused then ⟨.none, .sessionEnd, s.focus.tile⟩ else s.focus) ∧
  linesFollow s u ∧
  u.pointer = { s.pointer with capture := u.pointer.capture } ∧
  (focused = true → u.pointer.capture = false ∧ heldMasked s u) ∧
  u.keyboard =
    if focused && s.keyboard.attached then { s.keyboard with lightsSent := some ⟨false, false, false⟩ } else s.keyboard

/-! ### The layout -/

/-- A tile list that SET_LAYOUT accepts (R9): one to four tiles, each in range, no two of one monitor, and no desk unit
in two of them. -/
def validLayout (ts : List Tile) : Prop :=
  1 ≤ ts.length ∧ ts.length ≤ 4 ∧
    (∀ t ∈ ts, t.x0 ≤ 16383 ∧ t.y0 ≤ 16383 ∧ 8 ≤ t.w ∧ t.w ≤ 16384 ∧ 8 ≤ t.h ∧ t.h ≤ 16384 ∧
      t.x0 + t.w ≤ 16384 ∧ t.y0 + t.h ≤ 16384) ∧
    ts.Pairwise fun a b =>
      a.monitor ≠ b.monitor ∧ ∀ x y : Nat, Tile.contains a x y = true → Tile.contains b x y = false

/-! ### The hotkey table -/

/-- No two entries of the hotkey table exclude one another (R79, R83). -/
def hotkeysApart (s : State) : Prop :=
  ∀ i j d e, i ≠ j → s.hotkey i = some d → s.hotkey j = some e → clash d.trigger e.trigger = false

/-! ### The invariant of the part -/

/-- No two lines hold a role for one computer (R182, check 3). -/
def rolesApart (s : State) : Prop :=
  ∀ l j n r, l ≠ j → r ∈ [Role.powerSense n, Role.tally n, Role.wakePulse n] →
    (s.line l).config.role = r → (s.line j).config.role ≠ r

/-- What holds of the part at every moment: the layout is one that SET_LAYOUT accepts (R9), the desk pointer lies in
one of its tiles (R18), the lock level is 0 to 3 (R13), the hotkey table's entries do not exclude one another (R79),
no two lines hold a role for one computer (R182), and every queue and the held list stay within their sizes (R45, R58,
R135, R188, R191). -/
structure Sound (s : State) : Prop where
  layout : validLayout s.layout
  pointer : ∃ t ∈ s.layout, Tile.contains t s.pointer.px s.pointer.py = true
  lock : s.lock.level ≤ 3
  hotkeys : hotkeysApart s
  roles : rolesApart s
  held : s.keyboard.held.keys.length ≤ 32
  keyQueues : ∀ n, (s.port n).keyQueue.length ≤ 32
  pointerQueues : ∀ n, (s.port n).pointerQueue.length ≤ 16
  sendQueues : ∀ k, (s.link k).sendQueue.length ≤ 32
  requests : s.sup.requests.length ≤ 4
  replies : s.sup.replies.length ≤ 8
  notices : s.sup.notices.length ≤ 16

end Sys2Proof.Machine
end

