-- ==== Sys2Proof/Certificates/Slice0/Obligations.lean ====
section
/-!
DEFINITION. The statements about the model, chapter by chapter, in the order of OBLIGATIONS.json. Each docstring says
what the statement claims and names the rules it rests on.
-/

open Sys2Proof Sys2Proof.Machine

/-- For every command c and every state s with c at the front of its queue, one step answers what exec answers for c on s
with the queue's rest. On an empty queue a step runs the first of the events that are due, and when none is due it
adds one millisecond to the timebase and changes nothing else. The queue of waiting commands and what an empty queue
does are the model's choices (notes/assumptions/2.md and 4.md). (opcode_table.json, 12.2, 95_what_each_step_holds.md) -/
def Obligations.StepRunsFrontCommand : Prop :=
  ∀ s : State,
    (∀ (c : Instr) (rest : List Instr), s.pending = c :: rest → step s = exec c { s with pending := rest }) ∧
    (s.pending = [] →
      (∀ (c : Instr) (cs : List Instr), dueCommands s = c :: cs → step s = exec c s) ∧
      (dueCommands s = [] → step s = .next { s with now := s.now + 1 }))

/-- Every command answers a next state in every state, and so does every step: the model stops nowhere. (12.2) -/
def Obligations.EveryStepCompletes : Prop :=
  (∀ (c : Instr) (s : State), ∃ t, exec c s = .next t) ∧ ∀ s : State, ∃ t, step s = .next t

/-- Any request, of a kind the part knows or not, that is given while another is ahead of it enters the request queue if
the queue holds fewer than 4 requests. Otherwise a BUSY reply is placed, with the kind of the request plus 0x80 or
0xFF for a kind that names no request, if the reply queue holds fewer than 8 replies. Otherwise the overrun count
increases by one, saturating. Nothing else changes, but that a free transmitter takes a frame. A request given
directly as a command is the model's choice (notes/assumptions/3.md). (R188, R189) -/
def Obligations.RequestsWaitTheirTurn : Prop :=
  ∀ (r : Request) (s : State), ¬ takesTurn r s →
    exec (requestCommand r.kind r.tag r.body) s = .next (handedOn { s with sup :=
      if s.sup.requests.length < 4 then { s.sup with requests := s.sup.requests ++ [r] }
      else if s.sup.replies.length < 8 then
        { s.sup with replies := s.sup.replies ++ [⟨if kindNamed r.kind then r.kind + 0x80 else 0xFF, r.tag, [2]⟩] }
      else { s.sup with overruns := min (s.sup.overruns + 1) 4294967295 } })

/-- For every kind that names a request, a body of any other length than the one R197 gives the kind (fixed, or fixed by
the count that a list carries) is answered BAD_LENGTH when the request's turn comes, and the request changes nothing.
(R189, R197) -/
def Obligations.BadLengthAnswered : Prop :=
  ∀ (r : Request) (s : State), kindNamed r.kind = true → ¬ lengthFits r → takesTurn r s →
    exec (requestCommand r.kind r.tag r.body) s = .next (replied r .badLength [] (begun r s))

/-- When its turn comes, a request of a kind that names none is answered, whatever its body, by a reply of kind 0xFF with
its tag and the one body byte 3 (UNKNOWN_KIND). The reply takes a place in the reply queue and the request leaves the
request queue, or, when 8 replies are waiting, the reply waits and the request stays. Nothing else changes, but that
a free transmitter takes a frame. (R188, R189) -/
def Obligations.UnknownKindAnswered : Prop :=
  ∀ (r : Request) (s : State), kindNamed r.kind = false → takesTurn r s →
    exec (.unknownKind r.kind r.tag r.body) s = .next (handedOn { s with sup :=
      if s.sup.replies.length < 8 then
        { s.sup with
          replies := s.sup.replies ++ [⟨0xFF, r.tag, [3]⟩]
          requests := s.sup.requests.tail }
      else
        { s.sup with
          requests := if s.sup.requests = [] then [r] else s.sup.requests
          waiting := some ⟨0xFF, r.tag, [3]⟩ } })

/-- When the last byte of a frame has been sent, a RESET reply leaves the warm reset due and no frame is taken. Otherwise
the transmitter takes the oldest reply, and a reply that waited for room takes the place that comes free while its
request leaves the request queue. With no reply queued it takes the oldest notice. With neither it is free. Nothing
else changes. That the due reset is a field of its own, on which WARM_RESET acts later (notes/assumptions/12.md), and
that the end of a frame comes as a command (14.md), are the model's choices. (R189, R190, R194) -/
def Obligations.TransmitDoneTakesNext : Prop :=
  ∀ (f : SupFrame) (s : State), s.sup.sending = some f → s.sup.resetDue = false → s.sup.replies.length ≤ 8 →
    exec .transmitDone s = .next { s with sup :=
      if f.kind = 0x82 ∧ f.body = [0] then { s.sup with sending := none, resetDue := true }
      else
        match s.sup.replies, s.sup.notices, s.sup.waiting with
        | r :: rest, _, none => { s.sup with sending := some r, replies := rest }
        | r :: rest, _, some w =>
          { s.sup with
            sending := some r
            replies := rest ++ [w]
            waiting := none
            requests := s.sup.requests.tail }
        | [], n :: rest, _ => { s.sup with sending := some n, notices := rest }
        | [], [], _ => { s.sup with sending := none } }

/-- SUBSCRIBE with a class set adds it to the subscription set, and UNSUBSCRIBE removes it. Each is answered OK with the
set as it stands afterwards, at every lock level, and changes nothing else. A notice of a class that is not
subscribed changes nothing; one of a subscribed class joins the end of the notice queue while fewer than 16 are
waiting, and otherwise is discarded with the lost notice count raised by one, up to 255. The NOTIFY action run by
TRIGGER places its HOTKEY notice of source REQUEST in this way; that the absent index of that notice takes a byte 0
and a filler byte 0 (notes/assumptions/8.md), and that the set of a reply has no presence byte (19.md), are the
model's choices. (R99, R191, R192, R196, R197) -/
def Obligations.SubscriptionSetWritten : Prop :=
  (∀ (tag b : Byte) (s : State),
    (takesTurn ⟨0x03, tag, [b]⟩ s →
      exec (.subscribe tag [b]) s = .next (replied ⟨0x03, tag, [b]⟩ .ok [s.sup.classes ||| b]
        ((begun ⟨0x03, tag, [b]⟩ s).modSup fun p => { p with classes := s.sup.classes ||| b }))) ∧
    (takesTurn ⟨0x04, tag, [b]⟩ s →
      exec (.unsubscribe tag [b]) s = .next (replied ⟨0x04, tag, [b]⟩ .ok [s.sup.classes &&& ~~~b]
        ((begun ⟨0x04, tag, [b]⟩ s).modSup fun p => { p with classes := s.sup.classes &&& ~~~b })))) ∧
  (∀ (c : NoticeClass) (f : SupFrame) (s : State),
    let bit : Nat := (match c with
      | .focus => 0 | .video => 1 | .hotkey => 2 | .blank => 3 | .share => 4 | .power => 5 | .line => 6 | .link => 7)
    (s.sup.classes.getLsbD bit = false → notify c f s = s) ∧
    (s.sup.classes.getLsbD bit = true →
      (s.sup.notices.length < 16 →
        notify c f s = { s with sup := { s.sup with notices := s.sup.notices ++ [f] } }) ∧
      (16 ≤ s.sup.notices.length →
        notify c f s = { s with sup := { s.sup with lost := min (s.sup.lost + 1) 255 } }))) ∧
  ∀ (tag : Byte) (s : State), takesTurn ⟨0x3B, tag, [14, 0, 0]⟩ s →
    exec (.trigger tag [14, 0, 0]) s = .next (replied ⟨0x3B, tag, [14, 0, 0]⟩ .ok []
      (notify .hotkey ⟨0xF4, 0, [2, 0, 0]⟩ (begun ⟨0x3B, tag, [14, 0, 0]⟩ s)))

/-- The reply of GET_STATUS carries the part code, the revision, the lock level, the reset cause, the lost notice count,
the five counts of the receiver, the number of requests in the queue with this one, the blank state, its source set
and in RECOVERING the time left, and for DL1 and DL2 whether the link is UP and enabled; then the lost notice count
becomes 0. RESET is answered OK and changes nothing yet. Model's choices: the bits of the source set
(notes/assumptions/9.md) and that it has no presence byte (19.md), the time left in RECOVERING as a field that may be
none, with its presence byte and zeros otherwise (8.md), a time of 2^32 ms or more (6.md), the time left as 0 once
the hold deadline has passed (39.md), and the order of the last four bytes, by link (19.md as well). (R193, R194,
R197) -/
def Obligations.StatusReadAndResetAnswered : Prop :=
  ∀ (tag : Byte) (s : State),
    (takesTurn ⟨0x01, tag, []⟩ s →
      exec (.getStatus tag []) s = .next (replied ⟨0x01, tag, []⟩ .ok
        ([0x84, 1, BitVec.ofNat 8 s.lock.level,
            match s.sup.cause with | .powerOn => 0 | .resetPin => 1 | .request => 2,
            BitVec.ofNat 8 s.sup.lost] ++
          byte4 s.sup.lengthErrors ++ byte4 s.sup.crcErrors ++ byte4 s.sup.gapErrors ++ byte4 s.sup.byteErrors ++
          byte4 s.sup.overruns ++ byte1 (max 1 s.sup.requests.length) ++
          (match s.blank.state with
            | .clear => [0, 0, 0, 0, 0, 0, 0]
            | .engaged x =>
              [1, BitVec.ofNat 8 (x.line.toNat + 2 * x.hotkey.toNat + 4 * x.request.toNat), 0, 0, 0, 0, 0]
            | .recovering d => [2, 0, 1] ++ timeBytes (d - s.now)) ++
          flag (s.link 0).up ++ flag (s.link 0).enabled ++ flag (s.link 1).up ++ flag (s.link 1).enabled)
        ((begun ⟨0x01, tag, []⟩ s).modSup fun p => { p with lost := 0 }))) ∧
    (takesTurn ⟨0x02, tag, []⟩ s →
      exec (.reset tag []) s = .next (replied ⟨0x02, tag, []⟩ .ok [] (begun ⟨0x02, tag, []⟩ s)))

/-- Each GET request of chapters 1 to 11 answers OK with the fields that its rule lists, byte for byte and in that order,
or BAD_ARG when its byte names nothing, and changes nothing but the supervisor link's queues. A named value is its
place in the list of its rule. Each field that may be none or unknown has a presence byte of its own. Model's
choices: fields that stand in some states only as such fields (notes/assumptions/8.md), the fields of GET_POINTER
without the last push time and the target of the glide zone, and the bytes listed without a layout, among them the
member flags as one set byte, the peer zone set and the pointer buttons without a presence byte, the powered flag with
UNKNOWN as no value, the sixteen lines and counters without a count byte, and the outputs from M1 to M4, then O1 and O2
(19.md), filler bytes as 0 (26.md), the order of the mask's codes (34.md), a passed deadline's remaining time as 0
(39.md), and times of 2^32 ms or more (6.md). (R5, R10, R20, R41, R77, R85, R116, R149, R164, R177, R183, R197) -/
def Obligations.ReadbacksChangeNothing : Prop :=
  ∀ (tag b : Byte) (s : State),
    let answer (kind : Byte) (body : List Byte) (fields : Option (List Byte)) : State :=
      match fields with
      | some fields => replied ⟨kind, tag, body⟩ .ok fields (begun ⟨kind, tag, body⟩ s)
      | none => replied ⟨kind, tag, body⟩ .badArg [] (begun ⟨kind, tag, body⟩ s)
    let ago (t : Option Nat) : List Byte := optional 4 timeBytes (t.map fun t => s.now - t)
    let left (t : Option Nat) : List Byte := optional 4 timeBytes (t.map fun t => t - s.now)
    let lineNo (l : Option LineId) : List Byte := optional 1 (fun l : LineId => [BitVec.ofNat 8 l.val]) l
    let counts (ns : List Nat) : List Byte := ns.flatMap byte4
    let detected (v : InputState) : List Byte :=
      match v with
      | .measured m => 1 :: byte2 m.width ++ byte2 m.height ++ byte2 m.refresh
      | _ => [0, 0, 0, 0, 0, 0, 0]
    let showing (i : Input) : List Byte :=
      listBytes outputByte ([0, 1, 2, 3, 4, 5].filter fun o => (s.out o).assignment == some i)
    let computer (n : Comp) : List Byte :=
      let c := s.comp n
      byte1 c.zone.val ++ pointerModeByte c.pointerMode ++ flag c.member ++ policyByte c.policy ++ byte2 c.quietTime ++
        flag c.autoWake ++ methodByte c.method ++ byte2 c.wakeTimeout ++ byte2 c.pulseWidth ++ byte2 c.vw ++
        byte2 c.vh ++
        (if c.pointerMode = .relative ∨ (s.port n).pointerFormat = .boot then [1] else [0])
    let layout : List Byte :=
      byte1 s.layout.length ++
        (s.layout.flatMap fun t => byte1 (t.monitor.val + 1) ++ byte2 t.x0 ++ byte2 t.y0 ++ byte2 t.w ++ byte2 t.h) ++
        [s.desk.zones.setWidth 8] ++ crossingByte s.desk.crossing
    let pointer : List Byte :=
      let p := s.pointer
      byte2 p.px ++ byte2 p.py ++ sbyte1 p.rx ++ sbyte1 p.ry ++
        (match p.pressure.edge with | some (m, e) => 1 :: monitorByte m ++ sideByte e | none => [0, 0, 0]) ++
        byte2 p.pressure.amount ++ flag p.capture ++ byte1 p.glideZone.val ++ byte1 p.gain ++ byte2 p.threshold ++
        byte2 p.dwell ++ (match pointerMonitor s with | some m => monitorByte m | none => [0]) ++ flag (attached s)
    let focus : List Byte :=
      focusByte s.focus.target ++ originByte s.focus.origin ++ optional 1 monitorByte s.focus.tile ++
        flag s.router.broadcast ++ memberByte s ++ flag s.keyboard.attached ++
        (s.keyboard.held.mods :: listBytes byte1 s.keyboard.held.keys) ++
        (s.router.mask.mods :: listBytes byte1 s.router.mask.keys) ++
        optional 3 (fun l : Lights => flag l.num ++ flag l.caps ++ flag l.scroll) s.keyboard.lightsSent ++
        byte4 s.keyboard.ignoredPresses ++ byte4 s.keyboard.rollovers
    let port (n : Comp) : List Byte :=
      let p := s.port n
      let c := p.counters
      busByte p.bus ++ formatByte p.keyFormat ++ formatByte p.pointerFormat ++ flag p.remoteWake ++
        flag p.lights.num ++ flag p.lights.caps ++ flag p.lights.scroll ++ pointerModeByte (effMode s n) ++
        byte1 p.flow ++ byte1 p.keyQueue.length ++ byte1 p.pointerQueue.length ++ sbyte2 p.cx ++ sbyte2 p.cy ++
        [p.buttons.setWidth 8] ++ flag p.noticed ++
        counts [c.keyQueued, c.keyTaken, c.keyReplaced, c.keyFlushed, c.keyTrimmed, c.rollovers, c.pointerQueued,
          c.pointerMerged, c.pointerTaken, c.pointerReplaced, c.pointerFlushed, c.pointerTrimmed, c.carryRecords,
          c.desktopClamps, c.viewOnlyDrops]
    let hotkey (i : Fin 32) : List Byte :=
      let m := s.matcher
      hotkeyBytes (s.hotkey i) ++ byte2 m.tapWindow ++ byte2 m.commandWindow ++
        (match m.state with
          | .idle => [0, 0, 0, 0, 0, 0, 0] ++ left none ++ left none
          | .tapping k t p d => 1 :: (1 :: byte1 k) ++ (1 :: byte1 t) ++ (1 :: flag p) ++ left d ++ left none
          | .command d => [2, 0, 0, 0, 0, 0, 0] ++ left none ++ left (some d)) ++
        ([0, 1, 2, 3, 4, 5, 6, 7, 8, 9, 10, 11, 12, 13, 14, 15].flatMap fun l : LineId =>
          byte1 (s.lineTrigger l).count) ++
        counts [m.fired, m.suppressed, m.refused]
    let output (o : OutputId) : List Byte :=
      let p := s.out o
      targetByte p.assignment ++ outputStateByte p.state ++ (if presented s o then [0] else [1]) ++
        optional 1 targetByte p.pendingSlot ++
        (match p.state with
          | .blanking t e => 1 :: targetByte t ++ left (some e) ++ left none ++ left none
          | .locking d st => [0, 0] ++ left none ++ left (some d) ++ ago st
          | _ => [0, 0] ++ left none ++ left none ++ left none) ++
        ago p.lastStart ++ byte2 p.restTime ++ byte1 p.blankLead ++ byte2 p.lockTimeout
    let head (i : Input) : List Byte :=
      match i with
      | .head h =>
        let m := s.headMap h
        flag m.enabled ++ byte2 m.ox ++ byte2 m.oy ++ byte2 m.w ++ byte2 m.h ++ flag (s.input i != .absent) ++
          detected (s.input i) ++ byte2 (effSize s h).1 ++ byte2 (effSize s h).2 ++ showing i
      | .lane k =>
        flag (s.input i != .absent) ++ detected (s.input i) ++
          (match (s.link k).inbound with | .active _ => [1] | _ => [0]) ++ showing i
    let link (k : LinkId) : List Byte :=
      let l := s.link k
      let offer (o : Offer) : List Byte :=
        (1 :: headBytes o.head) ++ (1 :: byte2 o.mode.width ++ byte2 o.mode.height ++ byte2 o.mode.refresh) ++
          (1 :: pointerModeByte o.pointerMode) ++ (1 :: byte1 o.zone.val)
      flag l.enabled ++ flag l.up ++ ago l.lastValid ++ [l.peerZones.setWidth 8] ++
        optional 1 outboundSummaryByte l.peerOutbound ++ optional 1 flag l.peerControlToYou ++
        optional 1 inboundSummaryByte l.peerInbound ++ optional 1 viewerByte l.peerViewer ++
        (match l.outbound with
          | .none => [0, 0, 0, 0, 0, 0] ++ left none
          | .offered h v t => 1 :: (1 :: headBytes h) ++ (1 :: flag v) ++ left (some (t + 15000))
          | .active h v => 2 :: (1 :: headBytes h) ++ (1 :: flag v) ++ left none) ++
        (match l.inbound with
          | .none => [0] ++ [0, 0, 0] ++ [0, 0, 0, 0, 0, 0, 0] ++ [0, 0] ++ [0, 0] ++ left none
          | .offeredIn o t => 1 :: offer o ++ left (some (t + 15000))
          | .active o => 2 :: offer o ++ left none) ++
        viewerByte l.viewer ++
        counts [l.counters.sent, l.counters.received, l.counters.crcErrors, l.counters.malformed,
          l.counters.discarded, l.counters.sendOverflow]
    let control (n : Comp) : List Byte :=
      let c := s.control n
      holderByte c.holder ++
        listBytes (fun x : Claim => linkByte x.link ++ timeBytes (s.now - x.arrival) ++ flag x.approved) c.claims ++
        ago c.lastDesk ++ byte2 (s.comp n).quietTime ++ policyByte (s.comp n).policy ++
        viewerByte (s.link 0).viewer ++ viewerByte (s.link 1).viewer
    let power (n : Comp) : List Byte :=
      let p := s.port n
      let c := s.comp n
      let flying (f : Flight) : List Byte := 1 :: methodByte f.method ++ ago (some f.start)
      busByte p.bus ++ flag p.remoteWake ++ flag c.autoWake ++ methodByte c.method ++ byte2 c.wakeTimeout ++
        byte2 c.pulseWidth ++
        (match (s.wakeOf n).attempt with
          | .none => [0, 0, 0] ++ ago none ++ [0, 0, 0, 0] ++ left none ++ left none ++ [0, 0]
          | .busSignal f e => 1 :: flying f ++ [0, 0, 0, 0] ++ left (some e) ++ left (some f.deadline) ++ [0, 0]
          | .pulse f l e =>
            2 :: flying f ++ [0, 0] ++ lineNo (some l) ++ left (some e) ++ left (some f.deadline) ++ [0, 0]
          | .wait f w e =>
            3 :: flying f ++ (1 :: waitKindByte w) ++ [0, 0] ++ left (some e) ++ left (some f.deadline) ++ [0, 0]
          | .failed r => [4, 0, 0] ++ ago none ++ [0, 0, 0, 0] ++ left none ++ left none ++ (1 :: failureByte r)) ++
        lineNo (wakeLine s n) ++
        (match (s.wakeOf n).powered with | .powered => [1, 0] | .unpowered => [1, 1] | .unknown => [0, 0]) ++
        lineNo (senseLine s n)
    let line (l : LineId) : List Byte :=
      let x := s.line l
      roleBytes x.config.role ++ driveByte x.config.drive ++ polarityByte x.config.polarity ++ flag x.config.pullUp ++
        byte1 x.config.filter ++ edgeByte x.config.edge ++ optional 1 flag x.filtered ++ flag x.candidate.isSome ++
        (match x.config.role with
          | .output | .tally _ | .wakePulse _ => 1 :: flag x.level
          | _ => [0, 0]) ++
        optional 1 pinByte x.hold ++ pinByte (Line.pin x)
    (takesTurn ⟨0x11, tag, [b]⟩ s → exec (.getComputer tag [b]) s = .next (answer 0x11 [b] ((compOf b).map computer))) ∧
    (takesTurn ⟨0x14, tag, []⟩ s → exec (.getLayout tag []) s = .next (answer 0x14 [] (some layout))) ∧
    (takesTurn ⟨0x22, tag, []⟩ s → exec (.getPointer tag []) s = .next (answer 0x22 [] (some pointer))) ∧
    (takesTurn ⟨0x29, tag, []⟩ s → exec (.getFocus tag []) s = .next (answer 0x29 [] (some focus))) ∧
    (takesTurn ⟨0x30, tag, [b]⟩ s → exec (.getPort tag [b]) s = .next (answer 0x30 [b] ((compOf b).map port))) ∧
    (takesTurn ⟨0x39, tag, [b]⟩ s →
      exec (.getHotkey tag [b]) s = .next (answer 0x39 [b] ((hotkeyIndexOf b).map hotkey))) ∧
    (takesTurn ⟨0x41, tag, [b]⟩ s → exec (.getOutput tag [b]) s = .next (answer 0x41 [b] ((outputOf b).map output))) ∧
    (takesTurn ⟨0x45, tag, [b]⟩ s → exec (.getHead tag [b]) s = .next (answer 0x45 [b] ((inputOf b).map head))) ∧
    (takesTurn ⟨0x51, tag, [b]⟩ s → exec (.getLink tag [b]) s = .next (answer 0x51 [b] ((linkOf b).map link))) ∧
    (takesTurn ⟨0x5D, tag, [b]⟩ s → exec (.getControl tag [b]) s = .next (answer 0x5D [b] ((compOf b).map control))) ∧
    (takesTurn ⟨0x61, tag, [b]⟩ s → exec (.getPower tag [b]) s = .next (answer 0x61 [b] ((compOf b).map power))) ∧
    (takesTurn ⟨0x69, tag, []⟩ s → exec (.getLines tag []) s = .next (answer 0x69 []
      (some ([0, 1, 2, 3, 4, 5, 6, 7, 8, 9, 10, 11, 12, 13, 14, 15].flatMap line))))

/-- While the receiver is HUNTING, the bytes of a supervisor frame of any kind, tag and body of at most 248 bytes, with
any bytes other than 0xC3 ahead of them, are received as one request of that kind, tag and body (which is queued,
answered BUSY or counted as R188 says), and the receiver is HUNTING again with no discard counted. That all the bytes
of one command arrive at the present time is the model's choice (notes/assumptions/14.md). (R187, R188, R197) -/
def Obligations.SupervisorFrameReceivedAsRequest : Prop :=
  ∀ (noise : List Byte) (kind tag : Byte) (body : List Byte) (s : State),
    (∀ b ∈ noise, b ≠ 0xC3) → body.length ≤ 248 → s.sup.receiver = [] →
    exec (.supervisorFrameReceived (noise ++ supWire kind tag body)) s =
      .next (handedOn (s.modSup (receiveRequest ⟨kind, tag, body⟩)))

/-- A byte without its stop bit adds one to the byte errors of a frame in progress; a gap of more than 5 ms adds one to
the gap errors once it has passed; a second byte below 2 or above 250 that arrives within 5 ms of the marker adds one
to the length errors; a whole frame whose CRC does not match adds one to the CRC errors. The receiver is HUNTING
afterwards when the bytes held after the marker hold no 0xC3. Where they do, those from the first 0xC3 on are held
again if they open a frame that is not yet whole, and are received as its request if they are a whole valid frame,
their gaps being checked against the times they first arrived. A byte error while HUNTING changes nothing. Model's
choices: the present time at the end of a gap (notes/assumptions/4.md), all bytes of one command arriving at the
present time (14.md), the byte of LENGTH_ERROR (18.md), and a late damaged byte as a byte error (40.md). (R187, R197) -/
def Obligations.DiscardedFramesAreCounted : Prop :=
  (∀ (m : Byte × Nat) (more : List (Byte × Nat)) (s : State), s.sup.receiver = m :: more →
    let ends (found : Supervisor → Supervisor) : Prop :=
      exec .byteError s = .next (handedOn { s with sup :=
        (found { s.sup with receiver := [], byteErrors := min (s.sup.byteErrors + 1) 4294967295 }) }) ∧
      exec .gapTimeout s = .next (handedOn { s with
        now := max s.now (((m :: more).getLast (by simp)).2 + 6)
        sup := (found { s.sup with receiver := [], gapErrors := min (s.sup.gapErrors + 1) 4294967295 }) })
    ((∀ b ∈ more, b.1 ≠ 0xC3) → ends fun p => p) ∧
    (∀ skip held : List (Byte × Nat), more = skip ++ held → (∀ b ∈ skip, b.1 ≠ 0xC3) →
      (∀ i : Nat, ∀ a b, held[i]? = some a → held[i + 1]? = some b → b.2 ≤ a.2 + 5) →
      ((held.map Prod.fst = [0xC3] ∨ ∃ len rest, held.map Prod.fst = 0xC3 :: len :: rest ∧ 2 ≤ len.toNat ∧
          len.toNat ≤ 250 ∧ rest.length < len.toNat + 2) →
        ends fun p => { p with receiver := held }) ∧
      ∀ (kind tag : Byte) (body : List Byte), body.length ≤ 248 → held.map Prod.fst = supWire kind tag body →
        ends (receiveRequest ⟨kind, tag, body⟩)) ∧
    (∀ len : Byte, more = [] → s.now ≤ m.2 + 5 → (len.toNat < 2 ∨ 250 < len.toNat) →
      exec (.lengthError len) s = .next (handedOn { s with sup :=
        { s.sup with receiver := [], lengthErrors := min (s.sup.lengthErrors + 1) 4294967295 } }))) ∧
  (∀ s : State, s.sup.receiver = [] → exec .byteError s = .next (handedOn s)) ∧
  ∀ (kind tag c1 c0 : Byte) (body : List Byte) (s : State),
    let inner := BitVec.ofNat 8 (body.length + 2) :: kind :: tag :: body
    s.sup.receiver = [] → body.length ≤ 248 → crcBytes (crc16 inner) ≠ [c1, c0] →
    (∀ b ∈ inner ++ [c1, c0], b ≠ 0xC3) →
    exec (.supervisorFrameReceived (0xC3 :: inner ++ [c1, c0])) s = .next (handedOn { s with sup :=
      { s.sup with crcErrors := min (s.sup.crcErrors + 1) 4294967295 } })

/-- After a device reset the supervisor link is HUNTING with empty queues, every subscription on, every count 0, the
cause POWER_ON or RESET_PIN, and READY with that cause being sent; each link and each line holds its device reset
values at the present time; and every other block is as after power-on. That the timebase runs on, that the wiring
outside the lines stands as it was, and that waiting commands go on waiting are the model's choices
(notes/assumptions/1.md), as are READY and each link's first ALIVE being sent already (5.md), the filter of each line
starting on its pin (13.md), the ports' answers to polls (10.md) and the last frames sent on the links (16.md). (R17,
R18, R58, R87, R119, R135, R150, R165, R179, R195) -/
def Obligations.DeviceResetValues : Prop :=
  ∀ (c : DeviceResetCause) (s : State), ∃ t, exec (.deviceReset c) s = .next t ∧
    t.sup =
      { receiver := [], requests := [], replies := [], waiting := none, notices := []
        sending := some ⟨0xF0, 0, [match c with | .powerOn => 0 | .resetPin => 1]⟩
        resetDue := false, classes := 0xFF, lost := 0, lengthErrors := 0, crcErrors := 0, gapErrors := 0
        byteErrors := 0, overruns := 0, cause := match c with | .powerOn => .powerOn | .resetPin => .resetPin } ∧
    (∀ k, t.link k = Link.reset s.now) ∧
    (∀ l, t.line l = Line.reset s.now (s.line l).wireLevel (s.line l).wireStrong) ∧
    t = { State.reset with now := s.now, sup := t.sup, links := t.links, lines := t.lines, pending := s.pending }

/-- When the last byte of a RESET reply has been sent, the warm reset puts the tables, the lock, the pointer, the focus,
the router, the hotkeys, the blank unit, the control lock table, the wake records and the scenes at their reset
values; empties the ports' queues and keeps their bus states, formats, permissions and light reports; sends an
attached keyboard the wanted lights; forms END (RESET) for each session of an UP link and then an ALIVE, clears the
sessions, the receivers and the counts, and keeps what the links know of the peer and are sending; takes an ACTIVE
session's lane away; gives each output its default target (R114), its assignment kept; keeps the detected modes of
the heads; gives each line its reset configuration, a line in an output role holding its pin, a pulse first ended and
a TALLY line inactive when the focus has ended with its session; and leaves the supervisor link at its reset values
with READY (REQUEST) being sent. Nothing else changes. Model's choices: READY being sent already
(notes/assumptions/5.md), the due reset as a field of its own (12.md), a hold that stood, the frames kept and the 100
ms to the next ALIVE (31.md), the ports' answers to polls kept (10.md), and the router's last frames sent on the
links at their values after a device reset (16.md). (R17, R54, R57, R76, R87, R114, R119, R135, R147, R165, R184,
R194) -/
def Obligations.WarmResetValues : Prop :=
  ∀ s : State, s.sup.resetDue = true → ∃ t, exec .warmReset s = .next t ∧
    t.comps = State.reset.comps ∧ t.heads = State.reset.heads ∧ t.layout = State.reset.layout ∧
    t.desk = State.reset.desk ∧ t.lock = ⟨0, false⟩ ∧ t.pointer = State.reset.pointer ∧
    t.focus = ⟨.loc 0, .glide, some 0⟩ ∧ t.router = State.reset.router ∧ t.hotkeys = State.reset.hotkeys ∧
    t.matcher = State.reset.matcher ∧ t.lineTriggers = State.reset.lineTriggers ∧ t.blank = State.reset.blank ∧
    t.controls = State.reset.controls ∧ t.wake = State.reset.wake ∧ t.scenes = State.reset.scenes ∧
    t.crosspointStart = none ∧ t.now = s.now ∧ t.mouse = s.mouse ∧ t.pending = s.pending ∧
    t.keyboard = ⟨s.keyboard.attached, ⟨0, []⟩, if s.keyboard.attached then some (s.port 0).lights else none, 0, 0⟩ ∧
    (∀ n, t.port n =
      { Port.reset with
        bus := (s.port n).bus, keyFormat := (s.port n).keyFormat, pointerFormat := (s.port n).pointerFormat
        remoteWake := (s.port n).remoteWake, lights := (s.port n).lights
        keyAnswer := (s.port n).keyAnswer, pointerAnswer := (s.port n).pointerAnswer }) ∧
    (∀ h, t.input (.head h) = s.input (.head h)) ∧
    (∀ k, t.input (.lane k) = match (s.link k).inbound with | .active _ => .absent | _ => s.input (.lane k)) ∧
    (∀ o,
      let p := s.out o
      let lost : Bool :=
        match p.assignment with
        | some (.lane k) =>
          match (s.link k).inbound with
          | .active _ => s.input (.lane k) != .absent
          | _ => false
        | _ => false
      let shows : Prop := p.assignment = defaultTarget o ∧ p.state = (if o.val < 4 then .showing else .dark)
      t.out o =
        { assignment := p.assignment
          state :=
            match p.state with
            | .blanking _ e => .blanking (defaultTarget o) e
            | .locking d u => .locking d (if lost then none else u)
            | .showing => if lost then .noSignal else .showing
            | x => x
          pendingSlot := (t.out o).pendingSlot
          lastStart := none, restTime := 200, blankLead := 20, lockTimeout := 1500 } ∧
      (shows ∨ (∃ x e, p.state = .blanking x e) → (t.out o).pendingSlot = none) ∧
      (¬ shows → (∀ x e, p.state ≠ .blanking x e) → (t.out o).pendingSlot = some (defaultTarget o))) ∧
    (∀ k,
      let l := s.link k
      let l1 := if l.up = true ∧ l.outbound ≠ .none then enqueueFrame (.endSession .owner .reset) l else l
      let l2 := if l.up = true ∧ l.inbound ≠ .none then enqueueFrame (.endSession .viewer .reset) l1 else l1
      t.link k =
        { enqueueFrame (.alive ⟨1, .none, false, .none, .none⟩)
            { l2 with
              enabled := true, receiver := [], outbound := .none, inbound := .none, viewer := .none
              counters := ⟨0, 0, 0, 0, 0, 0⟩ } with
          nextAlive := s.now + 100 }) ∧
    (∀ l,
      let ln := s.line l
      let pulsed : Bool := allComps.any fun n => Attempt.pulseLine (s.wakeOf n).attempt == some l
      let unfocused : Bool :=
        match ln.config.role, s.focus.target with
        | .tally _, .rem k =>
          match (s.link k).inbound with
          | .active _ => true
          | _ => false
        | _, _ => false
      let level : Bool := ln.level && !pulsed && !unfocused
      let hold : Option Pin :=
        if Role.isOutput ln.config.role then some (Line.pin { ln with level := level }) else ln.hold
      t.line l =
        { config := ⟨.none, .pushPull, .normal, false, 10, .rising⟩
          filtered := none
          candidate := if hold = none then some (ln.wireLevel, s.now) else none
          level := false, hold := hold, wireLevel := ln.wireLevel, wireStrong := ln.wireStrong }) ∧
    t.sup = { (State.reset).sup with sending := some ⟨0xF0, 0, [2]⟩, cause := .request }

/-- SET_LOCK with a level above 3 is answered BAD_ARG and does not use up the one acceptance. A level of 0 to 3 is
written and the flag set when the flag is clear, and is answered LOCKED when it is set. Nothing else changes. A
device reset and a warm reset leave the level 0 and the flag clear; no other command does more to them than a first
SET_LOCK with a level of 0 to 3 does, and where the flag being clear means level 0, as it does after a reset, it goes
on to mean so and the level does not fall. GET_STATUS reads the level back and changes neither. (R13) -/
def Obligations.LockAcceptedOnce : Prop :=
  (∀ (tag b : Byte) (s : State), takesTurn ⟨0x05, tag, [b]⟩ s →
    exec (.setLock tag [b]) s = .next
      (if 3 < b.toNat then replied ⟨0x05, tag, [b]⟩ .badArg [] (begun ⟨0x05, tag, [b]⟩ s)
      else if s.lock.used then replied ⟨0x05, tag, [b]⟩ .locked [] (begun ⟨0x05, tag, [b]⟩ s)
      else replied ⟨0x05, tag, [b]⟩ .ok [] { begun ⟨0x05, tag, [b]⟩ s with lock := ⟨b.toNat, true⟩ })) ∧
  State.reset.lock = ⟨0, false⟩ ∧
  (∀ (cause : DeviceResetCause) (s : State), ∃ t, exec (.deviceReset cause) s = .next t ∧ t.lock = ⟨0, false⟩) ∧
  (∀ s : State, (warmReset s).lock = ⟨0, false⟩) ∧
  (∀ (c : Instr) (s t : State), (∀ x, c ≠ .deviceReset x) → c ≠ .warmReset → exec c s = .next t →
    (t.lock = s.lock ∨ (s.lock.used = false ∧ t.lock.used = true ∧ t.lock.level ≤ 3)) ∧
    ((s.lock.used = false → s.lock.level = 0) →
      (t.lock.used = false → t.lock.level = 0) ∧ s.lock.level ≤ t.lock.level)) ∧
  ∀ (tag : Byte) (s : State), takesTurn ⟨0x01, tag, []⟩ s → s.lock.level ≤ 3 →
    ∃ level rest u, exec (.getStatus tag []) s = .next (replied ⟨0x01, tag, []⟩ .ok (0x84 :: 1 :: level :: rest) u) ∧
      level.toNat = s.lock.level ∧ u.lock = s.lock

/-- For every command other than a reset and every state, the lock level and its flag stay as they are or a first
SET_LOCK writes a level of at most 3; where the flag being clear means level 0, as it does after a reset, it goes on
to mean so and the level does not fall; from level 1 upwards the desk settings and every zone and share policy keep
their values; from level 2 upwards the hotkey table, the two windows, every line's configuration and the privacy
blank settings do; and at level 3 the layout, the head maps and every pointer mode, VW and VH do. (R13, R14, R15,
R16) -/
def Obligations.FrozenFieldsKeepTheirValues : Prop :=
  ∀ (c : Instr) (s t : State), (∀ x, c ≠ .deviceReset x) → c ≠ .warmReset → exec c s = .next t →
    (t.lock = s.lock ∨ (s.lock.used = false ∧ t.lock.used = true ∧ t.lock.level ≤ 3)) ∧
    ((s.lock.used = false → s.lock.level = 0) →
      (t.lock.used = false → t.lock.level = 0) ∧ s.lock.level ≤ t.lock.level) ∧
    (1 ≤ s.lock.level → t.desk = s.desk ∧
      ∀ n, (t.comp n).zone = (s.comp n).zone ∧ (t.comp n).policy = (s.comp n).policy) ∧
    (2 ≤ s.lock.level → t.hotkeys = s.hotkeys ∧ t.matcher.tapWindow = s.matcher.tapWindow ∧
      t.matcher.commandWindow = s.matcher.commandWindow ∧ (∀ l, (t.line l).config = (s.line l).config) ∧
      t.blank.autoRecover = s.blank.autoRecover ∧ t.blank.holdTime = s.blank.holdTime ∧
      t.blank.hotkeyResume = s.blank.hotkeyResume) ∧
    (3 ≤ s.lock.level → t.layout = s.layout ∧ t.heads = s.heads ∧
      ∀ n, (t.comp n).pointerMode = (s.comp n).pointerMode ∧ (t.comp n).vw = (s.comp n).vw ∧
        (t.comp n).vh = (s.comp n).vh)

/-- A byte out of its range is answered BAD_ARG, and a changed field that the lock level freezes LOCKED, with no field
written. Otherwise the record of Cn takes every value, the quiet time, wake timeout and pulse width clamped and the
member flag kept; no other record changes; the glide zone follows a new zone of the computer that gave it; each
computer that has left the recipient set is released, with the PORT notices that R75 calls for and no other; and when
one has joined it every held key enters the mask. When the effective pointer mode changes, each link whose outbound
session is ACTIVE on a head of the computer forms a MODE frame with the new mode, and a capture on the computer ends
when it becomes ABSOLUTE; no other frame is formed. After all this (the order is the model's choice,
notes/assumptions/33.md) a changed quiet time or policy grants the oldest claim where R155 allows it, with all that
R152 says of a grant: the claim leaves the list, the computer is released and the link is its holder, GRANT is formed
and a CONTROL notice follows. Nothing else changes, and the rest of the supervisor link stays. Among the releases the
order is the model's (35.md). (R2, R3, R4, R15, R28, R49, R53, R55, R75, R145, R152, R155) -/
def Obligations.ComputerRecordWritten : Prop :=
  ∀ (tag : Byte) (s : State),
    (∀ c z p sp q1 q0 aw wm t1 t0 w1 w0 vw1 vw0 vh1 vh0 : Byte,
      let r : Request := ⟨0x10, tag, [c, z, p, sp, q1, q0, aw, wm, t1, t0, w1, w0, vw1, vw0, vh1, vh0]⟩
      (c = 0 ∨ 8 < c.toNat ∨ 3 < z.toNat ∨ 1 < p.toNat ∨ 3 < sp.toNat ∨ 1 < aw.toNat ∨ 2 < wm.toNat ∨
        num2 vw1 vw0 = 0 ∨ 16384 < num2 vw1 vw0 ∨ num2 vh1 vh0 = 0 ∨ 16384 < num2 vh1 vh0) →
      takesTurn r s → exec (.setComputer tag r.body) s = .next (replied r .badArg [] (begun r s))) ∧
    ∀ (n : Comp) (z : Zone) (p : PointerMode) (sp : SharePolicy) (q : Nat) (aw : Bool) (wm : WakeMethod)
      (wt pw vw vh : Nat), q ≤ 65535 → wt ≤ 65535 → pw ≤ 65535 → 1 ≤ vw → vw ≤ 16384 → 1 ≤ vh → vh ≤ 16384 →
      let r : Request := ⟨0x10, tag, compByte n ++ byte1 z.val ++ pointerModeByte p ++ policyByte sp ++ byte2 q ++
        flag aw ++ methodByte wm ++ byte2 wt ++ byte2 pw ++ byte2 vw ++ byte2 vh⟩
      let old := s.comp n
      let new : CompRecord :=
        { zone := z, pointerMode := p, member := old.member, policy := sp, quietTime := min 60000 q, autoWake := aw
          method := wm, wakeTimeout := max 1000 (min 30000 wt), pulseWidth := max 50 (min 5000 pw), vw := vw, vh := vh }
      takesTurn r s →
      (((1 ≤ s.lock.level ∧ (z ≠ old.zone ∨ sp ≠ old.policy)) ∨
          (3 ≤ s.lock.level ∧ (p ≠ old.pointerMode ∨ vw ≠ old.vw ∨ vh ≠ old.vh))) →
        exec (.setComputer tag r.body) s = .next (replied r .locked [] (begun r s))) ∧
      (¬ ((1 ≤ s.lock.level ∧ (z ≠ old.zone ∨ sp ≠ old.policy)) ∨
          (3 ≤ s.lock.level ∧ (p ≠ old.pointerMode ∨ vw ≠ old.vw ∨ vh ≠ old.vh))) →
        ∃ x u, exec (.setComputer tag r.body) s = .next (replied r .ok [] u) ∧
          x.comp n = new ∧ (∀ m, m ≠ n → x.comp m = s.comp m) ∧
          x.pointer.glideZone =
            (if z ≠ old.zone ∧ s.pointer.glideFrom = .loc n then z else s.pointer.glideZone) ∧
          (let mode : PointerMode :=
            if p = .relative ∨ (s.port n).pointerFormat = .boot then .relative else .absolute
           let changed : Bool := mode != effMode s n
           (∀ k, x.link k =
             match Outbound.activeHead (s.link k).outbound with
             | some h =>
               if h.comp = n ∧ changed = true then enqueueFrame (.mode (sentMode s h) mode) (s.link k) else s.link k
             | none => s.link k) ∧
           computersReleased
             (fun m =>
               if m = n ∧ changed = true ∧ mode = .absolute ∧ s.focus.target = .loc n ∧ s.pointer.capture = true then
                 carryCleared (s.port m)
               else s.port m) s x ∧
           ((∃ m, isRecipient x m = true ∧ isRecipient s m = false) → heldMasked s x) ∧
           ((∀ m, isRecipient x m = true → isRecipient s m = true) → x.router.mask = s.router.mask) ∧
           x.router.broadcast = s.router.broadcast ∧ x.router.linkKeys = s.router.linkKeys ∧
           x.router.linkPointer = s.router.linkPointer ∧
           x.pointer.capture =
             (s.pointer.capture && !(s.focus.target == .loc n && changed && mode == .absolute))) ∧
          x = { begun r s with
            comps := x.comps, router := x.router, ports := x.ports, controls := x.controls, links := x.links
            pointer := { s.pointer with glideZone := x.pointer.glideZone, capture := x.pointer.capture }
            sup := toldLeavers s x (begun r s).sup } ∧
          (let due : Prop := (new.quietTime ≠ old.quietTime ∨ sp ≠ old.policy) ∧ sp = .auto ∧
             (s.control n).holder = .desk ∧ ∀ d, (x.control n).lastDesk = some d → new.quietTime ≤ s.now - d
           (∀ c cs, due → (s.control n).claims = c :: cs → grantMade n c.link .auto x u) ∧
           (¬ due ∨ (s.control n).claims = [] → u = x)))

/-- SET_HEAD with a computer, letter or flag byte that names none, an offset above 16383 or a size outside 1 to 8192 is
answered BAD_ARG, and a changed entry at level 3 LOCKED. Otherwise the entry of that head takes the four values, no
other entry changes, and each link whose outbound session is ACTIVE on the head forms a MODE frame if the head's
effective size has changed. SET_DESK with an empty zone set, a zone above 3 or an unknown policy is answered BAD_ARG,
a changed setting from level 1 upwards LOCKED, and otherwise both settings are written and nothing else. (R6, R7,
R12, R15) -/
def Obligations.HeadMapAndDeskSettingsWritten : Prop :=
  ∀ (tag : Byte) (s : State),
    (∀ (h : Head) (e : Bool) (ox oy w ht : Nat), ox ≤ 65535 → oy ≤ 65535 → w ≤ 65535 → ht ≤ 65535 →
      let r : Request := ⟨0x12, tag, headBytes h ++ flag e ++ byte2 ox ++ byte2 oy ++ byte2 w ++ byte2 ht⟩
      takesTurn r s →
      ((16383 < ox ∨ 16383 < oy ∨ w = 0 ∨ 8192 < w ∨ ht = 0 ∨ 8192 < ht) →
        exec (.setHead tag r.body) s = .next (replied r .badArg [] (begun r s))) ∧
      (¬ (16383 < ox ∨ 16383 < oy ∨ w = 0 ∨ 8192 < w ∨ ht = 0 ∨ 8192 < ht) →
        (3 ≤ s.lock.level ∧ s.headMap h ≠ ⟨e, ox, oy, w, ht⟩ →
          exec (.setHead tag r.body) s = .next (replied r .locked [] (begun r s))) ∧
        (¬ (3 ≤ s.lock.level ∧ s.headMap h ≠ ⟨e, ox, oy, w, ht⟩) →
          ∃ u, exec (.setHead tag r.body) s = .next (replied r .ok [] u) ∧
            u.headMap h = ⟨e, ox, oy, w, ht⟩ ∧ (∀ g, g ≠ h → u.headMap g = s.headMap g) ∧
            (∀ k, u.link k =
              if Outbound.activeHead (s.link k).outbound = some h ∧ effSize u h ≠ effSize s h then
                enqueueFrame (.mode (sentMode u h) (effMode s h.comp)) (s.link k)
              else s.link k) ∧
            u = { begun r s with heads := u.heads, links := u.links }))) ∧
    (∀ n l e x1 x0 y1 y0 w1 w0 h1 h0 : Byte, (n = 0 ∨ 8 < n.toNat ∨ 1 < l.toNat ∨ 1 < e.toNat) →
      let r : Request := ⟨0x12, tag, [n, l, e, x1, x0, y1, y0, w1, w0, h1, h0]⟩
      takesTurn r s → exec (.setHead tag r.body) s = .next (replied r .badArg [] (begun r s))) ∧
    ∀ b0 b1 : Byte,
      let r : Request := ⟨0x15, tag, [b0, b1]⟩
      let new : DeskSettings := ⟨b0.setWidth 4, if b1 = 0 then .free else .block⟩
      takesTurn r s →
      exec (.setDesk tag [b0, b1]) s = .next
        (if b0 = 0 ∨ 15 < b0.toNat ∨ 1 < b1.toNat then replied r .badArg [] (begun r s)
        else if 1 ≤ s.lock.level ∧ new ≠ s.desk then replied r .locked [] (begun r s)
        else replied r .ok [] { begun r s with desk := new })

/-- A tile list that is empty, longer than four, names a monitor twice or one outside M1 to M4, has a tile out of
range, or has two tiles with a desk unit in common is answered BAD_ARG. A valid list, in whatever order, is put in
monitor order. If it is the list held nothing changes; if it differs at level 3 it is LOCKED; otherwise it is stored,
the residuals and the edge pressure are cleared, and the pointer is held within the new tile of its monitor, or placed
at the centre of the lowest-numbered tile when its monitor has none; if the pointer's monitor was the focus tile the
focus is re-evaluated for the monitor it is on now, a changed target acting as at every focus change and an unchanged
one leaving the input router, the keyboard, the ports and the links as they were, each TALLY line following its
target, and otherwise the layout and the pointer alone change. The outputs, the scenes, the input states, the tables
and the other blocks stay as they are. The PORT notices of the releases are placed, from C1 to C8 (the order is the
model's choice, notes/assumptions/35.md), and then, where a field of the focus record has been altered, its FOCUS
notice; nothing else of the supervisor link changes. That a frame discarded by a full send queue counts as sent
(36.md), that a link is released also under a session mode of 0 × 0 (37.md), and that the lights are checked at a
focus change during privacy blank too (45.md), are the model's choices. (R8, R9, R10, R15, R18, R26, R32, R38, R40,
R55, R56, R181) -/
def Obligations.LayoutWrittenWhole : Prop :=
  (∀ (tag : Byte) (ts : List Tile) (s : State), ts.length ≤ 27 →
    (∀ t ∈ ts, t.x0 ≤ 65535 ∧ t.y0 ≤ 65535 ∧ t.w ≤ 65535 ∧ t.h ≤ 65535) →
    let r : Request := ⟨0x13, tag, listBytes tileBytes ts⟩
    takesTurn r s →
    (¬ validLayout ts → exec (.setLayout tag r.body) s = .next (replied r .badArg [] (begun r s))) ∧
    ∀ new : List Tile, validLayout ts → new.Perm ts → new.Pairwise (fun a b => a.monitor < b.monitor) →
      (new = s.layout → exec (.setLayout tag r.body) s = .next (replied r .ok [] (begun r s))) ∧
      (new ≠ s.layout → 3 ≤ s.lock.level →
        exec (.setLayout tag r.body) s = .next (replied r .locked [] (begun r s))) ∧
      (new ≠ s.layout → s.lock.level < 3 →
        ∃ u, exec (.setLayout tag r.body) s = .next (replied r .ok [] u) ∧
          u.layout = new ∧ u.pointer.rx = 0 ∧ u.pointer.ry = 0 ∧ u.pointer.pressure = ⟨none, 0, none⟩ ∧
          (∀ m t, pointerMonitor s = some m → t ∈ new → t.monitor = m →
            u.pointer.px = max t.x0 (min (t.x0 + t.w - 1) s.pointer.px) ∧
            u.pointer.py = max t.y0 (min (t.y0 + t.h - 1) s.pointer.py)) ∧
          (∀ t rest, new = t :: rest → (∀ m, pointerMonitor s = some m → ∀ x ∈ new, x.monitor ≠ m) →
            u.pointer.px = t.x0 + t.w / 2 ∧ u.pointer.py = t.y0 + t.h / 2) ∧
          (∀ m, pointerMonitor s = some m → s.focus.tile = some m →
            ∃ m', pointerMonitor u = some m' ∧
              u.focus = ⟨formedTarget s (assignmentOf s m'), .glide, some m'⟩ ∧
              (u.focus.target = s.focus.target →
                u.pointer.capture = s.pointer.capture ∧ u.ports = s.ports ∧ targetKept s u) ∧
              (u.focus.target ≠ s.focus.target → refocused s u)) ∧
          ((∀ m, pointerMonitor s = some m → s.focus.tile ≠ some m) →
            u = { begun r s with
              layout := new
              pointer := { s.pointer with
                px := u.pointer.px, py := u.pointer.py, rx := 0, ry := 0, pressure := ⟨none, 0, none⟩ } }) ∧
          linesFollow s u ∧
          u = { begun r s with
            layout := u.layout, pointer := u.pointer, focus := u.focus, router := u.router, ports := u.ports
            controls := u.controls, keyboard := u.keyboard, lines := u.lines, links := u.links
            sup := toldWrite s u (begun r s).sup })) ∧
  ∀ (tag c m x1 x0 y1 y0 w1 w0 h1 h0 : Byte) (before after : List Byte) (s : State),
    before.length % 9 = 0 → before.length + 9 + after.length = 9 * c.toNat → (m = 0 ∨ 4 < m.toNat) →
    let r : Request := ⟨0x13, tag, c :: before ++ [m, x1, x0, y1, y0, w1, w0, h1, h0] ++ after⟩
    takesTurn r s → exec (.setLayout tag r.body) s = .next (replied r .badArg [] (begun r s))

/-- A monitor outside M1 to M4 is answered BAD_ARG, one without a tile WRONG_STATE, and any while privacy blank is
engaged BLANKED, at every lock level, with nothing changed; where two of these hold, one of the two answers. Otherwise
the position is clamped into the monitor's tile and the pointer moves there, its residuals and edge pressure cleared;
the focus becomes the target formed from the monitor's assignment, with origin GLIDE and that monitor as tile, whether
or not the monitor has changed; a changed target acting as at every focus change: capture ends, every held key is
masked, the delta carry of the old focus computer is cleared, the recipients that have left are released, and the
lights and the glide zone are those of the new target. At an unchanged one the capture flag, the ports, the router,
the lights, the links and the glide zone stay. Each TALLY line follows its target, and no other line changes. The
tables, the outputs and the other blocks stay as they are. The PORT notices of the releases are placed, from C1 to C8
(the order is the model's choice, notes/assumptions/35.md), and then, where a field of the focus record has been
altered, its FOCUS notice; nothing else of the supervisor link changes. That a frame discarded by a full send queue
counts as sent (36.md), and that a link is released also under a session mode of 0 × 0 (37.md), are the model's
choices, as is the answer where two refusals hold, which the statement leaves open (43.md). (R18, R26, R31, R38, R39,
R40, R49, R55, R56, R75, R181) -/
def Obligations.PlacePointerClampsIntoTile : Prop :=
  ∀ (tag b x1 x0 y1 y0 : Byte) (s : State),
    let r : Request := ⟨0x21, tag, [b, x1, x0, y1, y0]⟩
    takesTurn r s →
    let refused (c : ResultCode) : Prop := exec (.placePointer tag r.body) s = .next (replied r c [] (begun r s))
    ((b = 0 ∨ 4 < b.toNat) →
      if s.blank.state = .clear then refused .badArg else refused .badArg ∨ refused .blanked) ∧
    ∀ m : Monitor, b.toNat = m.val + 1 →
      ((∀ t ∈ s.layout, t.monitor ≠ m) →
        if s.blank.state = .clear then refused .wrongState else refused .wrongState ∨ refused .blanked) ∧
      ∀ t : Tile, tileOf s.layout m = some t →
        (s.blank.state ≠ .clear → refused .blanked) ∧
        (s.blank.state = .clear →
          ∃ u, exec (.placePointer tag r.body) s = .next (replied r .ok [] u) ∧
            u.pointer.px = max t.x0 (min (t.x0 + t.w - 1) (num2 x1 x0)) ∧
            u.pointer.py = max t.y0 (min (t.y0 + t.h - 1) (num2 y1 y0)) ∧
            u.pointer.rx = 0 ∧ u.pointer.ry = 0 ∧ u.pointer.pressure = ⟨none, 0, none⟩ ∧
            u.focus = ⟨formedTarget s (assignmentOf s m), .glide, some m⟩ ∧
            (u.focus.target = s.focus.target →
              u.pointer.capture = s.pointer.capture ∧ u.ports = s.ports ∧ targetKept s u) ∧
            (u.focus.target ≠ s.focus.target → refocused s u) ∧
            linesFollow s u ∧ u.router.broadcast = s.router.broadcast ∧
            u.pointer.gain = s.pointer.gain ∧ u.pointer.threshold = s.pointer.threshold ∧
            u.pointer.dwell = s.pointer.dwell ∧
            u = { begun r s with
              pointer := u.pointer, focus := u.focus, router := u.router, ports := u.ports, controls := u.controls
              keyboard := u.keyboard, lines := u.lines, links := u.links, sup := toldWrite s u (begun r s).sup })

/-- Stage C gives floor(l × W / w), inside 0 to W − 1 for a tile-local l inside the tile, its product at most 134209536;
the effective size is the detected mode's when the head has signal and both detected dimensions are nonzero and at
most 8192, and the nominal size otherwise. Stage E gives floor((2 g 32767 + (V − 1)) / (2 (V − 1))) for V above 1 and
0 for V = 1; for g in 0 to V − 1 it lies in 0 to 32767, 0 giving 0 and V − 1 giving 32767, with a numerator of at
most 1073659905. (R33, R35) -/
def Obligations.MappingStagesCAndE : Prop :=
  (∀ p x0 w W : Nat, x0 ≤ p → p < x0 + w → w ≤ 16384 → 1 ≤ W → W ≤ 8192 →
    stageC p x0 w W = (p - x0) * W / w ∧ stageC p x0 w W ≤ W - 1 ∧ (p - x0) * W ≤ 134209536) ∧
  (∀ (s : State) (h : Head),
    (∀ m, s.input (.head h) = .measured m → m.width ≠ 0 → m.height ≠ 0 → m.width ≤ 8192 → m.height ≤ 8192 →
      effSize s h = (m.width, m.height)) ∧
    ((∀ m, s.input (.head h) = .measured m → m.width = 0 ∨ m.height = 0 ∨ 8192 < m.width ∨ 8192 < m.height) →
      effSize s h = ((s.headMap h).w, (s.headMap h).h))) ∧
  ∀ g v : Nat, 1 ≤ v → v ≤ 16384 → g ≤ v - 1 →
    (v = 1 → stageE g v = 0) ∧
    (1 < v → stageE g v = (2 * g * 32767 + (v - 1)) / (2 * (v - 1)) ∧ (g = v - 1 → stageE g v = 32767)) ∧
    stageE 0 v = 0 ∧ stageE g v ≤ 32767 ∧ 2 * g * 32767 + (v - 1) ≤ 1073659905

/-- DESK_POINTER_ATTACH leaves the port ATTACHED with no buttons. A report to a DETACHED port, and a detach of one,
change nothing. A report while privacy blank is ENGAGED or RECOVERING updates the button state and nothing else. A
detach leaves the port DETACHED with no buttons, and does not move the pointer: with privacy blank CLEAR it is an
event of no movement, which clears the residuals and the edge pressure if a capture starts with it and leaves the
desk pointer as it was if none does. On an attached computer that the desk holds it hands the port a record with no
buttons: no movement on the relative delta path, and otherwise the position of stages C, D and E, each desktop clamp
counted; a DETACHED port takes none. On an attached lane under HELD control whose session mode is not 0 × 0 it sends
such a frame. Nothing else is handed on. That an attach has this effect in any state is the model's choice
(notes/assumptions/27.md), and so is what a full send queue leaves (36.md). (R19, R21, R27, R28, R29, R33, R34, R35,
R36) -/
def Obligations.MousePortStates : Prop :=
  ∀ (dx dy w : Int) (b : Buttons) (s : State),
    exec .deskPointerAttach s = .next (handedOn { s with mouse := ⟨true, 0⟩ }) ∧
    (s.mouse.attached = false →
      exec (.deskPointerReport dx dy w b) s = .next (handedOn s) ∧ exec .deskPointerDetach s = .next (handedOn s)) ∧
    (s.mouse.attached = true → s.blank.state ≠ .clear →
      exec (.deskPointerReport dx dy w b) s = .next (handedOn { s with mouse := ⟨true, b⟩ }) ∧
      exec .deskPointerDetach s = .next (handedOn { s with mouse := ⟨false, 0⟩ })) ∧
    (s.mouse.attached = true → -15 ≤ s.pointer.rx → s.pointer.rx ≤ 15 → -15 ≤ s.pointer.ry → s.pointer.ry ≤ 15 →
      ∃ t, exec .deskPointerDetach s = .next t ∧ t.mouse = ⟨false, 0⟩ ∧ t.focus = s.focus ∧
        (s.blank.state = .clear → s.pointer.capture = false → capturable s = true →
          t.pointer = { s.pointer with capture := true, rx := 0, ry := 0, pressure := ⟨none, 0, none⟩ }) ∧
        (¬ (s.blank.state = .clear ∧ s.pointer.capture = false ∧ capturable s = true) → t.pointer = s.pointer) ∧
        (s.blank.state = .clear →
          let captured : Bool := s.pointer.capture || capturable s
          let nothing : Prop :=
            t.ports = s.ports ∧ t.links = s.links ∧ t.router = s.router ∧ t.controls = s.controls ∧
              t.sup = transmitNext s.sup
          (attached s = false → nothing) ∧
          ∀ tile, attached s = true → pointerTile s = some tile →
            (∀ n h, s.focus.target = .loc n → assignmentOf s tile.monitor = some (.head h) →
              ((s.control n).holder ≠ .desk → nothing) ∧
              ((s.control n).holder = .desk →
                let gx := (s.headMap h).ox + (s.pointer.px - tile.x0) * (effSize s h).1 / tile.w
                let gy := (s.headMap h).oy + (s.pointer.py - tile.y0) * (effSize s h).2 / tile.h
                let c := s.comp n
                let r : PointerRecord :=
                  if captured then .relative 0 0 0 0
                  else .absolute 0 (stageE (min gx (c.vw - 1)) c.vw) (stageE (min gy (c.vh - 1)) c.vh) 0
                let clamps := (if c.vw - 1 < gx then 1 else 0) + (if c.vh - 1 < gy then 1 else 0)
                let p : Port :=
                  if captured then s.port n
                  else { s.port n with counters := { (s.port n).counters with
                    desktopClamps := min ((s.port n).counters.desktopClamps + clamps) 4294967295 } }
                (∀ m, m ≠ n → t.port m = s.port m ∧ t.control m = s.control m ∧ t.lastPointer m = s.lastPointer m) ∧
                t.links = s.links ∧ t.router = { s.router with lastPointer := t.router.lastPointer } ∧
                ((s.port n).bus = .detached →
                  t.port n = p ∧ t.control n = s.control n ∧ t.lastPointer n = s.lastPointer n ∧
                  t.sup = transmitNext s.sup) ∧
                ((s.port n).bus ≠ .detached →
                  t.port n = pushPointer r p ∧ t.control n = { s.control n with lastDesk := some s.now } ∧
                  t.lastPointer n = some r ∧ t.sup = transmitNext (toldPointer n r (s.port n) s.sup)))) ∧
            ∀ k, s.focus.target = .rem k →
              (((s.link k).viewer ≠ .held ∨ ∀ o, activeOffer s k = some o → o.mode.width = 0 ∧ o.mode.height = 0) →
                nothing) ∧
              ∀ o, (s.link k).viewer = .held → activeOffer s k = some o →
                ¬ (o.mode.width = 0 ∧ o.mode.height = 0) →
                let f : PointerFrame :=
                  if captured then .relative 0 0 0 0
                  else .absolute 0 ((s.pointer.px - tile.x0) * o.mode.width / tile.w)
                    ((s.pointer.py - tile.y0) * o.mode.height / tile.h) 0
                t.link k = enqueueFrame (.pointer f) (s.link k) ∧ (∀ j, j ≠ k → t.link j = s.link j) ∧
                t.linkPointer k = some f ∧ (∀ j, j ≠ k → t.linkPointer j = s.linkPointer j) ∧
                t.ports = s.ports ∧ t.controls = s.controls ∧
                t.router = { s.router with linkPointer := t.router.linkPointer } ∧ t.sup = transmitNext s.sup) ∧
        t = { s with
          mouse := t.mouse, pointer := t.pointer, router := t.router, ports := t.ports, controls := t.controls
          links := t.links, sup := t.sup })

/-- With privacy blank CLEAR and the pointer attached to a RELATIVE computer that the desk holds and that is not
DETACHED, or to a RELATIVE session under HELD control, a mouse report sets the capture flag, which clears the
residuals and the edge pressure if it was clear, moves nothing, and hands the computer's port, or sends on the link,
one relative record with the clamped raw deltas, the buttons and the wheel. It becomes the last record or frame of
its recipient; a record restarts the quiet timer, and a replacement in a full queue is noticed. A button that was up
before wakes a SUSPENDED computer whose auto-wake flag is set. At a DETACHED port, and under a session mode of 0 × 0,
the capture flag is set in the same way and nothing is handed on. With the capture flag set already, a report moves
nothing and hands nothing on while the pointer is not attached, waking as above, or while the desk does not hold the
focus computer or control of the session. Nothing else changes. The frame counts as the link's last one sent also
when a full send queue discards it; that is the model's choice (notes/assumptions/36.md), as is what a report does
with the capture flag set and the pointer not attached (23.md). (R21, R27, R28, R29, R36, R56, R69, R75, R151, R166) -/
def Obligations.CapturedMotionIsRelative : Prop :=
  ∀ (dx dy w : Int) (b : Buttons) (s : State), s.mouse.attached = true → s.blank.state = .clear →
    let x := max (-2047) (min 2047 dx)
    let y := max (-2047) (min 2047 dy)
    let z := max (-127) (min 127 w)
    let p : DeskPointer :=
      if s.pointer.capture then s.pointer
      else { s.pointer with capture := true, rx := 0, ry := 0, pressure := ⟨none, 0, none⟩ }
    let still : State := { s with mouse := ⟨true, b⟩ }
    (s.pointer.capture = true →
      (attached s = false → exec (.deskPointerReport dx dy w b) s = .next (handedOn
        (match s.focus.target with
          | .loc n => if (s.control n).holder = .desk then woken n (b &&& ~~~s.mouse.buttons != 0) still else still
          | _ => still))) ∧
      ((∃ n, s.focus.target = .loc n ∧ (s.control n).holder ≠ .desk) ∨
          (∃ k, s.focus.target = .rem k ∧ (s.link k).viewer ≠ .held) →
        exec (.deskPointerReport dx dy w b) s = .next (handedOn still))) ∧
    (attached s = true →
      (∀ n, s.focus.target = .loc n → (s.control n).holder = .desk → effMode s n = .relative →
        (s.port n).bus ≠ .detached →
        let r : PointerRecord := .relative b x y z
        ∃ v, exec (.deskPointerReport dx dy w b) s =
            .next (handedOn (woken n (b &&& ~~~s.mouse.buttons != 0) v)) ∧
          v.port n = pushPointer r (s.port n) ∧ (∀ m, m ≠ n → v.port m = s.port m) ∧
          v.control n = { s.control n with lastDesk := some s.now } ∧ (∀ m, m ≠ n → v.control m = s.control m) ∧
          v.lastPointer n = some r ∧ (∀ m, m ≠ n → v.lastPointer m = s.lastPointer m) ∧
          v = { s with
            mouse := ⟨true, b⟩, pointer := p, router := { s.router with lastPointer := v.router.lastPointer }
            ports := v.ports, controls := v.controls, sup := toldPointer n r (s.port n) s.sup }) ∧
      (∀ n, s.focus.target = .loc n → (s.control n).holder = .desk → effMode s n = .relative →
        (s.port n).bus = .detached →
        exec (.deskPointerReport dx dy w b) s = .next (handedOn { s with mouse := ⟨true, b⟩, pointer := p })) ∧
      (∀ k o, s.focus.target = .rem k → (s.link k).viewer = .held → activeOffer s k = some o →
        o.pointerMode = .relative → o.mode.width = 0 → o.mode.height = 0 →
        exec (.deskPointerReport dx dy w b) s = .next (handedOn { s with mouse := ⟨true, b⟩, pointer := p })) ∧
      ∀ k o, s.focus.target = .rem k → (s.link k).viewer = .held → activeOffer s k = some o →
        o.pointerMode = .relative → ¬ (o.mode.width = 0 ∧ o.mode.height = 0) →
        ∃ t, exec (.deskPointerReport dx dy w b) s = .next t ∧
          t.link k = enqueueFrame (.pointer (.relative b x y z)) (s.link k) ∧ (∀ j, j ≠ k → t.link j = s.link j) ∧
          t.linkPointer k = some (.relative b x y z) ∧ (∀ j, j ≠ k → t.linkPointer j = s.linkPointer j) ∧
          t = { s with
            mouse := ⟨true, b⟩, pointer := p, router := { s.router with linkPointer := t.router.linkPointer }
            links := t.links, sup := transmitNext s.sup })

/-- In a valid layout with privacy blank CLEAR and the pointer neither captured nor about to be, a mouse report whose
gained moves m = (r + d × G) / 16, truncated toward zero, stay inside the pointer's tile moves the pointer by them,
keeps the remainders as residuals, and resets the edge pressure when it moves away from its edge. Attached to a
computer that the desk holds, which is then ABSOLUTE, its port is handed the absolute record of stages C, D and E for
the new position, with each desktop clamp counted, a replacement noticed and the quiet timer restarted; a DETACHED
port has the clamps counted alone. Attached to an inbound lane under HELD control whose session mode is not 0 × 0,
the link sends the absolute frame of stage C for the session mode. Otherwise nothing is handed on. A button that was
up before wakes a SUSPENDED focus computer that the desk holds, its auto-wake flag being set. Nothing else changes:
no other port, control record, link or focus. Model's choices: that a move is away from an edge axis by axis, so that
one along the edge keeps the pressure (notes/assumptions/22.md), and that the frame counts as the link's last one
sent also when a full send queue discards it (36.md). (R19, R21, R22, R27, R33, R34, R35, R36, R75, R151, R166) -/
def Obligations.GlideWithinATile : Prop :=
  ∀ (dx dy w : Int) (b : Buttons) (s : State) (tile : Tile),
    s.mouse.attached = true → s.blank.state = .clear → s.pointer.capture = false → capturable s = false →
    validLayout s.layout → pointerTile s = some tile →
    let ax := s.pointer.rx + max (-2047) (min 2047 dx) * s.pointer.gain
    let ay := s.pointer.ry + max (-2047) (min 2047 dy) * s.pointer.gain
    let x : Int := s.pointer.px + ax.tdiv 16
    let y : Int := s.pointer.py + ay.tdiv 16
    let z := max (-127) (min 127 w)
    (tile.x0 : Int) ≤ x → x < tile.x0 + tile.w → (tile.y0 : Int) ≤ y → y < tile.y0 + tile.h →
    let away : Bool :=
      match s.pointer.pressure.edge with
      | some (_, .left) => decide (0 < ax.tdiv 16)
      | some (_, .right) => decide (ax.tdiv 16 < 0)
      | some (_, .top) => decide (0 < ay.tdiv 16)
      | some (_, .bottom) => decide (ay.tdiv 16 < 0)
      | none => false
    let base : State := { s with
      mouse := ⟨true, b⟩
      pointer := { s.pointer with
        px := x.toNat, py := y.toNat, rx := ax - 16 * ax.tdiv 16, ry := ay - 16 * ay.tdiv 16
        pressure := if away then ⟨none, 0, none⟩ else s.pointer.pressure } }
    handsPointerOn b z (b &&& ~~~s.mouse.buttons != 0) base (exec (.deskPointerReport dx dy w b) s)

/-- A nonzero move along an axis that leaves the pointer's tile by an amount o beyond the edge clamps to that edge,
with the pressure as it was but for the reset of R22, when no tile abuts the edge at the other coordinate, or when the
crossing policy is BLOCK and the neighbour's source zone is not the glide zone. Otherwise the pressure gathers o, from
0 when it was on another edge or its last push is older than the dwell window, up to 1023; below the threshold the
pointer clamps and keeps the pressure with the present time, and from the threshold on it crosses onto the neighbour's
first column or row on the side it entered, the other coordinate kept, residuals and pressure cleared. Nothing else
changes. A mouse report that is not captured walks so on x and then on y with its gained moves; when it ends on
another monitor the focus is re-evaluated once, for that monitor, a changed target acting as at every focus change and
an unchanged one leaving the router, the ports, the lights and the links, each TALLY line following, and a FOCUS
notice of a changed record following the PORT notices of the releases; on the same monitor the focus stays. From
there, a clamped push included, it hands on: for a computer attached and held by the desk the absolute record of
stages C, D and E for the final position, its clamps counted, a DETACHED port having these alone; for an attached lane
under HELD control with a mode that is not 0 × 0 the frame of stage C; nothing for a target of a kind that R28 names,
or when not attached. A button press then wakes a SUSPENDED focus computer that the desk holds, its auto-wake flag
being set. Model's choices: that a move along an edge leaves its pressure (notes/assumptions/22.md), that a press in
the very event that crosses wakes the computer focused after it (23.md), that a frame discarded by a full send queue
counts as sent (36.md), and that a link is released also under a session mode of 0 × 0 (37.md). (R11, R21, R22, R23,
R24, R25, R26, R27, R34, R36, R40, R166) -/
def Obligations.WalkAtTheEdges : Prop :=
  (∀ (a : Axis) (m : Int) (s : State) (tile : Tile) (high : Bool) (o : Nat),
    m ≠ 0 → pointerTile s = some tile → 1 ≤ o →
    (high = true → (DeskPointer.pos s.pointer a : Int) + m = Tile.last tile a + o) →
    (high = false → (DeskPointer.pos s.pointer a : Int) + m = Tile.first tile a - o) →
    validLayout s.layout →
    let q := DeskPointer.pos s.pointer a.other
    let edge := if high then Tile.last tile a else Tile.first tile a
    let p : DeskPointer := relieve a m s.pointer
    let touches (b : Tile) : Prop :=
      (if high then Tile.first b a = Tile.first tile a + Tile.size tile a
        else Tile.first tile a = Tile.first b a + Tile.size b a) ∧
      Tile.first b a.other ≤ q ∧ q < Tile.first b a.other + Tile.size b a.other
    ((∀ b ∈ s.layout, ¬ touches b) → walk a m s = { s with pointer := DeskPointer.setPos p a edge }) ∧
    ∀ b ∈ s.layout, touches b →
      (s.desk.crossing = .block →
        (∃ z, sourceZone s (assignmentOf s b.monitor) = some z ∧ z ≠ s.pointer.glideZone) →
        walk a m s = { s with pointer := DeskPointer.setPos p a edge }) ∧
      ((s.desk.crossing = .free ∨ ∀ z, sourceZone s (assignmentOf s b.monitor) = some z → z = s.pointer.glideZone) →
        let kept := p.pressure.edge = some (tile.monitor, sideOf a high) ∧
          ∀ u, p.pressure.lastPush = some u → s.now ≤ u + p.dwell
        ∀ amount, (kept → amount = min 1023 (p.pressure.amount + o)) → (¬ kept → amount = min 1023 o) →
          (amount < p.threshold → walk a m s = { s with pointer :=
            { DeskPointer.setPos p a edge with
              pressure := ⟨some (tile.monitor, sideOf a high), amount, some s.now⟩ } }) ∧
          (p.threshold ≤ amount → walk a m s = { s with pointer :=
            { DeskPointer.setPos p a (if high then Tile.first b a else Tile.last b a) with
              rx := 0, ry := 0, pressure := ⟨none, 0, none⟩ } }))) ∧
  ∀ (dx dy w : Int) (b : Buttons) (s : State),
    s.mouse.attached = true → s.blank.state = .clear → s.pointer.capture = false → capturable s = false →
    let ax := s.pointer.rx + max (-2047) (min 2047 dx) * s.pointer.gain
    let ay := s.pointer.ry + max (-2047) (min 2047 dy) * s.pointer.gain
    let walked : State := walk .y (ay.tdiv 16) (walk .x (ax.tdiv 16)
      { s with pointer := { s.pointer with rx := ax - 16 * ax.tdiv 16, ry := ay - 16 * ay.tdiv 16 } })
    ∃ x : State,
      (∀ m, pointerMonitor walked = some m → pointerMonitor s ≠ some m →
        x.focus = ⟨formedTarget s (assignmentOf s m), .glide, some m⟩) ∧
      (pointerMonitor walked = none ∨ pointerMonitor walked = pointerMonitor s →
        x = { walked with mouse := ⟨true, b⟩ }) ∧
      (x.focus.target = s.focus.target → x.pointer = walked.pointer ∧ x.ports = s.ports ∧ targetKept s x) ∧
      (x.focus.target ≠ s.focus.target → refocused s x) ∧
      x.pointer = { walked.pointer with glideZone := x.pointer.glideZone, glideFrom := x.pointer.glideFrom } ∧
      x.router.broadcast = s.router.broadcast ∧ linesFollow s x ∧
      x = { s with
        mouse := ⟨true, b⟩, pointer := x.pointer, focus := x.focus, router := x.router, ports := x.ports
        controls := x.controls, keyboard := x.keyboard, lines := x.lines, links := x.links
        sup := toldWrite s x s.sup } ∧
      handsPointerOn b (max (-127) (min 127 w)) (b &&& ~~~s.mouse.buttons != 0) x
        (exec (.deskPointerReport dx dy w b) s)

/-- A byte that names no target is answered BAD_ARG and REMOTE k without an ACTIVE inbound session WRONG_STATE, with
nothing changed. Otherwise the record takes the target, the origin REQUEST and the placement monitor; the pointer
moves to the centre of that monitor's tile with residuals and pressure cleared, or stays when there is none; the
capture flag is clear; a changed target puts every held key into the mask, clears the delta carry of the old focus
computer, releases each computer and link that stops being a recipient, makes an attached desk keyboard show the new
target's lights, and gives the glide zone: that of the computer for LOCAL n, that of the inbound session's offer for
REMOTE k, and the one held for NONE; each TALLY line becomes active when its computer is the new target and inactive
when it is not, and no other line changes; an unchanged target leaves the glide zone, the mask, the lights and the
lines alone, and clears the delta carry of the computer of a capture that it ends. Gain, threshold and dwell stay.
That a frame discarded by a full send queue counts as sent (36.md), that a link is released also under a session mode
of 0 × 0 (37.md), and that the lights are checked at a focus change during privacy blank too (45.md), are the model's
choices. The PORT notices of the releases are placed, from C1 to C8 (the order is the model's choice,
notes/assumptions/35.md), and then, where a field of the focus record has been altered, its FOCUS notice; nothing else
of the supervisor link changes. The blocks that the focus does not concern stay as they are. (R18, R28, R30, R39, R40,
R41, R49, R55, R56, R57, R72, R181) -/
def Obligations.FocusSetByRequest : Prop :=
  ∀ (tag b : Byte) (s : State),
    let r : Request := ⟨0x28, tag, [b]⟩
    takesTurn r s →
    (10 < b.toNat → exec (.setFocus tag r.body) s = .next (replied r .badArg [] (begun r s))) ∧
    ∀ target : FocusTarget, focusByte target = [b] →
      (∀ k, target = .rem k → activeOffer s k = none →
        exec (.setFocus tag r.body) s = .next (replied r .wrongState [] (begun r s))) ∧
      ((∀ k, target = .rem k → activeOffer s k ≠ none) →
        ∃ u, exec (.setFocus tag r.body) s = .next (replied r .ok [] u) ∧
          u.focus = ⟨target, .request, placement s (assignmentOf s) target⟩ ∧
          (∀ m t, placement s (assignmentOf s) target = some m → tileOf s.layout m = some t →
            u.pointer.px = t.x0 + t.w / 2 ∧ u.pointer.py = t.y0 + t.h / 2 ∧ u.pointer.rx = 0 ∧ u.pointer.ry = 0 ∧
            u.pointer.pressure = ⟨none, 0, none⟩) ∧
          (placement s (assignmentOf s) target = none →
            u.pointer.px = s.pointer.px ∧ u.pointer.py = s.pointer.py ∧ u.pointer.rx = s.pointer.rx ∧
            u.pointer.ry = s.pointer.ry ∧ u.pointer.pressure = s.pointer.pressure) ∧
          u.pointer.capture = false ∧
          u.pointer.gain = s.pointer.gain ∧ u.pointer.threshold = s.pointer.threshold ∧
          u.pointer.dwell = s.pointer.dwell ∧ u.router.broadcast = s.router.broadcast ∧
          (target = s.focus.target → targetKept s u ∧
            ∀ m, u.port m =
              if s.pointer.capture = true ∧ target = .loc m then carryCleared (s.port m) else s.port m) ∧
          (target ≠ s.focus.target → refocused s u) ∧
          linesFollow s u ∧
          u = { begun r s with
            focus := u.focus, pointer := u.pointer, router := u.router, ports := u.ports, controls := u.controls
            keyboard := u.keyboard, lines := u.lines, links := u.links, sup := toldWrite s u (begun r s).sup })

/-- A state byte above 1 is answered BAD_ARG with nothing changed. Otherwise broadcast takes the state and each
computer's member flag its bit; no other field of a record changes; each computer that stops being a recipient is
released, and every other one's port and records stay as they were; and when a computer becomes a recipient every held
key enters the mask, which otherwise stays as it was. The PORT notices of the releases are placed, from C1 to C8 (the
order is the model's choice, notes/assumptions/35.md), and nothing else of the supervisor link changes. The focus, the
pointer and the other blocks stay as they are. (R49, R53, R54, R55, R75) -/
def Obligations.BroadcastSetByRequest : Prop :=
  ∀ (tag b0 b1 : Byte) (s : State),
    let r : Request := ⟨0x2A, tag, [b0, b1]⟩
    takesTurn r s →
    (1 < b0.toNat → exec (.setBroadcast tag r.body) s = .next (replied r .badArg [] (begun r s))) ∧
    (b0.toNat ≤ 1 →
      ∃ u, exec (.setBroadcast tag r.body) s = .next (replied r .ok [] u) ∧
        u.router.broadcast = (b0 == 1) ∧
        (∀ n, u.comp n = { s.comp n with member := b1.getLsbD n.val }) ∧
        computersReleased (fun m => s.port m) s u ∧ u.router.linkKeys = s.router.linkKeys ∧
        u.router.linkPointer = s.router.linkPointer ∧
        ((∃ m, isRecipient u m = true ∧ isRecipient s m = false) → heldMasked s u) ∧
        ((∀ m, isRecipient u m = true → isRecipient s m = true) → u.router.mask = s.router.mask) ∧
        u = { begun r s with
          comps := u.comps, router := u.router, ports := u.ports, controls := u.controls
          sup := toldLeavers s u (begun r s).sup })

/-- A report to a DETACHED port changes nothing (the model's reading, notes/assumptions/11.md). A report with the
rollover marker adds one to the rollover report count and changes nothing else. Any other report of an attached
keyboard leaves the modifiers held as reported, and the held list as the keys kept in their order followed by the new
ones in the order of the report, up to 32, codes outside 4 to 223 passed over; each press that finds 32 keys held
adds one to the ignored press count. That the keys held are released also by a report whose codes are all passed
over, and that a key listed twice is tried twice, are the model's choices (47.md). Neither the tables nor the lock,
the hotkey table, the scenes, the input states, the mouse port and the timebase change. (R46, R47) -/
def Obligations.KeyboardReportKeepsHeldSet : Prop :=
  ∀ (mods : Mods) (codes : List Byte) (s : State),
    (s.keyboard.attached = false → exec (.deskKeyboardReport mods codes) s = .next (handedOn s)) ∧
    (s.keyboard.attached = true →
      (1 ∈ codes → exec (.deskKeyboardReport mods codes) s = .next (handedOn { s with keyboard :=
        { s.keyboard with rollovers := min (s.keyboard.rollovers + 1) 4294967295 } })) ∧
      (1 ∉ codes → (∀ c ∈ s.keyboard.held.keys, 4 ≤ c ∧ c ≤ 223) → s.keyboard.held.keys.length ≤ 32 →
        let keys := (codes.map BitVec.toNat).filter fun c => decide (4 ≤ c ∧ c ≤ 223)
        ∃ t, exec (.deskKeyboardReport mods codes) s = .next t ∧
          t.keyboard.held = ⟨mods,
            ((s.keyboard.held.keys.filter fun c => keys.contains c) ++
              (keys.filter fun c => !s.keyboard.held.keys.contains c).eraseDups).take 32⟩ ∧
          t.keyboard.attached = true ∧ t.keyboard.rollovers = s.keyboard.rollovers ∧
          (let missed := (keys.filter fun c => !t.keyboard.held.keys.contains c).length
           t.keyboard.ignoredPresses =
             if missed = 0 then s.keyboard.ignoredPresses
             else min (s.keyboard.ignoredPresses + missed) 4294967295) ∧
          t.comps = s.comps ∧ t.heads = s.heads ∧ t.layout = s.layout ∧ t.desk = s.desk ∧ t.lock = s.lock ∧
          t.hotkeys = s.hotkeys ∧ t.scenes = s.scenes ∧ t.inputs = s.inputs ∧ t.mouse = s.mouse ∧ t.now = s.now))

/-- With the matcher IDLE, no TAP or CHORD entry for the key and privacy blank CLEAR, a report with one more key forms
the held set minus the mask. With the focus on a computer that the desk holds and that is not DETACHED, that
computer, and under broadcast each other member of its zone that the desk holds and that is not DETACHED when it is a
member itself, is handed that state, whole in full format, and in boot format whole up to six keys and as the
rollover record above, unless it equals the last record queued to it. The record becomes its last one, its quiet
timer restarts, and a replacement in a full queue is noticed. The press wakes a SUSPENDED focus computer whose auto-
wake flag is set. With the focus on REMOTE k under HELD control the link sends the state as a KEYS frame unless it
equals the last one sent; without HELD control nothing is sent. On a computer that a link holds one view-only drop is
counted. Nothing else changes. In every state, a report that raises one press or release, of a modifier or another
key, is judged by the matcher: the matcher takes its next state, a withheld press enters the mask and is not
delivered, a released code leaves the mask, the entry that fires runs its action from then on, and the records are
formed as above from the state that leaves. Model's choices: the order among the recipients
(notes/assumptions/35.md), that a frame that a full send queue discards counts as sent (36.md), that a report without
a key position releases the last key (47.md), and that the event whose entry fires RESUME_BLANK forms a record itself
(46.md). (R47, R49, R50, R51, R52, R53, R56, R75, R88, R96, R151, R166) -/
def Obligations.DeliveredPressIsQueued : Prop :=
  (∀ (key : Byte) (s : State),
    let held := s.keyboard.held
    s.keyboard.attached = true → (∀ c ∈ held.keys, 4 ≤ c ∧ c ≤ 223) → held.keys.length < 32 →
    4 ≤ key.toNat → key.toNat ≤ 223 → key.toNat ∉ held.keys →
    s.matcher.state = .idle →
    (∀ i e, s.hotkey i = some e → (∀ c, e.trigger ≠ .tap key.toNat c) ∧ e.trigger ≠ .chord held.mods key.toNat) →
    s.blank.state = .clear →
    handsKeysOn true { s with keyboard := { s.keyboard with held := ⟨held.mods, held.keys ++ [key.toNat]⟩ } }
      (exec (.deskKeyboardReport held.mods (held.keys.map (BitVec.ofNat 8) ++ [key])) s)) ∧
  ∀ (press : Bool) (c : Nat) (s : State),
    let held := s.keyboard.held
    let modifier : Bool := decide (224 ≤ c ∧ c ≤ 231)
    let bit : Mods := 1#8 <<< (c - 224)
    let has (k : KeyState) : Bool := if modifier then k.mods &&& bit != 0 else k.keys.contains c
    let put (k : KeyState) : KeyState :=
      if modifier then { k with mods := k.mods ||| bit } else { k with keys := k.keys ++ [c] }
    let take (k : KeyState) : KeyState :=
      if modifier then { k with mods := k.mods &&& ~~~bit } else { k with keys := k.keys.filter fun d => d != c }
    s.keyboard.attached = true → (∀ d ∈ held.keys, 4 ≤ d ∧ d ≤ 223) →
    (press = true → has held = false ∧ (modifier = true ∨ (4 ≤ c ∧ c ≤ 223 ∧ held.keys.length < 32))) →
    (press = false → has held = true) →
    let now : KeyState := if press then put held else take held
    let raised : State := { s with keyboard := { s.keyboard with held := now } }
    let j := judgeKey raised ⟨press, c⟩
    let judged : State := { raised with
      matcher := { s.matcher with state := j.state }
      router := { s.router with mask :=
        if press = false then take s.router.mask
        else if j.withheld = true ∧ has s.router.mask = false then put s.router.mask
        else s.router.mask } }
    let answer := exec (.deskKeyboardReport now.mods (now.keys.map (BitVec.ofNat 8))) s
    (j.fires = none → handsKeysOn (press && !j.withheld) judged answer) ∧
    ∀ i e, j.fires = some i → s.hotkey i = some e →
      handsKeysOn (press && !j.withheld) (fire e.action (.keys i) judged) answer

/-- An attach leaves the port ATTACHED with an empty held set, its lights set for the focus target, and changes nothing
else. A detach leaves it DETACHED with an empty held set and its lights unknown, the matcher IDLE and the mask empty,
and each computer recipient whose last record is neither empty nor none is handed the empty one, shaped to its
format, which becomes its last record and restarts its quiet timer, a replacement in a full queue being noticed. With
the focus on REMOTE k, viewer control HELD and privacy blank CLEAR, the link is sent an empty KEYS frame if the last
one sent on it was not empty. Every other port, record and link stays. That a frame discarded by a full send queue
counts as sent (notes/assumptions/36.md), the order C1 to C8 of the PORT notices (35.md), and that an attach during
privacy blank sends the lights too (45.md), are the model's choices. The tables, the focus, the pointer and the other
blocks stay as they are. That an attach (notes/assumptions/27.md) and a detach (24.md) have these effects whatever
the port's state is the model's choice. (R48, R52, R53, R56, R57, R75, R93, R151) -/
def Obligations.KeyboardAttachAndDetach : Prop :=
  ∀ s : State,
    exec .deskKeyboardAttach s = .next (handedOn { s with keyboard :=
      { s.keyboard with
        attached := true
        held := ⟨0, []⟩
        lightsSent := some (match s.focus.target with | .loc n => (s.port n).lights | _ => ⟨false, false, false⟩) } }) ∧
    ∃ t, exec .deskKeyboardDetach s = .next t ∧
      t.keyboard = { s.keyboard with attached := false, held := ⟨0, []⟩, lightsSent := none } ∧
      t.matcher = { s.matcher with state := .idle } ∧ t.router.mask = ⟨0, []⟩ ∧
      (let handed (m : Comp) : Option KeyRecord := if isRecipient s m then emptyRecordDue s m else none
       (∀ m r, handed m = some r → t.port m = pushKey r (s.port m) ∧ t.lastKey m = some r ∧
         t.control m = { s.control m with lastDesk := some s.now }) ∧
       (∀ m, handed m = none → t.port m = s.port m ∧ t.lastKey m = s.lastKey m ∧ t.control m = s.control m) ∧
       (∀ k,
         let sent : Prop := s.focus.target = .rem k ∧ (s.link k).viewer = .held ∧ s.blank.state = .clear ∧
           s.linkKeys k ≠ ⟨0, []⟩
         (sent → t.link k = enqueueFrame (.keys ⟨0, []⟩) (s.link k) ∧ t.linkKeys k = ⟨0, []⟩) ∧
         (¬ sent → t.link k = s.link k ∧ t.linkKeys k = s.linkKeys k)) ∧
       t = { s with
         keyboard := t.keyboard, matcher := t.matcher, ports := t.ports, controls := t.controls, links := t.links
         router := { s.router with
           mask := t.router.mask, lastKey := t.router.lastKey, linkKeys := t.router.linkKeys }
         sup := transmitNext
           (allComps.foldl (fun u m => if handed m = none then u else toldKey m (s.port m) u) s.sup) })

/-- The keyboard queue appends a record while it holds fewer than 32 and otherwise replaces its newest one; a rollover
record taken adds one to the rollover record count; nothing else of the port changes. An absolute or a relative record
handed over leaves the whole port as follows. The pointer queue appends below the flow threshold and into an empty
queue, merges into a mergeable tail from there on, appends otherwise while it holds fewer than 16 and replaces its
newest record when full; a merged absolute record keeps the newest position and a merged relative one sums the
movement, wheels summed within −127 to 127 and the merge counted. The part of a movement beyond ±127 joins the delta
carry, so that queue and carry together hold all that was handed over unless the carry saturates. An absolute record
holds the carry within −32767 to 32767 and leaves it otherwise. Each intake is counted, the buttons become those of
the record, a replacement is counted and sets the noticed flag, nothing else of the port changes, and a PORT notice is
produced when it was clear. (R66, R68, R69, R75) -/
def Obligations.PortQueuesTakeRecords : Prop :=
  (∀ (n : Comp) (r : KeyRecord) (s : State),
    let q := (s.port n).keyQueue
    ((portKey n r s).port n).keyQueue = (if q.length < 32 then q ++ [r] else q.dropLast ++ [r]) ∧
    ((portKey n r s).port n).counters.keyQueued = min ((s.port n).counters.keyQueued + 1) 4294967295 ∧
    (32 ≤ q.length → ((portKey n r s).port n).noticed = true ∧
      ((portKey n r s).port n).counters.keyReplaced = min ((s.port n).counters.keyReplaced + 1) 4294967295) ∧
    ((portKey n r s).port n).counters.rollovers =
      (if r.shape = .rollover then min ((s.port n).counters.rollovers + 1) 4294967295
      else (s.port n).counters.rollovers) ∧
    (portKey n r s).port n = { s.port n with
      keyQueue := ((portKey n r s).port n).keyQueue
      noticed := (s.port n).noticed || decide (32 ≤ q.length)
      counters := { (s.port n).counters with
        keyQueued := ((portKey n r s).port n).counters.keyQueued
        rollovers := ((portKey n r s).port n).counters.rollovers
        keyReplaced :=
          if 32 ≤ q.length then min ((s.port n).counters.keyReplaced + 1) 4294967295
          else (s.port n).counters.keyReplaced } } ∧
    ((portKey n r s).sup =
      if 32 ≤ q.length ∧ (s.port n).noticed = false then
        queueNotice .power ⟨0xFC, 0, [BitVec.ofNat 8 (n.val + 1), 0]⟩ s.sup
      else s.sup) ∧
    (∀ m, m ≠ n → (portKey n r s).port m = s.port m) ∧
    portKey n r s = { s with ports := (portKey n r s).ports, sup := (portKey n r s).sup }) ∧
  (∀ (n : Comp) (r : PointerRecord) (s : State),
    (portPointer n r s).port n = pushPointer r (s.port n) ∧ (∀ m, m ≠ n → (portPointer n r s).port m = s.port m) ∧
    portPointer n r s = { s with ports := (portPointer n r s).ports, sup := toldPointer n r (s.port n) s.sup }) ∧
  (∀ (b : Buttons) (x y : Nat) (w : Int) (p : Port),
    let q := p.pointerQueue
    let r : PointerRecord := .absolute b x y w
    let cap (c : Int) : Int := max (-32767) (min 32767 c)
    let c : PortCounters := { p.counters with pointerQueued := min (p.counters.pointerQueued + 1) 4294967295 }
    let taken (queue : List PointerRecord) : Port :=
      { p with pointerQueue := queue, cx := cap p.cx, cy := cap p.cy, buttons := b, counters := c }
    (q.length < 16 → q.length < p.flow ∨ q = [] → pushPointer r p = taken (q ++ [r])) ∧
    (∀ rest x' y' w', q = rest ++ [.absolute b x' y' w'] → p.flow ≤ q.length ∨ 16 ≤ q.length →
      pushPointer r p =
        { taken (rest ++ [.absolute b x y (max (-127) (min 127 (w' + w)))]) with
          counters := { c with pointerMerged := min (p.counters.pointerMerged + 1) 4294967295 } }) ∧
    ∀ rest l, q = rest ++ [l] → (∀ x' y' w', l ≠ .absolute b x' y' w') →
      (p.flow ≤ q.length → q.length < 16 → pushPointer r p = taken (q ++ [r])) ∧
      (16 ≤ q.length → pushPointer r p =
        { taken (rest ++ [r]) with
          noticed := true
          counters := { c with pointerReplaced := min (p.counters.pointerReplaced + 1) 4294967295 } })) ∧
  (∀ (b : Buttons) (dx dy w : Int) (p : Port),
    let q := p.pointerQueue
    let fit (i : Int) : Int := max (-127) (min 127 i)
    let carry (c i : Int) : Int := max (-32767) (min 32767 (c + (i - fit i)))
    let r : PointerRecord := .relative b dx dy w
    let queued : PointerRecord := .relative b (fit dx) (fit dy) w
    let c : PortCounters := { p.counters with pointerQueued := min (p.counters.pointerQueued + 1) 4294967295 }
    let appended : Port :=
      { p with pointerQueue := q ++ [queued], cx := carry p.cx dx, cy := carry p.cy dy, buttons := b, counters := c }
    (q.length < 16 → q.length < p.flow ∨ q = [] → pushPointer r p = appended) ∧
    (∀ rest x y v, q = rest ++ [.relative b x y v] → p.flow ≤ q.length ∨ 16 ≤ q.length →
      pushPointer r p = { p with
        pointerQueue := rest ++ [.relative b (fit (x + dx)) (fit (y + dy)) (fit (v + w))]
        cx := carry p.cx (x + dx), cy := carry p.cy (y + dy), buttons := b
        counters := { c with pointerMerged := min (p.counters.pointerMerged + 1) 4294967295 } }) ∧
    ∀ rest l, q = rest ++ [l] → (∀ x y v, l ≠ .relative b x y v) →
      (p.flow ≤ q.length → q.length < 16 → pushPointer r p = appended) ∧
      (16 ≤ q.length → pushPointer r p = { p with
        pointerQueue := rest ++ [queued], cx := carry p.cx dx, cy := carry p.cy dy, buttons := b, noticed := true
        counters := { c with pointerReplaced := min (p.counters.pointerReplaced + 1) 4294967295 } })) ∧
  ∀ (b : Buttons) (dx dy w : Int) (p : Port),
    let total (q : List PointerRecord) : Int × Int :=
      q.foldl (fun t r => match r with | .relative _ x y _ => (t.1 + x, t.2 + y) | _ => t) (0, 0)
    let p' := pushPointer (.relative b dx dy w) p
    (p.pointerQueue.length < p.flow ∨ p.pointerQueue.length < 16) →
    -32767 ≤ p.cx → p.cx ≤ 32767 → -32767 ≤ p.cy → p.cy ≤ 32767 → -32767 < p'.cx → p'.cx < 32767 →
    -32767 < p'.cy → p'.cy < 32767 → p.flow ≤ 16 →
    (total p'.pointerQueue).1 + p'.cx = (total p.pointerQueue).1 + p.cx + dx ∧
    (total p'.pointerQueue).2 + p'.cy = (total p.pointerQueue).2 + p.cy + dy ∧
    p'.counters.pointerQueued = min (p.counters.pointerQueued + 1) 4294967295

/-- A poll of a DETACHED port changes nothing, and one of an ATTACHED port answers no change. In ACTIVE, a keyboard poll
takes the oldest key-state record, a boot record filled to six positions with zeros, and a pointer poll the oldest
pointer record; each is counted. With its queue empty a keyboard poll answers no change; a pointer poll drains at
most 127 of the delta carry on each axis into a relative record with the port's buttons in RELATIVE mode, counted as
a carry record, clears the carry in ABSOLUTE mode, and answers no change when there is no carry. A poll in SUSPENDED
is a resume first. The answer that the port holds is the model's own field (notes/assumptions/10.md), and that a poll
of a DETACHED port, which R61 says cannot arrive, changes nothing is its choice (11.md). (R60, R62, R67, R71) -/
def Obligations.PollsAnswer : Prop :=
  ∀ (n : Comp) (s : State),
    let p := s.port n
    let put (q : Port) (t : State) : Prop :=
      t.port n = q ∧ (∀ m, m ≠ n → t.port m = s.port m) ∧ t = { s with ports := t.ports, sup := transmitNext s.sup }
    (p.bus = .detached → exec (.keyboardPoll n) s = .next (handedOn s) ∧ exec (.pointerPoll n) s = .next (handedOn s)) ∧
    (p.bus = .attached →
      (∃ t, exec (.keyboardPoll n) s = .next t ∧ put { p with keyAnswer := some .noChange } t) ∧
      ∃ t, exec (.pointerPoll n) s = .next t ∧ put { p with pointerAnswer := some .noChange } t) ∧
    (p.bus = .suspended →
      exec (.keyboardPoll n) s = .next (handedOn ((resumePort n s).modPort n answerKeys)) ∧
      exec (.pointerPoll n) s =
        .next (handedOn ((resumePort n s).modPort n (answerPointer (effMode (resumePort n s) n)))) ∧
      ((resumePort n s).port n).bus = .active) ∧
    (p.bus = .active →
      (p.keyQueue = [] →
        ∃ t, exec (.keyboardPoll n) s = .next t ∧ put { p with keyAnswer := some .noChange } t) ∧
      (∀ r rest, p.keyQueue = r :: rest → ∃ t, exec (.keyboardPoll n) s = .next t ∧
        put { p with
          keyQueue := rest
          keyAnswer := some (.report r.mods
            (if r.shape = .boot then r.keys ++ List.replicate (6 - r.keys.length) 0 else r.keys))
          counters := { p.counters with keyTaken := min (p.counters.keyTaken + 1) 4294967295 } } t) ∧
      (∀ r rest, p.pointerQueue = r :: rest → ∃ t, exec (.pointerPoll n) s = .next t ∧
        put { p with
          pointerQueue := rest
          pointerAnswer := some (.report r)
          counters := { p.counters with pointerTaken := min (p.counters.pointerTaken + 1) 4294967295 } } t) ∧
      (p.pointerQueue = [] → ∃ t, exec (.pointerPoll n) s = .next t ∧
        (p.cx = 0 → p.cy = 0 → put { p with pointerAnswer := some .noChange } t) ∧
        (¬ (p.cx = 0 ∧ p.cy = 0) → effMode s n = .absolute →
          put { p with cx := 0, cy := 0, pointerAnswer := some .noChange } t) ∧
        (¬ (p.cx = 0 ∧ p.cy = 0) → effMode s n = .relative →
          let x := max (-127) (min 127 p.cx)
          let y := max (-127) (min 127 p.cy)
          put { p with
            cx := p.cx - x, cy := p.cy - y
            pointerAnswer := some (.report (.relative p.buttons x y 0))
            counters := { p.counters with carryRecords := min (p.counters.carryRecords + 1) 4294967295 } } t)))

/-- An attach moves DETACHED to ATTACHED with empty queues and fresh values; a configure moves ATTACHED or SUSPENDED
to ACTIVE, and a resume SUSPENDED to ACTIVE, each ending a wake attempt of the computer, its WAKE_PULSE line going
inactive when the attempt was in PULSE; leaving SUSPENDED keeps only the newest record of each queue and counts the
rest as trimmed; a suspend moves ACTIVE to SUSPENDED; a bus reset moves any attached state to ATTACHED and a detach to
DETACHED, each flushing and counting both queues, making the last records none and the port's values fresh. During
BUS_SIGNAL a bus reset goes on to the wait of the attempt's method, and a detach to the final wait, or under BOTH, as
in the bus stage, raises the WAKE_PULSE line or fails with NO_LINE; other attempts stay. Every other pair of event and
state changes nothing. At an attach every held key enters the mask when a computer becomes a recipient by it, and the
mask stays when none does. At a bus reset and at a detach an attached desk keyboard shows no lights if the computer is
the focus; where the pointer format was boot and the pointer mode is ABSOLUTE, capture on the computer ends and each
link whose outbound session is ACTIVE on one of its heads forms a MODE frame. At a detach each other computer that
stops being a recipient is released. Each change of the bus state produces a POWER notice with cause BUS_STATE and the
wake record as it then stands, with the outcome WOKEN when it ends an attempt in flight; at a detach it follows the
PORT notices of the releases and then the PULSE or FAILED notice of the attempt (the order is the model's choice,
notes/assumptions/44.md); no other notice is placed. No other port, record, control record or link changes, and
neither the focus record nor the mask, the tables or the outputs. That the lights are checked during privacy blank too
is the model's choice (45.md). (R49, R55, R57, R59, R60, R61, R62, R63, R64, R73, R173, R177) -/
def Obligations.BusEventsMoveThePort : Prop :=
  ∀ (n : Comp) (s : State),
    let p := s.port n
    let fresh : Port :=
      { p with
        keyQueue := [], pointerQueue := [], keyFormat := .full, pointerFormat := .full, remoteWake := false
        lights := ⟨false, false, false⟩, cx := 0, cy := 0, buttons := 0 }
    let flushed : Port :=
      { fresh with counters :=
        { p.counters with
          keyFlushed := min (p.counters.keyFlushed + p.keyQueue.length) 4294967295
          pointerFlushed := min (p.counters.pointerFlushed + p.pointerQueue.length) 4294967295 } }
    let trimmed : Port :=
      { p with
        keyQueue := p.keyQueue.getLast?.toList, pointerQueue := p.pointerQueue.getLast?.toList
        counters :=
          { p.counters with
            keyTrimmed := min (p.counters.keyTrimmed + (p.keyQueue.length - 1)) 4294967295
            pointerTrimmed := min (p.counters.pointerTrimmed + (p.pointerQueue.length - 1)) 4294967295 } }
    let a := (s.wakeOf n).attempt
    let awake (q : Port) (t : State) : Prop :=
      t.port n = { q with bus := .active } ∧ (∀ m, m ≠ n → t.port m = s.port m) ∧
      t.wakeOf n = ⟨.none, (s.wakeOf n).powered⟩ ∧ (∀ m, m ≠ n → t.wakeOf m = s.wakeOf m) ∧
      (∀ f l e, a = .pulse f l e → t.line l = { s.line l with level := false } ∧ ∀ j, j ≠ l → t.line j = s.line j) ∧
      ((∀ f l e, a ≠ .pulse f l e) → t.lines = s.lines) ∧
      t = { s with
        ports := t.ports, wake := t.wake, lines := t.lines
        sup := transmitNext (queueNotice .power
          (powerNotice n (.busState (Attempt.inFlight a)) .active ⟨.none, (s.wakeOf n).powered⟩) s.sup) }
    let told (b : BusState) (w : WakeRecord) (q : Supervisor) : Supervisor :=
      transmitNext (queueNotice .power (powerNotice n (.busState false) b w) q)
    let holds (l : LineId) : Prop := (s.line l).config.role = .wakePulse n
    let waits (f : Flight) : Attempt :=
      if f.method = .both then .wait f .busStage (f.start + 2000) else .wait f .final f.deadline
    let pulses (f : Flight) (t : State) : Prop :=
      (∀ l, holds l → (∀ j, holds j → j = l) →
        (t.wakeOf n).attempt = .pulse f l (s.now + f.pulseWidth) ∧ t.line l = { s.line l with level := true } ∧
        ∀ j, j ≠ l → t.line j = s.line j) ∧
      ((∀ l, ¬ holds l) → (t.wakeOf n).attempt = .failed .noLine ∧ t.lines = s.lines)
    let emptied (t : State) : Prop :=
      let turned : Bool := p.pointerFormat == .boot && (s.comp n).pointerMode == .absolute
      t.lastKey n = none ∧ t.lastPointer n = none ∧
      t.router = { s.router with lastKey := t.router.lastKey, lastPointer := t.router.lastPointer } ∧
      t.control n = s.control n ∧
      t.pointer = { s.pointer with capture :=
        s.pointer.capture && !(turned && s.focus.target == .loc n) } ∧
      t.keyboard = { s.keyboard with lightsSent :=
        (if s.focus.target = .loc n ∧ s.keyboard.attached = true then some ⟨false, false, false⟩
        else s.keyboard.lightsSent) } ∧
      ∀ k, t.link k =
        match Outbound.activeHead (s.link k).outbound with
        | some h =>
          if h.comp = n ∧ turned = true then enqueueFrame (.mode (sentMode s h) .absolute) (s.link k) else s.link k
        | none => s.link k
    let staged (w : WakeRecord) (q : Supervisor) : Supervisor :=
      let stage : Supervisor := match w.attempt with
        | .failed _ => queueNotice .power (powerNotice n .failed .detached w) q
        | _ => queueNotice .power (powerNotice n .pulse .detached w) q
      match a with
      | .busSignal f _ => if f.method = .both then stage else q
      | .wait _ .busStage _ => stage
      | _ => q
    let wakesOnly (t : State) : Prop :=
      (t.wakeOf n).powered = (s.wakeOf n).powered ∧ ∀ m, m ≠ n → t.wakeOf m = s.wakeOf m
    (p.bus = .detached →
      (∃ t, exec (.portAttach n) s = .next t ∧ t.port n = { fresh with bus := .attached } ∧
        (∀ m, m ≠ n → t.port m = s.port m) ∧
        ((∃ m, isRecipient t m = true ∧ isRecipient s m = false) → heldMasked s t) ∧
        ((∀ m, isRecipient t m = true → isRecipient s m = true) → t.router.mask = s.router.mask) ∧
        t = { s with
          ports := t.ports, router := { s.router with mask := t.router.mask }
          sup := told .attached (s.wakeOf n) s.sup }) ∧
      exec (.portConfigure n) s = .next (handedOn s) ∧ exec (.portSuspend n) s = .next (handedOn s) ∧
      exec (.portResume n) s = .next (handedOn s) ∧ exec (.busReset n) s = .next (handedOn s) ∧
      exec (.portDetach n) s = .next (handedOn s)) ∧
    (p.bus ≠ .detached →
      exec (.portAttach n) s = .next (handedOn s) ∧
      (∃ t, exec (.busReset n) s = .next t ∧ t.port n = { flushed with bus := .attached } ∧
        (∀ m, m ≠ n →
          t.port m = s.port m ∧ t.lastKey m = s.lastKey m ∧ t.lastPointer m = s.lastPointer m) ∧
        emptied t ∧ wakesOnly t ∧
        (∀ f e, a = .busSignal f e → (t.wakeOf n).attempt = waits f) ∧
        ((∀ f e, a ≠ .busSignal f e) → (t.wakeOf n).attempt = a) ∧
        t = { s with
          ports := t.ports, router := t.router, pointer := t.pointer, keyboard := t.keyboard, links := t.links
          wake := t.wake
          sup := if p.bus = .attached then transmitNext s.sup else told .attached (t.wakeOf n) s.sup }) ∧
      (∃ t, exec (.portDetach n) s = .next t ∧ t.port n = { flushed with bus := .detached } ∧
        (∀ m, m ≠ n →
          computerLetGo (isRecipient s m && !isRecipient t m) s t (s.port m) m ∧
            releaseTouches (isRecipient s m && !isRecipient t m) s t m) ∧
        emptied t ∧ isRecipient t n = false ∧ wakesOnly t ∧
        (∀ f e, a = .busSignal f e → f.method = .both → pulses f t) ∧
        (∀ f e, a = .busSignal f e → f.method ≠ .both →
          (t.wakeOf n).attempt = .wait f .final f.deadline ∧ t.lines = s.lines) ∧
        (∀ f e, a = .wait f .busStage e → pulses f t) ∧
        ((∀ f e, a ≠ .busSignal f e ∧ a ≠ .wait f .busStage e) →
          (t.wakeOf n).attempt = a ∧ t.lines = s.lines) ∧
        t = { s with
          ports := t.ports, router := t.router, pointer := t.pointer, keyboard := t.keyboard
          controls := t.controls, links := t.links, wake := t.wake, lines := t.lines
          sup := told .detached (t.wakeOf n) (staged (t.wakeOf n)
            (toldOf (fun m => m != n && isRecipient s m && !isRecipient t m) s s.sup)) })) ∧
    (p.bus = .attached →
      (∃ t, exec (.portConfigure n) s = .next t ∧ awake p t) ∧
      exec (.portSuspend n) s = .next (handedOn s) ∧ exec (.portResume n) s = .next (handedOn s)) ∧
    (p.bus = .active →
      (∃ t, exec (.portSuspend n) s = .next t ∧ t.port n = { p with bus := .suspended } ∧
        (∀ m, m ≠ n → t.port m = s.port m) ∧
        t = { s with ports := t.ports, sup := told .suspended (s.wakeOf n) s.sup }) ∧
      exec (.portConfigure n) s = .next (handedOn s) ∧ exec (.portResume n) s = .next (handedOn s)) ∧
    (p.bus = .suspended →
      (∃ t, exec (.portConfigure n) s = .next t ∧ awake trimmed t) ∧
      (∃ t, exec (.portResume n) s = .next t ∧ awake trimmed t) ∧
      exec (.portSuspend n) s = .next (handedOn s))

/-- In every bus state but DETACHED, a format selection that changes the format of an interface writes it and flushes
that interface's queue, its last record becoming none; a changed pointer format also empties the carry and the
buttons, and where it changes the effective pointer mode each link whose outbound session is ACTIVE on a head of the
computer forms a MODE frame and capture on the computer ends when the mode becomes ABSOLUTE. A format already held
changes nothing. The remote-wake permission and the light report are stored; the report of the focus computer is sent
to an attached desk keyboard. In DETACHED these events change nothing (the model's choice for the selections,
notes/assumptions/11.md). That a light report of the focus computer is sent on during privacy blank too is the
model's choice (45.md). (R4, R28, R57, R64, R65, R73, R145) -/
def Obligations.ComputerTellsThePort : Prop :=
  ∀ (n : Comp) (f : Format) (on : Bool) (l : Lights) (s : State),
    let p := s.port n
    (p.bus = .detached →
      (∀ i, exec (.formatSelect n i f) s = .next (handedOn s)) ∧
      exec (.remoteWakeSet n on) s = .next (handedOn s) ∧ exec (.lightReport n l) s = .next (handedOn s)) ∧
    (p.bus ≠ .detached →
      (p.keyFormat = f → exec (.formatSelect n .keyboard f) s = .next (handedOn s)) ∧
      (p.pointerFormat = f → exec (.formatSelect n .pointer f) s = .next (handedOn s)) ∧
      (p.keyFormat ≠ f → ∃ t, exec (.formatSelect n .keyboard f) s = .next t ∧
        t.port n = { p with
          keyFormat := f, keyQueue := []
          counters := { p.counters with
            keyFlushed := min (p.counters.keyFlushed + p.keyQueue.length) 4294967295 } } ∧
        (∀ m, m ≠ n → t.port m = s.port m) ∧ t.lastKey n = none ∧ (∀ m, m ≠ n → t.lastKey m = s.lastKey m) ∧
        t = { s with
          ports := t.ports, router := { s.router with lastKey := t.router.lastKey }, sup := transmitNext s.sup }) ∧
      (p.pointerFormat ≠ f → ∃ t, exec (.formatSelect n .pointer f) s = .next t ∧
        t.port n = { p with
          pointerFormat := f, pointerQueue := [], cx := 0, cy := 0, buttons := 0
          counters := { p.counters with
            pointerFlushed := min (p.counters.pointerFlushed + p.pointerQueue.length) 4294967295 } } ∧
        (∀ m, m ≠ n → t.port m = s.port m) ∧ t.lastPointer n = none ∧
        (∀ m, m ≠ n → t.lastPointer m = s.lastPointer m) ∧
        (∀ k, t.link k =
          match Outbound.activeHead (s.link k).outbound with
          | some h =>
            if h.comp = n ∧ (s.comp n).pointerMode = .absolute then
              enqueueFrame (.mode (sentMode s h) (if f = .boot then .relative else .absolute)) (s.link k)
            else s.link k
          | none => s.link k) ∧
        t.pointer = { s.pointer with capture :=
          s.pointer.capture &&
            !(f == .full && (s.comp n).pointerMode == .absolute && s.focus.target == .loc n) } ∧
        t = { s with
          ports := t.ports, router := { s.router with lastPointer := t.router.lastPointer }, pointer := t.pointer
          links := t.links, sup := transmitNext s.sup }) ∧
      (∃ t, exec (.remoteWakeSet n on) s = .next t ∧ t.port n = { p with remoteWake := on } ∧
        (∀ m, m ≠ n → t.port m = s.port m) ∧ t = { s with ports := t.ports, sup := transmitNext s.sup }) ∧
      ∃ t, exec (.lightReport n l) s = .next t ∧ t.port n = { p with lights := l } ∧
        (∀ m, m ≠ n → t.port m = s.port m) ∧
        t.keyboard = { s.keyboard with
          lightsSent :=
            if s.focus.target = .loc n ∧ s.keyboard.attached = true then some l else s.keyboard.lightsSent } ∧
        t = { s with ports := t.ports, keyboard := t.keyboard, sup := transmitNext s.sup })

/-- A port number above 8 is answered BAD_ARG with nothing changed. Otherwise the counters of the port named, or of all
eight for port 0, become 0 and the replacement noticed flag is cleared there; whatever port is named, the desk
keyboard's two counts, the hotkey counts, the counts of both links and the supervisor receiver's counts with the
overrun count become 0. Nothing else changes. (R47, R74, R75, R78, R96, R136, R187) -/
def Obligations.CountersCleared : Prop :=
  ∀ (tag b : Byte) (s : State),
    let r : Request := ⟨0x31, tag, [b]⟩
    takesTurn r s →
    (8 < b.toNat → exec (.clearCounters tag r.body) s = .next (replied r .badArg [] (begun r s))) ∧
    (b.toNat ≤ 8 →
      ∃ u, exec (.clearCounters tag r.body) s = .next (replied r .ok [] u) ∧
        (∀ n : Comp, u.port n =
          if b = 0 ∨ b.toNat = n.val + 1 then { s.port n with counters := (State.reset.port n).counters, noticed := false }
          else s.port n) ∧
        (∀ k, u.link k = { s.link k with counters := (State.reset.link k).counters }) ∧
        u = { begun r s with
          ports := u.ports, links := u.links
          keyboard := { s.keyboard with ignoredPresses := 0, rollovers := 0 }
          matcher := { s.matcher with fired := 0, suppressed := 0, refused := 0 }
          sup := { (begun r s).sup with
            lengthErrors := 0, crcErrors := 0, gapErrors := 0, byteErrors := 0, overruns := 0 } })

/-- SET_POINTER writes the gain within 1 to 64, the threshold up to 1023 and the dwell window within 50 to 2000; SET_PORT
the flow threshold within 1 to 16 of its port; SET_OUTPUT the rest time within 20 to 2000, the blank lead up to 200
and the lock timeout within 100 to 5000 of its output; SET_HOTKEY_TIMING the two windows within 100 to 1000 and 500
to 5000; SET_BLANK its two flags and the hold time up to 10000, which its reply gives back. A byte out of its range
is answered BAD_ARG. The last two are LOCKED from level 2 upwards when a kept value would change. Nothing else
changes. (R14, R15, R20, R77, R86, R104, R127) -/
def Obligations.ClampedSettingsWritten : Prop :=
  ∀ (tag b a1 a0 c1 c0 d1 d0 : Byte) (s : State),
    (let r : Request := ⟨0x20, tag, [b, a1, a0, c1, c0]⟩
     takesTurn r s → exec (.setPointer tag r.body) s = .next (replied r .ok [] { begun r s with pointer :=
       { s.pointer with
         gain := max 1 (min 64 b.toNat), threshold := min 1023 (num2 a1 a0)
         dwell := max 50 (min 2000 (num2 c1 c0)) } })) ∧
    (let r : Request := ⟨0x32, tag, [b, a0]⟩
     takesTurn r s →
     ((b = 0 ∨ 8 < b.toNat) → exec (.setPort tag r.body) s = .next (replied r .badArg [] (begun r s))) ∧
     ∀ n : Comp, b.toNat = n.val + 1 → ∃ u, exec (.setPort tag r.body) s = .next (replied r .ok [] u) ∧
       u.port n = { s.port n with flow := max 1 (min 16 a0.toNat) } ∧ (∀ m, m ≠ n → u.port m = s.port m) ∧
       u = { begun r s with ports := u.ports }) ∧
    (let r : Request := ⟨0x42, tag, [b, a1, a0, c1, c0, d1, d0]⟩
     takesTurn r s →
     ((b = 0 ∨ 6 < b.toNat) → exec (.setOutput tag r.body) s = .next (replied r .badArg [] (begun r s))) ∧
     ∀ o : OutputId, b.toNat = o.val + 1 → ∃ u, exec (.setOutput tag r.body) s = .next (replied r .ok [] u) ∧
       u.out o = { s.out o with
         restTime := max 20 (min 2000 (num2 a1 a0)), blankLead := min 200 (num2 c1 c0)
         lockTimeout := max 100 (min 5000 (num2 d1 d0)) } ∧
       (∀ m, m ≠ o → u.out m = s.out m) ∧ u = { begun r s with outputs := u.outputs }) ∧
    (let r : Request := ⟨0x3C, tag, [a1, a0, c1, c0]⟩
     let x := max 100 (min 1000 (num2 a1 a0))
     let y := max 500 (min 5000 (num2 c1 c0))
     takesTurn r s → exec (.setHotkeyTiming tag r.body) s = .next
       (if 2 ≤ s.lock.level ∧ (x ≠ s.matcher.tapWindow ∨ y ≠ s.matcher.commandWindow) then
         replied r .locked [] (begun r s)
       else replied r .ok [] { begun r s with matcher := { s.matcher with tapWindow := x, commandWindow := y } })) ∧
    (let r : Request := ⟨0x4A, tag, [b, a1, a0, c0]⟩
     let hold := min 10000 (num2 a1 a0)
     let new : BlankUnit :=
       { s.blank with autoRecover := b == 1, holdTime := hold, hotkeyResume := c0 == 1 }
     takesTurn r s → exec (.setBlank tag r.body) s = .next
       (if 1 < b.toNat ∨ 1 < c0.toNat then replied r .badArg [] (begun r s)
       else if 2 ≤ s.lock.level ∧ new ≠ s.blank then replied r .locked [] (begun r s)
       else replied r .ok (flag (b == 1) ++ byte2 hold ++ flag (c0 == 1)) { begun r s with blank := new }))

/-- An index above 31, and for SET_HOTKEY an unknown trigger kind or action, a trigger field or an argument out of its
range, or a trigger that another entry excludes, is answered BAD_ARG; a changed entry from level 2 upwards LOCKED.
Otherwise the entry is written or emptied, every other entry stays, the counter of each line that the old or the new
entry names returns to 0 with its window stopped, and nothing else changes. (R15, R79, R80, R83, R84, R95, R197) -/
def Obligations.HotkeyTableWritten : Prop :=
  ∀ (tag b : Byte) (e : HotkeyEntry) (s : State),
    let valid : Prop :=
      match e.trigger with
      | .tap k c => 4 ≤ k ∧ k ≤ 231 ∧ 2 ≤ c ∧ c ≤ 4
      | .chord m k => m ≠ 0 ∧ 4 ≤ k ∧ k ≤ 223
      | .command k => 4 ≤ k ∧ k ≤ 223
      | .line _ c => c = 1 ∨ c = 2 ∨ c = 4 ∨ c = 8
    let held : Prop :=
      match e.trigger with
      | .tap k c => k ≤ 255 ∧ c ≤ 255
      | .chord _ k => k ≤ 255
      | .command k => k ≤ 255
      | .line _ c => c ≤ 255
    let named (x : Option HotkeyEntry) (l : LineId) : Prop := ∃ d c, x = some d ∧ d.trigger = .line l c
    let excluded (i : Fin 32) : Prop := ∃ j d, j ≠ i ∧ s.hotkey j = some d ∧
      (d.trigger = e.trigger ∨ (∃ k c c', d.trigger = .tap k c ∧ e.trigger = .tap k c') ∨
        ∃ l c c', d.trigger = .line l c ∧ e.trigger = .line l c')
    let written (u : State) (i : Fin 32) (x : Option HotkeyEntry) (r : Request) : Prop :=
      u.hotkey i = x ∧ (∀ j, j ≠ i → u.hotkey j = s.hotkey j) ∧
      (∀ l, (named (s.hotkey i) l ∨ named x l → u.lineTrigger l = ⟨0, none⟩) ∧
        (¬ (named (s.hotkey i) l ∨ named x l) → u.lineTrigger l = s.lineTrigger l)) ∧
      u = { begun r s with hotkeys := u.hotkeys, lineTriggers := u.lineTriggers }
    (held →
      let r : Request := ⟨0x38, tag, b :: hotkeyBytes (some e)⟩
      takesTurn r s →
      ((31 < b.toNat ∨ ¬ valid ∨ (∃ i : Fin 32, b.toNat = i.val ∧ excluded i)) →
        exec (.setHotkey tag r.body) s = .next (replied r .badArg [] (begun r s))) ∧
      ∀ i : Fin 32, b.toNat = i.val → valid → ¬ excluded i →
        (2 ≤ s.lock.level ∧ s.hotkey i ≠ some e →
          exec (.setHotkey tag r.body) s = .next (replied r .locked [] (begun r s))) ∧
        (¬ (2 ≤ s.lock.level ∧ s.hotkey i ≠ some e) →
          ∃ u, exec (.setHotkey tag r.body) s = .next (replied r .ok [] u) ∧ written u i (some e) r)) ∧
    (∀ k f1 f2 a x y : Byte,
      let unknownTrigger : Prop := k = 0 ∨ 4 < k.toNat ∨ (k = 4 ∧ 15 < f1.toNat)
      let unknownAction : Prop :=
        14 < a.toNat ∨ (a = 1 ∧ (x = 0 ∨ 8 < x.toNat)) ∨ (a = 4 ∧ (x = 0 ∨ 6 < x.toNat ∨ 18 < y.toNat)) ∨
          (a = 5 ∧ 15 < x.toNat) ∨ (a = 9 ∧ 8 < x.toNat)
      let r : Request := ⟨0x38, tag, [b, k, f1, f2, a, x, y]⟩
      (unknownTrigger ∨ unknownAction) → takesTurn r s →
      exec (.setHotkey tag r.body) s = .next (replied r .badArg [] (begun r s))) ∧
    (let r : Request := ⟨0x3A, tag, [b]⟩
     takesTurn r s →
     (31 < b.toNat → exec (.clearHotkey tag r.body) s = .next (replied r .badArg [] (begun r s))) ∧
     ∀ i : Fin 32, b.toNat = i.val →
       (2 ≤ s.lock.level ∧ s.hotkey i ≠ none →
         exec (.clearHotkey tag r.body) s = .next (replied r .locked [] (begun r s))) ∧
       (¬ (2 ≤ s.lock.level ∧ s.hotkey i ≠ none) →
         ∃ u, exec (.clearHotkey tag r.body) s = .next (replied r .ok [] u) ∧ written u i none r))

/-- An action number above 14, or an argument out of its range, is answered BAD_ARG. Otherwise, in every state of the
blank unit, LEAD opens the command phase; FOCUS writes its target with origin REQUEST; FOCUS_NEXT and FOCUS_PREV do so
for the first computer in their order that is not DETACHED, from C1 on when the focus is not on a computer;
BROADCAST_TOGGLE turns broadcast over with the member flags kept, each computer that stops being a recipient being
released with its PORT notices, every held key entering the mask when one becomes a recipient, and nothing else
changing; NOTIFY produces a HOTKEY notice of source REQUEST; BLANK, SWITCH, RECALL, WAKE, TAKE_BACK, GRANT, CLAIM
(queued) and RELEASE answer and leave what the equivalent request does on their argument or the focus, WAKE on a
computer after a focus on it; RESUME_BLANK where it is enabled and no blank line is asserted returns the blank unit to
CLEAR with a BLANK notice; and an action that finds nothing to act on is answered WRONG_STATE with nothing changed.
The fired, suppressed and refused counts, the tables, the lock, the hotkey table and the scenes stay as they are.
Model's choices: the bytes of the absent index in the notice (notes/assumptions/8.md), and argument bytes that are
disregarded (26.md). (R42, R53, R55, R80, R81, R82, R98, R99, R121, R125, R159, R166) -/
def Obligations.TriggerRunsItsAction : Prop :=
  ∀ (tag a x y : Byte) (s : State),
    let r : Request := ⟨0x3B, tag, [a, x, y]⟩
    let focused (n : Comp) (u : State) : Prop :=
      u.focus = ⟨.loc n, .request, placement s (assignmentOf s) (.loc n)⟩ ∧ u = focusBy (.loc n) .request (begun r s)
    let up (i : Fin 8) : Comp :=
      match s.focus.target with
      | .loc n => Fin.ofNat 8 (n.val + 1 + i.val)
      | _ => i
    let down (i : Fin 8) : Comp :=
      match s.focus.target with
      | .loc n => Fin.ofNat 8 (n.val + 7 - i.val)
      | _ => Fin.ofNat 8 (8 - i.val)
    takesTurn r s →
    (actionOf a x y = none → exec (.trigger tag r.body) s = .next (replied r .badArg [] (begun r s))) ∧
    (14 < a.toNat → actionOf a x y = none) ∧
    ∀ act, actionOf a x y = some act →
      ∃ c u, exec (.trigger tag r.body) s = .next (replied r c [] u) ∧
        u.matcher.fired = s.matcher.fired ∧ u.matcher.suppressed = s.matcher.suppressed ∧
        u.matcher.refused = s.matcher.refused ∧ u.heads = s.heads ∧ u.comps = s.comps ∧ u.layout = s.layout ∧
        u.desk = s.desk ∧ u.lock = s.lock ∧ u.hotkeys = s.hotkeys ∧ u.scenes = s.scenes ∧
        (act = .lead → c = .ok ∧ u = { begun r s with
          matcher := { s.matcher with state := .command (s.now + s.matcher.commandWindow) } }) ∧
        (∀ n, act = .focus n → c = .ok ∧ focused n u) ∧
        (act = .focusNext → ∀ i, (s.port (up i)).bus ≠ .detached → (∀ j, j < i → (s.port (up j)).bus = .detached) →
          c = .ok ∧ focused (up i) u) ∧
        (act = .focusPrev → ∀ i, (s.port (down i)).bus ≠ .detached →
          (∀ j, j < i → (s.port (down j)).bus = .detached) → c = .ok ∧ focused (down i) u) ∧
        (act = .broadcastToggle → c = .ok ∧ broadcastTurned s (begun r s) u) ∧
        (act = .notify → c = .ok ∧ u = (begun r s).modSup (queueNotice .hotkey ⟨0xF4, 0, [2, 0, 0]⟩)) ∧
        (∀ o t, act = .switch o t → c = (switchTo o t (begun r s)).code ∧ u = (switchTo o t (begun r s)).state) ∧
        (∀ i, act = .recallSlot i → c = (recallSlot i (begun r s)).code ∧ u = (recallSlot i (begun r s)).state) ∧
        (act = .blank → c = .ok ∧ u = engageBy ⟨false, false, true⟩ .request (begun r s)) ∧
        (act = .resumeBlank → s.blank.hotkeyResume = true → s.blank.asserted = [] → c = .ok ∧
          (s.blank.state = .clear → u = begun r s) ∧
          (s.blank.state ≠ .clear → u = blankLifted .resume (begun r s))) ∧
        (∀ n, act = .wake (some n) →
          c = (wakeTrigger n (focusBy (.loc n) .request (begun r s))).code ∧
          u = (wakeTrigger n (focusBy (.loc n) .request (begun r s))).state) ∧
        (∀ n, act = .wake none → s.focus.target = .loc n →
          c = (wakeTrigger n (begun r s)).code ∧ u = (wakeTrigger n (begun r s)).state) ∧
        (∀ n, act = .grant → s.focus.target = .loc n →
          ((s.control n).claims = [] → c = .wrongState ∧ u = begun r s) ∧
          ((s.control n).claims ≠ [] →
            c = (grantControl n none (begun r s)).code ∧ u = (grantControl n none (begun r s)).state)) ∧
        (∀ k, act = .claim → s.focus.target = .rem k →
          ((s.link k).viewer ≠ .none → c = .wrongState ∧ u = begun r s) ∧
          ((s.link k).viewer = .none →
            c = (claimControl k .queued (begun r s)).code ∧ u = (claimControl k .queued (begun r s)).state)) ∧
        (∀ k, act = .release → s.focus.target = .rem k →
          ((s.link k).viewer = .none → c = .wrongState ∧ u = begun r s) ∧
          ((s.link k).viewer ≠ .none →
            c = (releaseControl k (begun r s)).code ∧ u = (releaseControl k (begun r s)).state)) ∧
        (∀ n, act = .takeBack → s.focus.target = .loc n →
          c = (takeBack n (begun r s)).code ∧ u = (takeBack n (begun r s)).state) ∧
        (act = .takeBack ∨ act = .grant ∨ act = .wake none → (∀ n, s.focus.target ≠ .loc n) →
          c = .wrongState ∧ u = begun r s) ∧
        (act = .claim ∨ act = .release → (∀ k, s.focus.target ≠ .rem k) → c = .wrongState ∧ u = begun r s) ∧
        (act = .focusNext ∨ act = .focusPrev → (∀ n, (s.port n).bus = .detached) → c = .wrongState ∧ u = begun r s) ∧
        (act = .resumeBlank → s.blank.hotkeyResume = false ∨ s.blank.asserted ≠ [] → c = .wrongState ∧ u = begun r s)

/-- With no two entries of the table that exclude one another: in IDLE a non-modifier press that completes a CHORD under
exactly the modifiers held is withheld and fires it, else a press of a TAP key enters TAPPING with a press pending,
else it is delivered; a release is delivered. In TAPPING the release of the pending key counts a tap, and fires the
TAP entry when its count is reached, goes on with a fresh window when it is not, and returns to IDLE when the entry
has gone; another press of the key stops the window; a press of another key is judged as in IDLE; any other release
changes nothing. A press that fires nothing and starts nothing is delivered. (R79, R83, R88, R89, R90, R91) -/
def Obligations.IdleAndTappingJudgeKeys : Prop :=
  ∀ (s : State) (k : Nat), hotkeysApart s →
    let tap (c : Nat) (i : Fin 32) : Prop := ∃ a, s.hotkey i = some ⟨.tap k c, a⟩
    let chord (i : Fin 32) : Prop := ∃ a, s.hotkey i = some ⟨.chord s.keyboard.held.mods k, a⟩
    let fromIdle (j : Judgement) : Prop :=
      (∀ i, chord i → (k < 224 ∨ 231 < k) → j = ⟨.idle, true, some i⟩) ∧
      (((∀ i, ¬ chord i) ∨ (224 ≤ k ∧ k ≤ 231)) →
        (∀ c i, tap c i → j = ⟨.tapping k 0 true none, false, none⟩) ∧
        ((∀ c i, ¬ tap c i) → j = ⟨.idle, false, none⟩))
    (s.matcher.state = .idle → fromIdle (judgeKey s ⟨true, k⟩) ∧ judgeKey s ⟨false, k⟩ = ⟨.idle, false, none⟩) ∧
    (∀ j n p d, s.matcher.state = .tapping j n p d → j ≠ k →
      fromIdle (judgeKey s ⟨true, k⟩) ∧ judgeKey s ⟨false, k⟩ = ⟨.tapping j n p d, false, none⟩) ∧
    ∀ n p d, s.matcher.state = .tapping k n p d →
      judgeKey s ⟨true, k⟩ = ⟨.tapping k n true none, false, none⟩ ∧
      (p = false → judgeKey s ⟨false, k⟩ = ⟨.tapping k n p d, false, none⟩) ∧
      (p = true →
        (∀ c i, tap c i → c ≤ n + 1 → judgeKey s ⟨false, k⟩ = ⟨.idle, false, some i⟩) ∧
        (∀ c i, tap c i → n + 1 < c → judgeKey s ⟨false, k⟩ =
          ⟨.tapping k (n + 1) false (some (s.now + s.matcher.tapWindow)), false, none⟩) ∧
        ((∀ c i, ¬ tap c i) → judgeKey s ⟨false, k⟩ = ⟨.idle, false, none⟩))

/-- In COMMAND, with no two entries of the table that exclude one another, a press of a non-modifier key is withheld and
the matcher returns to IDLE, the COMMAND entry on the key firing if there is one, whatever TAP or CHORD entries name
it. A report with one more such key puts its code into the mask, so that it is in no record or frame, runs the action
of the entry if there is one, and hands on the records of the state that leaves, waking nothing. A press of a
modifier and any release are delivered and leave the phase and its deadline. When the command window expires the
matcher returns to IDLE, nothing fires and nothing else changes but the present time, which has come to the deadline
(the model's timebase, notes/assumptions/4.md). The order C1 to C8 of the PORT notices (35.md), that a KEYS frame
discarded by a full send queue counts as the last one sent (36.md), and that the key that fires RESUME_BLANK forms a
record itself (46.md), are the model's choices. (R49, R50, R92, R96) -/
def Obligations.CommandPhaseJudgesKeys : Prop :=
  ∀ (s : State) (d : Nat), s.matcher.state = .command d →
    (∀ k, (k < 224 ∨ 231 < k) →
      (hotkeysApart s → ∀ i a, s.hotkey i = some ⟨.command k, a⟩ → judgeKey s ⟨true, k⟩ = ⟨.idle, true, some i⟩) ∧
      ((∀ i e, s.hotkey i = some e → e.trigger ≠ .command k) → judgeKey s ⟨true, k⟩ = ⟨.idle, true, none⟩)) ∧
    (∀ k, 224 ≤ k → k ≤ 231 → judgeKey s ⟨true, k⟩ = ⟨.command d, false, none⟩) ∧
    (∀ k, judgeKey s ⟨false, k⟩ = ⟨.command d, false, none⟩) ∧
    (∀ key : Byte,
      let held := s.keyboard.held
      s.keyboard.attached = true → (∀ c ∈ held.keys, 4 ≤ c ∧ c ≤ 223) → held.keys.length < 32 →
      4 ≤ key.toNat → key.toNat ≤ 223 → key.toNat ∉ held.keys →
      let withheld : State := { s with
        keyboard := { s.keyboard with held := ⟨held.mods, held.keys ++ [key.toNat]⟩ }
        matcher := { s.matcher with state := .idle }
        router := { s.router with mask :=
          { s.router.mask with keys :=
            if key.toNat ∈ s.router.mask.keys then s.router.mask.keys else s.router.mask.keys ++ [key.toNat] } } }
      let answer := exec (.deskKeyboardReport held.mods (held.keys.map (BitVec.ofNat 8) ++ [key])) s
      ((∀ i e, s.hotkey i = some e → e.trigger ≠ .command key.toNat) → handsKeysOn false withheld answer) ∧
      (hotkeysApart s → ∀ i a, s.hotkey i = some ⟨.command key.toNat, a⟩ →
        handsKeysOn false (fire a (.keys i) withheld) answer)) ∧
    exec .commandWindowExpiry s = .next (handedOn { s with
      now := max s.now d, matcher := { s.matcher with state := .idle } })

/-- At a qualifying edge of a line that no LINE entry names nothing happens; otherwise its counter rises and its
window starts afresh, or, when the entry's count is reached, the counter returns to 0, the window stops and the entry
fires. An entry that fires adds one to the fired count; while privacy blank is engaged any action but RESUME_BLANK is
suppressed, counted and not run. With privacy blank CLEAR, or for RESUME_BLANK, the action runs from the counted
state: LEAD opens the command phase; FOCUS, FOCUS_NEXT, FOCUS_PREV and WAKE on a computer write the focus with origin
HOTKEY; BROADCAST_TOGGLE turns broadcast over, each computer that stops being a recipient being released with its PORT
notices, every held key entering the mask when one becomes a recipient, and nothing else changing; BLANK engages with
source HOTKEY; NOTIFY places a HOTKEY notice with its source and index; RESUME_BLANK, where enabled with no blank line
asserted, clears the unit with a BLANK notice; and SWITCH, RECALL, WAKE, TAKE_BACK, GRANT, CLAIM (queued) and RELEASE
leave what the equivalent request leaves. An action that finds nothing to act on or is refused changes nothing but the
refused count, raised by one. The expiry of a line's window returns its counter to 0, and that of the tap window
returns TAPPING to IDLE; with no such window running these events change nothing. The present time at an expiry given
as a command, and that such a command changes nothing when its time is not running, are the model's choices
(notes/assumptions/4.md), as is the presence byte of the index in the notice (8.md). (R53, R55, R81, R82, R91, R94,
R95, R96, R97, R99, R121, R125) -/
def Obligations.LineTriggersAndFiring : Prop :=
  (∀ (l : LineId) (s : State), hotkeysApart s →
    ((∀ i e c, s.hotkey i = some e → e.trigger ≠ .line l c) → qualifyingEdge l s = s) ∧
    ∀ i a c, s.hotkey i = some ⟨.line l c, a⟩ →
      (∃ u, u.lineTrigger l = ⟨0, none⟩ ∧ (∀ j, j ≠ l → u.lineTrigger j = s.lineTrigger j) ∧
        u = { s with lineTriggers := u.lineTriggers } ∧
        (c ≤ (s.lineTrigger l).count + 1 → qualifyingEdge l s = fire a (.line i) u)) ∧
      ((s.lineTrigger l).count + 1 < c →
        (qualifyingEdge l s).lineTrigger l = ⟨(s.lineTrigger l).count + 1, some (s.now + s.matcher.tapWindow)⟩ ∧
        (∀ j, j ≠ l → (qualifyingEdge l s).lineTrigger j = s.lineTrigger j) ∧
        qualifyingEdge l s = { s with lineTriggers := (qualifyingEdge l s).lineTriggers })) ∧
  (∀ (a : Action) (src : FireSource) (s : State),
    (fire a src s).matcher.fired = min (s.matcher.fired + 1) 4294967295 ∧
    (s.blank.state ≠ .clear → a ≠ .resumeBlank → fire a src s = { s with matcher :=
      { s.matcher with
        fired := min (s.matcher.fired + 1) 4294967295
        suppressed := min (s.matcher.suppressed + 1) 4294967295 } })) ∧
  (∀ (a : Action) (src : FireSource) (s : State), src ≠ .request → (s.blank.state = .clear ∨ a = .resumeBlank) →
    let base : State := { s with matcher := { s.matcher with fired := min (s.matcher.fired + 1) 4294967295 } }
    let t : State := fire a src s
    let refused : Prop := t = { base with matcher :=
      { base.matcher with refused := min (s.matcher.refused + 1) 4294967295 } }
    let judged (j : Judged) : Prop :=
      (j.code = .ok ∨ j.code = .accepted → t = j.state) ∧ (j.code ≠ .ok → j.code ≠ .accepted → refused)
    let focused (n : Comp) : Prop :=
      t = focusBy (.loc n) .hotkey base ∧ t.focus = ⟨.loc n, .hotkey, placement s (assignmentOf s) (.loc n)⟩
    let up (i : Fin 8) : Comp :=
      match s.focus.target with
      | .loc n => Fin.ofNat 8 (n.val + 1 + i.val)
      | _ => i
    let down (i : Fin 8) : Comp :=
      match s.focus.target with
      | .loc n => Fin.ofNat 8 (n.val + 7 - i.val)
      | _ => Fin.ofNat 8 (8 - i.val)
    (a = .lead → t = { base with matcher :=
      { base.matcher with state := .command (s.now + s.matcher.commandWindow) } }) ∧
    (∀ n, a = .focus n → focused n) ∧
    (a = .focusNext → ∀ i, (s.port (up i)).bus ≠ .detached → (∀ j, j < i → (s.port (up j)).bus = .detached) →
      focused (up i)) ∧
    (a = .focusPrev → ∀ i, (s.port (down i)).bus ≠ .detached → (∀ j, j < i → (s.port (down j)).bus = .detached) →
      focused (down i)) ∧
    (a = .broadcastToggle →
      broadcastTurned s base t) ∧
    (a = .notify → t = base.modSup (queueNotice .hotkey ⟨0xF4, 0,
      (match src with
        | .keys i => [0, 1, BitVec.ofNat 8 i.val]
        | .line i => [1, 1, BitVec.ofNat 8 i.val]
        | .request => [2, 0, 0])⟩)) ∧
    (∀ o x, a = .switch o x → judged (switchTo o x base)) ∧
    (∀ i, a = .recallSlot i → judged (recallSlot i base)) ∧
    (a = .blank → t = engageBy ⟨false, true, false⟩ .hotkey base) ∧
    (a = .resumeBlank →
      (s.blank.hotkeyResume = true → s.blank.asserted = [] →
        (s.blank.state = .clear → t = base) ∧
        (s.blank.state ≠ .clear → t = blankLifted .resume base)) ∧
      (s.blank.hotkeyResume = false ∨ s.blank.asserted ≠ [] → refused)) ∧
    (∀ n, a = .wake (some n) → t = (wakeTrigger n (focusBy (.loc n) .hotkey base)).state) ∧
    (∀ n, a = .wake none → s.focus.target = .loc n → t = (wakeTrigger n base).state) ∧
    (∀ n, a = .takeBack → s.focus.target = .loc n → t = (takeBack n base).state) ∧
    (∀ n, a = .grant → s.focus.target = .loc n →
      ((s.control n).claims = [] → refused) ∧ ((s.control n).claims ≠ [] → judged (grantControl n none base))) ∧
    (∀ k, a = .claim → s.focus.target = .rem k →
      ((s.link k).viewer ≠ .none → refused) ∧ ((s.link k).viewer = .none → judged (claimControl k .queued base))) ∧
    (∀ k, a = .release → s.focus.target = .rem k →
      ((s.link k).viewer = .none → refused) ∧ ((s.link k).viewer ≠ .none → judged (releaseControl k base))) ∧
    (a = .takeBack ∨ a = .grant ∨ a = .wake none → (∀ n, s.focus.target ≠ .loc n) → refused) ∧
    (a = .claim ∨ a = .release → (∀ k, s.focus.target ≠ .rem k) → refused) ∧
    (a = .focusNext ∨ a = .focusPrev → (∀ n, (s.port n).bus = .detached) → refused)) ∧
  (∀ (l : LineId) (s : State),
    ((s.lineTrigger l).deadline = none → exec (.lineWindowExpiry l) s = .next (handedOn s)) ∧
    ∀ d, (s.lineTrigger l).deadline = some d → ∃ t, exec (.lineWindowExpiry l) s = .next t ∧
      t.lineTrigger l = ⟨0, none⟩ ∧ (∀ j, j ≠ l → t.lineTrigger j = s.lineTrigger j) ∧
      t = { s with now := max s.now d, lineTriggers := t.lineTriggers, sup := transmitNext s.sup }) ∧
  ∀ s : State,
    (∀ k n d, s.matcher.state = .tapping k n false (some d) → exec .tapWindowExpiry s = .next (handedOn { s with
      now := max s.now d, matcher := { s.matcher with state := .idle } })) ∧
    ((∀ k n d, s.matcher.state ≠ .tapping k n false (some d)) → exec .tapWindowExpiry s = .next (handedOn s))

/-- A byte that names no output or target, a disabled head, and an inbound lane for an outbound lane are answered
BAD_ARG; then an inbound lane without an ACTIVE session and an outbound lane whose session is not NONE are answered
WRONG_STATE; each changes nothing. Otherwise, in BLANKING the target replaces the switch target, in LOCKING it is put
in the pending slot, in SHOWING, NO_SIGNAL and DARK it empties the slot when the output shows it already and is put
there when not. The answer is OK when the output showed the target already with an empty slot, and ACCEPTED
otherwise. No other output and nothing else changes. (R105, R106) -/
def Obligations.SwitchTakesItsTarget : Prop :=
  ∀ (tag b0 b1 : Byte) (s : State),
    let r : Request := ⟨0x40, tag, [b0, b1]⟩
    takesTurn r s →
    ((b0 = 0 ∨ 6 < b0.toNat ∨ 18 < b1.toNat) →
      exec (.switch tag r.body) s = .next (replied r .badArg [] (begun r s))) ∧
    ∀ (o : OutputId) (t : Target), outputByte o = [b0] → targetByte t = [b1] →
      let badArg : Prop :=
        (∃ h, t = some (.head h) ∧ (s.headMap h).enabled = false) ∨ (4 ≤ o.val ∧ ∃ k, t = some (.lane k))
      let wrongState : Prop :=
        (∃ k, t = some (.lane k) ∧ ∀ x, (s.link k).inbound ≠ .active x) ∨
          ∃ k : LinkId, o.val = 4 + k.val ∧ (s.link k).outbound ≠ .none
      (badArg → exec (.switch tag r.body) s = .next (replied r .badArg [] (begun r s))) ∧
      (¬ badArg → wrongState → exec (.switch tag r.body) s = .next (replied r .wrongState [] (begun r s))) ∧
      (¬ badArg → ¬ wrongState →
        let p := s.out o
        let shown : Prop :=
          (t = p.assignment ∧ (p.state = .showing ∨ p.state = .noSignal)) ∨ (t = none ∧ p.state = .dark)
        ∃ c u, exec (.switch tag r.body) s = .next (replied r c [] u) ∧
          (shown ∧ p.pendingSlot = none → c = .ok) ∧ (¬ (shown ∧ p.pendingSlot = none) → c = .accepted) ∧
          (∀ x e, p.state = .blanking x e → u.out o = { p with state := .blanking t e }) ∧
          ((∀ x e, p.state ≠ .blanking x e) →
            (shown → u.out o = { p with pendingSlot := none }) ∧
            (¬ shown → u.out o = { p with pendingSlot := some t })) ∧
          (∀ j, j ≠ o → u.out j = s.out j) ∧ u = { begun r s with outputs := u.outputs })

/-- A slot above 15, a focus computer above 8, a byte that names no monitor or target, more than four entries, two for
one monitor, or a disabled head is answered BAD_ARG. Otherwise the slot holds the entries in monitor order with the
focus computer, or is empty when there are none, and nothing else changes. A recall of an empty slot is NO_ENTRY. A
recall of a held scene hands each monitor listed its target (R105) unless it is an inbound lane without an ACTIVE
session or a disabled head, writes the focus to its focus computer with origin SCENE, and is ACCEPTED with the number
skipped. The pointer moves to the centre of the tile of the placement monitor, which is chosen by what the scene hands
to a monitor or else by its assignment, or stays when there is none, and capture ends. A changed target acts as at
every focus change; an unchanged one leaves the router, the lights, the links and the glide zone, and clears the delta
carry of the computer of a capture that ends. Each TALLY line follows its target (R181), and no other line changes;
monitors not listed, the lanes, and the focus of a scene without one stay as they are. The PORT notices of the
releases are placed, from C1 to C8 (the order is the model's choice, notes/assumptions/35.md), and then, where a field
of the focus record has been altered, its FOCUS notice; nothing else of the supervisor link changes. Model's choices:
that a frame discarded by a full send queue counts as sent (36.md), that a link is released also under a session mode
of 0 × 0 (37.md), and that the lights are checked at a focus change during privacy blank too (45.md). (R18, R30, R38,
R39, R40, R49, R55, R56, R105, R117, R118, R181) -/
def Obligations.ScenesStoredAndRecalled : Prop :=
  ∀ (tag b f : Byte) (es : List (Monitor × Target)) (s : State), es.length ≤ 122 →
    (∀ pairs : List (Byte × Byte), pairs.length ≤ 122 →
      (∃ p ∈ pairs, p.1 = 0 ∨ 4 < p.1.toNat ∨ 18 < p.2.toNat) →
      let r : Request := ⟨0x43, tag, b :: f :: listBytes (fun p => [p.1, p.2]) pairs⟩
      takesTurn r s → exec (.storeScene tag r.body) s = .next (replied r .badArg [] (begun r s))) ∧
    (let r : Request := ⟨0x43, tag, b :: f :: listBytes (fun e => monitorByte e.1 ++ targetByte e.2) es⟩
     let bad : Prop :=
       15 < b.toNat ∨ 8 < f.toNat ∨ 4 < es.length ∨ ¬ (es.map Prod.fst).Nodup ∨
         ∃ m h, (m, some (Input.head h)) ∈ es ∧ (s.headMap h).enabled = false
     takesTurn r s →
     (bad → exec (.storeScene tag r.body) s = .next (replied r .badArg [] (begun r s))) ∧
     (¬ bad → ∀ (i : Fin 16) (sorted : List (Monitor × Target)), b.toNat = i.val → sorted.Perm es →
       sorted.Pairwise (fun x y => x.1 < y.1) →
       ∃ u, exec (.storeScene tag r.body) s = .next (replied r .ok [] u) ∧
         (es = [] → u.scene i = none) ∧
         (es ≠ [] → f = 0 → u.scene i = some ⟨sorted, none⟩) ∧
         (es ≠ [] → ∀ n : Comp, f.toNat = n.val + 1 → u.scene i = some ⟨sorted, some n⟩) ∧
         (∀ j, j ≠ i → u.scene j = s.scene j) ∧ u = { begun r s with scenes := u.scenes })) ∧
    (let r : Request := ⟨0x44, tag, [b]⟩
     takesTurn r s →
     (15 < b.toNat → exec (.recallScene tag r.body) s = .next (replied r .badArg [] (begun r s))) ∧
     ∀ i : Fin 16, b.toNat = i.val →
       (s.scene i = none → exec (.recallScene tag r.body) s = .next (replied r .noEntry [] (begun r s))) ∧
       ∀ x, s.scene i = some x → (x.entries.map Prod.fst).Nodup →
         let skipped (t : Target) : Prop :=
           (∃ k, t = some (.lane k) ∧ ∀ y, (s.link k).inbound ≠ .active y) ∨
             ∃ h, t = some (.head h) ∧ (s.headMap h).enabled = false
         ∃ n u, exec (.recallScene tag r.body) s = .next (replied r .accepted [BitVec.ofNat 8 n] u) ∧
           (∀ kept : List (Monitor × Target), (∀ e, e ∈ kept ↔ e ∈ x.entries ∧ ¬ skipped e.2) → kept.Nodup →
             n + kept.length = x.entries.length) ∧
           (∀ m t, (m, t) ∈ x.entries → ¬ skipped t →
             u.out (monitorOut m) = takeTargetRecord t (s.out (monitorOut m))) ∧
           (∀ m, (∀ t, (m, t) ∈ x.entries → skipped t) → u.out (monitorOut m) = s.out (monitorOut m)) ∧
           (∀ k, u.out (laneOut k) = s.out (laneOut k)) ∧
           (x.focus = none → u = { begun r s with outputs := u.outputs }) ∧
           (∀ c, x.focus = some c → ∀ look : Monitor → Target,
             (∀ m t, (m, t) ∈ x.entries → ¬ skipped t → look m = t) →
             (∀ m, (∀ t, (m, t) ∈ x.entries → skipped t) → look m = assignmentOf s m) →
             u.focus = ⟨.loc c, .scene, placement s look (.loc c)⟩ ∧
             (∀ m t, placement s look (.loc c) = some m → tileOf s.layout m = some t →
               u.pointer.px = t.x0 + t.w / 2 ∧ u.pointer.py = t.y0 + t.h / 2 ∧ u.pointer.rx = 0 ∧ u.pointer.ry = 0 ∧
               u.pointer.pressure = ⟨none, 0, none⟩) ∧
             (placement s look (.loc c) = none →
               u.pointer.px = s.pointer.px ∧ u.pointer.py = s.pointer.py ∧ u.pointer.rx = s.pointer.rx ∧
               u.pointer.ry = s.pointer.ry ∧ u.pointer.pressure = s.pointer.pressure) ∧
             u.pointer.capture = false ∧
             (s.focus.target = .loc c → targetKept s u ∧
               ∀ m, u.port m =
                 if s.pointer.capture = true ∧ m = c then carryCleared (s.port m) else s.port m) ∧
             (s.focus.target ≠ .loc c → refocused s u)) ∧
           u.pointer.gain = s.pointer.gain ∧ u.pointer.threshold = s.pointer.threshold ∧
           u.pointer.dwell = s.pointer.dwell ∧ u.router.broadcast = s.router.broadcast ∧ linesFollow s u ∧
           u = { begun r s with
             outputs := u.outputs, focus := u.focus, pointer := u.pointer, router := u.router, ports := u.ports
             controls := u.controls, keyboard := u.keyboard, lines := u.lines, links := u.links
             sup := toldWrite s u (begun r s).sup })

/-- With no target pending a switch start changes nothing. Otherwise, at the earliest moment that is 2 ms after the
last start and at which some output's rest time is over, the first eligible output in the order M1 to M4, O1, O2 takes
its pending target and the start is recorded; with a blank lead above 0 it enters BLANKING with its blank end, and
with one of 0 the crosspoint is set at once. At the blank end of BLANKING it is set too: the assignment becomes the
switch target, and the output enters DARK for DARK and LOCKING on an input, with its deadline the lock timeout later
and stable since now if the input's mode is known; when the output is the pointer's monitor a capture ends, when it is
the monitor of the focus tile the focus is re-evaluated with origin GLIDE, a changed target acting as at every focus
change, and each TALLY line follows its target; while the target stays, the router, the lights, the links and the
glide zone stay, and of the ports only the delta carry of the computer of a capture that ends is cleared. Each state
entered produces an OUTPUT notice, presenting black: one at the start, and at the setting one after the PORT notices
of the releases and the FOCUS notice of a changed record (R38, R109; the releases from C1 to C8,
notes/assumptions/35.md). Where neither is its monitor only outputs and this notice change. A blank end outside
BLANKING changes nothing. Other outputs stay as they are. That a start or a blank end given as a command moves the
timebase to its moment (4.md), that a frame discarded by a full send queue counts as sent (36.md), that a link is
released also under a session mode of 0 × 0 (37.md), and that the lights are checked at a focus change during privacy
blank too (45.md), are the model's choices. (R18, R26, R28, R39, R40, R43, R55, R56, R108, R109, R115, R181) -/
def Obligations.SwitchStartsAndSets : Prop :=
  let set (s : State) (o : OutputId) (p : Output) (x : Target) (now : Nat) (start : Option Nat) (before : Supervisor)
      (t : State) : Prop :=
    let told (q : Supervisor) : Supervisor := transmitNext (queueNotice .video (outputNotice o (t.out o) false) q)
    (x = none → t.out o = { p with assignment := none, state := .dark }) ∧
    (∀ i, x = some i → t.out o = { p with
      assignment := some i
      state := .locking (now + p.lockTimeout) (match s.input i with | .measured _ => some now | _ => none) }) ∧
    (∀ j, j ≠ o → t.out j = s.out j) ∧
    (∀ m : Monitor, o = monitorOut m → s.focus.tile = some m → t.focus = ⟨formedTarget s x, .glide, some m⟩) ∧
    ((∀ m : Monitor, o = monitorOut m → s.focus.tile ≠ some m) → t.focus = s.focus) ∧
    (∀ m : Monitor, o = monitorOut m → pointerMonitor s = some m → t.pointer.capture = false) ∧
    (t.focus.target = s.focus.target → targetKept s t ∧
      ((∀ m : Monitor, o = monitorOut m → pointerMonitor s ≠ some m) → t.pointer = s.pointer ∧ t.ports = s.ports) ∧
      ∀ m : Monitor, o = monitorOut m → pointerMonitor s = some m → ∀ n, t.port n =
        if s.pointer.capture = true ∧ s.focus.target = .loc n then carryCleared (s.port n) else s.port n) ∧
    (t.focus.target ≠ s.focus.target → refocused s t) ∧
    t.pointer = { s.pointer with
      capture := t.pointer.capture, glideZone := t.pointer.glideZone, glideFrom := t.pointer.glideFrom } ∧
    t.router.broadcast = s.router.broadcast ∧
    ((∀ m : Monitor, o = monitorOut m → s.focus.tile ≠ some m ∧ pointerMonitor s ≠ some m) →
      t = { s with now := now, crosspointStart := start, outputs := t.outputs, sup := told before }) ∧
    linesFollow s t ∧
    t = { s with
      now := now, crosspointStart := start, outputs := t.outputs, focus := t.focus, pointer := t.pointer
      router := t.router, ports := t.ports, controls := t.controls, keyboard := t.keyboard, lines := t.lines
      links := t.links, sup := told (toldWrite s t before) }
  (∀ s : State, (∀ o, (s.out o).pendingSlot = none) → exec .switchStart s = .next (handedOn s)) ∧
  (∀ (s : State) (now : Nat) (o : OutputId) (x : Target),
    let free (u : Nat) : Prop := ∀ c, s.crosspointStart = some c → c + 2 ≤ u
    let ready (u : Nat) (j : OutputId) : Prop :=
      (s.out j).pendingSlot ≠ none ∧ ∀ v, (s.out j).lastStart = some v → v + (s.out j).restTime ≤ u
    s.now ≤ now → free now → (∀ u, s.now ≤ u → u < now → ¬ (free u ∧ ∃ j, ready u j)) →
    (s.out o).pendingSlot = some x → ready now o → (∀ j, j < o → ¬ ready now j) →
    let started : Output := { s.out o with pendingSlot := none, lastStart := some now }
    (0 < (s.out o).blankLead → ∃ t, exec .switchStart s = .next t ∧
      t.out o = { started with state := .blanking x (now + (s.out o).blankLead) } ∧
      (∀ j, j ≠ o → t.out j = s.out j) ∧
      t = { s with
        now := now, crosspointStart := some now, outputs := t.outputs
        sup := transmitNext (queueNotice .video (outputNotice o (t.out o) false) s.sup) }) ∧
    ((s.out o).blankLead = 0 → ∃ t, exec .switchStart s = .next t ∧
      set s o started x now (some now)
        (queueNotice .video (outputNotice o { started with state := .blanking x now } false) s.sup) t)) ∧
  ∀ (s : State) (o : OutputId),
    ((∀ x e, (s.out o).state ≠ .blanking x e) → exec (.blankEnd o) s = .next (handedOn s)) ∧
    ∀ x e, (s.out o).state = .blanking x e → ∃ t, exec (.blankEnd o) s = .next t ∧
      set s o (s.out o) x (max s.now e) s.crosspointStart s.sup t

/-- In LOCKING, 50 ms of stability give SHOWING and the lock deadline NO_SIGNAL; outside it these events change
nothing. A signal found in the state no signal makes the mode unknown, a measured mode is written, and a lost signal
leaves none; an event that does not change the input state changes nothing. At a change, each output assigned to the
head follows: in LOCKING it is stable from now if the mode is known, in SHOWING a lost signal gives NO_SIGNAL and any
other change LOCKING afresh, and in NO_SIGNAL a signal gives LOCKING. Other outputs and inputs stay; each link whose
outbound session is ACTIVE on the head forms a MODE frame, and no other link changes. Each state entered produces an
OUTPUT notice with the picture then presented, and each mode change a HEAD_MODE notice after those of its outputs,
which come from M1 to O2 (the order is the model's choice, notes/assumptions/35.md); no other notice is placed.
Model's choices: the present time at a lock's end given as a command (4.md), and a measured mode found without signal
as one mode change (25.md). (R101, R110, R111, R115, R145) -/
def Obligations.LocksAndInputsChange : Prop :=
  (∀ (s : State) (o : OutputId),
    (∀ d x, (s.out o).state = .locking d (some x) → ∃ t, exec (.lockStable o) s = .next t ∧
      t.out o = { s.out o with state := .showing } ∧ (∀ j, j ≠ o → t.out j = s.out j) ∧
      t = { s with
        now := max s.now (x + 50), outputs := t.outputs
        sup := transmitNext (queueNotice .video (outputNotice o (t.out o) (presented t o)) s.sup) }) ∧
    ((∀ d x, (s.out o).state ≠ .locking d (some x)) → exec (.lockStable o) s = .next (handedOn s)) ∧
    (∀ d x, (s.out o).state = .locking d x → ∃ t, exec (.lockTimeout o) s = .next t ∧
      t.out o = { s.out o with state := .noSignal } ∧ (∀ j, j ≠ o → t.out j = s.out j) ∧
      t = { s with
        now := max s.now d, outputs := t.outputs
        sup := transmitNext (queueNotice .video (outputNotice o (t.out o) false) s.sup) }) ∧
    ((∀ d x, (s.out o).state ≠ .locking d x) → exec (.lockTimeout o) s = .next (handedOn s))) ∧
  ∀ (s : State) (h : Head) (m : Mode),
    let i : Input := .head h
    let follows (v : InputState) (t : State) : Prop :=
      t.input i = v ∧ (∀ j, j ≠ i → t.input j = s.input j) ∧
      (∀ o, (s.out o).assignment ≠ some i → t.out o = s.out o) ∧
      (∀ o, (s.out o).assignment = some i →
        let stable := match v with | .measured _ => some s.now | _ => none
        let afresh : Output := { s.out o with state := .locking (s.now + (s.out o).lockTimeout) stable }
        (∀ d x, (s.out o).state = .locking d x → t.out o = { s.out o with state := .locking d stable }) ∧
        ((s.out o).state = .showing →
          t.out o = if v = .absent then { s.out o with state := .noSignal } else afresh) ∧
        ((s.out o).state = .noSignal → t.out o = if v = .absent then s.out o else afresh) ∧
        ((s.out o).state = .dark ∨ (∃ x e, (s.out o).state = .blanking x e) → t.out o = s.out o)) ∧
      (∀ k, t.link k =
        if Outbound.activeHead (s.link k).outbound = some h then
          enqueueFrame (.mode (sentMode t h) (effMode s h.comp)) (s.link k)
        else s.link k) ∧
      t = { s with
        inputs := t.inputs, outputs := t.outputs, links := t.links
        sup := transmitNext (toldInput s i v (some (effSize t h)) s.sup) }
    (s.input i = .absent → ∃ t, exec (.signalFound h) s = .next t ∧ follows .unmeasured t) ∧
    (s.input i ≠ .absent → exec (.signalFound h) s = .next (handedOn s)) ∧
    (s.input i ≠ .measured m → ∃ t, exec (.modeMeasured h m) s = .next t ∧ follows (.measured m) t) ∧
    (s.input i = .measured m → exec (.modeMeasured h m) s = .next (handedOn s)) ∧
    (s.input i ≠ .absent → ∃ t, exec (.signalLost h) s = .next t ∧ follows .absent t) ∧
    (s.input i = .absent → exec (.signalLost h) s = .next (handedOn s))

/-- BLANK is answered OK with the source REQUEST, and a BLANK_INPUT line whose filtered level becomes active enters
the asserted set with the source LINE. From CLEAR the unit enters ENGAGED with the source, the focus keeps its target
and tile with origin BLANK, every held key enters the mask, capture ends, and each computer that was a recipient is
released, and a link that was one is sent an empty KEYS frame and a no-button POINTER frame unless the last of its
kind was such; in ENGAGED it adds its source, and from RECOVERING it enters ENGAGED with it alone. A line whose level
becomes inactive leaves the set; when the set has become empty in ENGAGED, LINE leaves the sources, or, where it was
the only one and auto-recover is on, the unit enters RECOVERING for the hold time, or CLEAR for a hold time of 0. A
first inactive level changes no blank state. RESUME is WRONG_STATE while a blank line is asserted and otherwise
answered OK, the unit returning to CLEAR. The hold deadline returns it to CLEAR, and outside RECOVERING a hold expiry
changes nothing. An engagement from CLEAR produces the PORT notices of the releases, a FOCUS notice of a changed
record and then a BLANK notice; every other change of state or source set produces a BLANK notice alone, with its
cause, and an unchanged one none; a LINE notice follows the line's level. The settings stay as they are. While the
unit is not CLEAR, PLACE_POINTER is answered BLANKED for a monitor with a tile; that a monitor without one is answered
WRONG_STATE, and one outside M1 to M4 BAD_ARG, is the model's choice (notes/assumptions/43.md). The present time at an
expiry given as a command (4.md), that a frame discarded by a full send queue counts as sent (36.md), and that a link
is released also under a session mode of 0 × 0 (37.md), are the model's choices. (R44, R55, R119, R120, R121, R122,
R123, R124, R125, R126, R128, R186) -/
def Obligations.BlankEngagesAndResumes : Prop :=
  let engages (src : Sources) (cause : BlankCause) (s base u : State) : Prop :=
    let told (q : Supervisor) : Supervisor := queueNotice .blank (blankNotice u.blank cause) q
    (s.blank.state = .clear →
      u.blank = { base.blank with state := .engaged src } ∧ u.focus = ⟨s.focus.target, .blank, s.focus.tile⟩ ∧
      u.pointer = { s.pointer with capture := false } ∧
      heldMasked s u ∧
      computersReleased
        (fun m =>
          if s.pointer.capture = true ∧ s.focus.target = .loc m then carryCleared (s.port m) else s.port m) s u ∧
      linksReleased s u ∧ u.router.broadcast = s.router.broadcast ∧
      u = { base with
        blank := u.blank, focus := u.focus, pointer := u.pointer, router := u.router, ports := u.ports
        controls := u.controls, links := u.links, sup := told (toldWrite s u base.sup) }) ∧
    (∀ x, s.blank.state = .engaged x →
      let sources : Sources := ⟨x.line || src.line, x.hotkey || src.hotkey, x.request || src.request⟩
      u.blank = { base.blank with state := .engaged sources } ∧
      u = { base with blank := u.blank, sup := if sources = x then base.sup else told base.sup }) ∧
    ∀ d, s.blank.state = .recovering d →
      u.blank = { base.blank with state := .engaged src } ∧
      u = { base with blank := u.blank, sup := told base.sup }
  (∀ (tag : Byte) (s : State),
    (let r : Request := ⟨0x48, tag, []⟩
     takesTurn r s →
     ∃ u, exec (.blank tag []) s = .next (replied r .ok [] u) ∧ engages ⟨false, false, true⟩ .request s (begun r s) u ∧
       ∀ x, s.blank.state = .engaged x → x.request = true → u = begun r s) ∧
    (let r : Request := ⟨0x49, tag, []⟩
     takesTurn r s →
     (s.blank.asserted ≠ [] → exec (.resume tag []) s = .next (replied r .wrongState [] (begun r s))) ∧
     (s.blank.asserted = [] →
       (s.blank.state = .clear → exec (.resume tag []) s = .next (replied r .ok [] (begun r s))) ∧
       (s.blank.state ≠ .clear →
         exec (.resume tag []) s = .next (replied r .ok [] (blankLifted .resume (begun r s)))))) ∧
    (s.blank.state ≠ .clear → ∀ b x1 x0 y1 y0 : Byte,
      let r : Request := ⟨0x21, tag, [b, x1, x0, y1, y0]⟩
      let refused (c : ResultCode) : Prop := exec (.placePointer tag r.body) s = .next (replied r c [] (begun r s))
      takesTurn r s →
      (b = 0 ∨ 4 < b.toNat → refused .badArg) ∧
      ∀ m : Monitor, b.toNat = m.val + 1 →
        ((∃ t ∈ s.layout, t.monitor = m) → refused .blanked) ∧
        ((∀ t ∈ s.layout, t.monitor ≠ m) → refused .wrongState)) ∧
    ((∀ d, s.blank.state ≠ .recovering d) → exec .holdExpiry s = .next (handedOn s)) ∧
    ∀ d, s.blank.state = .recovering d →
      exec .holdExpiry s = .next (handedOn (blankLifted .holdExpired { s with now := max s.now d }))) ∧
  ∀ (l : LineId) (s : State) (level : Bool) (since : Nat),
    let ln := s.line l
    let now := max s.now (since + ln.config.filter)
    ln.config.role = .blankInput → ln.hold = none → ln.candidate = some (level, since) → ln.filtered ≠ some level →
    ∃ u, exec (.lineFilterExpiry l) s =
        .next (handedOn (u.modSup (queueNotice .line (lineNotice l .blankInput level ln.filtered.isNone)))) ∧
      u.line l = { ln with filtered := some level, candidate := none } ∧ (∀ j, j ≠ l → u.line j = s.line j) ∧
      (level = true →
        engages ⟨true, false, false⟩ .lineAsserted s
          { s with now := now, lines := u.lines, blank := { s.blank with asserted :=
            if l ∈ s.blank.asserted then s.blank.asserted else s.blank.asserted ++ [l] } } u) ∧
      (level = false →
        let rest := s.blank.asserted.filter fun j => j != l
        (ln.filtered = none ∨ l ∉ s.blank.asserted → u.blank = s.blank) ∧
        (ln.filtered ≠ none → l ∈ s.blank.asserted →
          u.blank = { s.blank with
            asserted := rest
            state :=
              match rest, s.blank.state with
              | [], .engaged x =>
                if x.hotkey || x.request || !s.blank.autoRecover then .engaged { x with line := false }
                else if s.blank.holdTime = 0 then .clear
                else .recovering (now + s.blank.holdTime)
              | _, x => x }) ∧
        u = { s with
          now := now, lines := u.lines, blank := u.blank
          sup :=
            match rest, s.blank.state with
            | [], .engaged _ =>
              if ln.filtered ≠ none ∧ l ∈ s.blank.asserted then
                queueNotice .blank (blankNotice u.blank .lineReleased) s.sup
              else s.sup
            | _, _ => s.sup }) ∧
      u.blank = (if level = true then assertLine l { s with now := now }
        else if ln.filtered = none then s else releaseLine l { s with now := now }).blank

/-- A link outside 1 to 2 or a flag above 1 is answered BAD_ARG; the flag already held changes nothing. Enabling forms
an ALIVE, the next one due 100 ms later. Disabling a DOWN link clears its flag alone; an UP link goes DOWN in the
order of R138, its sessions NONE, each with its SHARE notice, its viewer control NONE if its inbound session was
ACTIVE, with a CONTROL notice; its claims are removed, each with a CLAIM notice, and each computer it holds returns to
the desk with all that R153 says: the computer released, the holder DESK, held keys masked when a computer joins the
recipients, a CONTROL notice, and then an approved or automatic grant to the other link; a LINK notice comes last; the
lane of an ACTIVE inbound session is ABSENT, its outputs following and its monitors handed DARK, the outbound lane is
handed DARK, a focus on the lane becomes NONE with origin SESSION_END, and no END or other frame is formed on the
link. The order among computers is the model's choice (notes/assumptions/35.md). At the ALIVE timer of an enabled link
an ALIVE is formed and the next is due 100 ms later; a disabled link forms none. A frame formed while none is being
sent is sent; otherwise it joins the send queue while fewer than 32 wait, and is discarded and counted when 32 do.
When the frame being sent has left it is counted as sent and the oldest waiting frame follows. The other link changes
by frames alone, and the tables stay as they are. The present time at the ALIVE timer (4.md), the end of a frame as a
command (14.md), that frames waiting when the link is disabled stay in its send queue (41.md), and that the lights are
checked at a focus change during privacy blank too (45.md), are the model's choices. (R43, R132, R134, R135, R137,
R138, R139, R140, R148, R149, R153, R160) -/
def Obligations.LinkEnabledAndSending : Prop :=
  (∀ (tag b0 b1 : Byte) (s : State),
    let r : Request := ⟨0x50, tag, [b0, b1]⟩
    takesTurn r s →
    ((b0 = 0 ∨ 2 < b0.toNat ∨ 1 < b1.toNat) →
      exec (.setLink tag r.body) s = .next (replied r .badArg [] (begun r s))) ∧
    ∀ k : LinkId, b0.toNat = k.val + 1 →
      (b1.toNat ≤ 1 → (s.link k).enabled = (b1 == 1) →
        exec (.setLink tag r.body) s = .next (replied r .ok [] (begun r s))) ∧
      (b1 = 1 → (s.link k).enabled = false → ∃ u, exec (.setLink tag r.body) s = .next (replied r .ok [] u) ∧
        u.link k =
          { enqueueFrame (.alive (aliveOf s k)) { s.link k with enabled := true } with nextAlive := s.now + 100 } ∧
        (∀ j, j ≠ k → u.link j = s.link j) ∧ u = { begun r s with links := u.links }) ∧
      (b1 = 0 → (s.link k).enabled = true → (s.link k).up = false →
        ∃ u, exec (.setLink tag r.body) s = .next (replied r .ok [] u) ∧
        u.link k = { s.link k with enabled := false } ∧ (∀ j, j ≠ k → u.link j = s.link j) ∧
        u = { begun r s with links := u.links }) ∧
      (b1 = 0 → (s.link k).enabled = true → (s.link k).up = true →
        ∃ u, exec (.setLink tag r.body) s = .next (replied r .ok [] u) ∧
        (u.link k).enabled = false ∧ wentDown s u k ∧
        linkLost k .disabled ((begun r s).modLink k fun l => { l with enabled := false }) u ∧
        u = { begun r s with
          links := u.links, inputs := u.inputs, outputs := u.outputs, focus := u.focus, pointer := u.pointer
          router := u.router, ports := u.ports, controls := u.controls, keyboard := u.keyboard, lines := u.lines
          sup := u.sup })) ∧
  (∀ (m : LinkMsg) (l : Link),
    (l.sending = none → enqueueFrame m l = { l with sending := some m }) ∧
    (l.sending ≠ none →
      (l.sendQueue.length < 32 → enqueueFrame m l = { l with sendQueue := l.sendQueue ++ [m] }) ∧
      (32 ≤ l.sendQueue.length → enqueueFrame m l = { l with counters :=
        { l.counters with sendOverflow := min (l.counters.sendOverflow + 1) 4294967295 } }))) ∧
  ∀ (k : LinkId) (s : State),
    ((s.link k).enabled = false → exec (.aliveTimer k) s = .next (handedOn s)) ∧
    ((s.link k).enabled = true → ∃ t, exec (.aliveTimer k) s = .next t ∧
      t.now = max s.now (s.link k).nextAlive ∧
      t.link k = { enqueueFrame (.alive (aliveOf s k)) (s.link k) with nextAlive := t.now + 100 } ∧
      (∀ j, j ≠ k → t.link j = s.link j) ∧
      t = { s with now := t.now, links := t.links, sup := transmitNext s.sup }) ∧
    ((s.link k).sending = none → exec (.linkSendDone k) s = .next (handedOn s)) ∧
    ((s.link k).sending ≠ none → ∃ t, exec (.linkSendDone k) s = .next t ∧
      t.link k = { s.link k with
        sending := (s.link k).sendQueue.head?, sendQueue := (s.link k).sendQueue.tail
        counters := { (s.link k).counters with sent := min ((s.link k).counters.sent + 1) 4294967295 } } ∧
      (∀ j, j ≠ k → t.link j = s.link j) ∧ t = { s with links := t.links, sup := transmitNext s.sup })

/-- OFFER_SHARE is refused LINK_DOWN on a DOWN link, WRONG_STATE with an outbound session, BAD_ARG for a disabled
head, WRONG_STATE under NO_SHARE and ZONE when the peer's zone set lacks the computer's zone, in this order; otherwise
the session is OFFERED, view-only under VIEW_ONLY or without the flag, and an OFFER is formed. ACCEPT_SHARE and
DECLINE_SHARE need an UP link and an offered session: the first forms ACCEPT, makes the session ACTIVE and gives the
lane the offer's mode, the outputs assigned to it following the change, the second forms DECLINE (USER) and makes it
NONE. END_SHARE needs a session on its side that is not NONE (ACTIVE for the inbound one), forms END (OWNER or VIEWER,
USER), and makes it NONE. On the outbound side the lane's output is handed DARK and the peer of an ACTIVE session
holds and claims nothing: its claims are removed, each with a CLAIM notice, and what it holds returns to the desk with
all that R153 says, a CONTROL notice and a grant to the other link included (from C1 to C8, the model's order,
notes/assumptions/35.md). On the inbound side the viewer control is NONE, the lane has no input, each output assigned
to it follows the loss, each monitor that concerned it is handed DARK, and a focus on it becomes NONE with origin
SESSION_END: every held key enters the mask, capture ends, an attached desk keyboard shows no lights, and the TALLY
lines follow (R181). Each change of a session produces a SHARE notice, after the notices of what it ends or changes.
The other link changes by frames alone. Refusals change nothing. That the lights are checked during privacy blank too
is the model's choice (45.md). (R43, R105, R111, R130, R132, R133, R134, R142, R143, R144, R148, R153) -/
def Obligations.SharesByRequest : Prop :=
  (∀ (tag : Byte) (k : LinkId) (h : Head) (allow : Bool) (s : State),
    let r : Request := ⟨0x52, tag, linkByte k ++ headBytes h ++ flag allow⟩
    let c := s.comp h.comp
    let refused (x : ResultCode) : Prop := exec (.offerShare tag r.body) s = .next (replied r x [] (begun r s))
    takesTurn r s →
    ((s.link k).up = false → refused .linkDown) ∧
    ((s.link k).up = true →
      ((s.link k).outbound ≠ .none → refused .wrongState) ∧
      ((s.link k).outbound = .none →
        ((s.headMap h).enabled = false → refused .badArg) ∧
        ((s.headMap h).enabled = true →
          (c.policy = .noShare → refused .wrongState) ∧
          (c.policy ≠ .noShare →
            ((s.link k).peerZones.getLsbD c.zone.val = false → refused .zone) ∧
            ((s.link k).peerZones.getLsbD c.zone.val = true →
              ∃ u, exec (.offerShare tag r.body) s = .next (replied r .accepted [] u) ∧
                u.link k =
                  { enqueueFrame (.offer ⟨h, sentMode s h, effMode s h.comp, c.zone⟩) (s.link k) with
                    outbound := .offered h (c.policy == .viewOnly || !allow) s.now } ∧
                (∀ j, j ≠ k → u.link j = s.link j) ∧
                u = { begun r s with
                  links := u.links
                  sup :=
                    let v : Bool := c.policy == .viewOnly || !allow
                    queueNotice .share (shareOutNotice k (.offered h v s.now) h v .offered) (begun r s).sup })))))) ∧
  (∀ (tag b0 b1 b2 b3 : Byte) (s : State),
    (let r : Request := ⟨0x52, tag, [b0, b1, b2, b3]⟩
     takesTurn r s → (b0 = 0 ∨ 2 < b0.toNat ∨ b1 = 0 ∨ 8 < b1.toNat ∨ 1 < b2.toNat ∨ 1 < b3.toNat) →
     exec (.offerShare tag r.body) s = .next (replied r .badArg [] (begun r s))) ∧
    ((b0 = 0 ∨ 2 < b0.toNat) →
      (takesTurn ⟨0x53, tag, [b0]⟩ s →
        exec (.acceptShare tag [b0]) s = .next (replied ⟨0x53, tag, [b0]⟩ .badArg [] (begun ⟨0x53, tag, [b0]⟩ s))) ∧
      (takesTurn ⟨0x54, tag, [b0]⟩ s →
        exec (.declineShare tag [b0]) s = .next (replied ⟨0x54, tag, [b0]⟩ .badArg [] (begun ⟨0x54, tag, [b0]⟩ s)))) ∧
    (takesTurn ⟨0x55, tag, [b0, b1]⟩ s → (b0 = 0 ∨ 2 < b0.toNat ∨ 1 < b1.toNat) →
      exec (.endShare tag [b0, b1]) s =
        .next (replied ⟨0x55, tag, [b0, b1]⟩ .badArg [] (begun ⟨0x55, tag, [b0, b1]⟩ s)))) ∧
  ∀ (tag : Byte) (k : LinkId) (s : State),
    (let r : Request := ⟨0x53, tag, linkByte k⟩
     takesTurn r s →
     ((s.link k).up = false → exec (.acceptShare tag r.body) s = .next (replied r .linkDown [] (begun r s))) ∧
     ((s.link k).up = true →
       ((∀ o d, (s.link k).inbound ≠ .offeredIn o d) →
         exec (.acceptShare tag r.body) s = .next (replied r .wrongState [] (begun r s))) ∧
       ∀ o d, (s.link k).inbound = .offeredIn o d →
         ∃ u, exec (.acceptShare tag r.body) s = .next (replied r .ok [] u) ∧
           u.link k = { enqueueFrame .accept (s.link k) with inbound := .active o } ∧
           (∀ j, j ≠ k → u.link j = s.link j) ∧
           u.input (.lane k) =
             (if o.mode.width = 0 ∧ o.mode.height = 0 then .absent else .measured o.mode) ∧
           (∀ i, i ≠ .lane k → u.input i = s.input i) ∧
           (∀ out, u.out out = inputFollowed s (.lane k) (u.input (.lane k)) out) ∧
           u = { begun r s with
             links := u.links, inputs := u.inputs, outputs := u.outputs
             sup := queueNotice .share (shareInNotice k (.active o) o .accepted)
               (toldInput s (.lane k) (u.input (.lane k)) none (begun r s).sup) })) ∧
    (let r : Request := ⟨0x54, tag, linkByte k⟩
     takesTurn r s →
     ((s.link k).up = false → exec (.declineShare tag r.body) s = .next (replied r .linkDown [] (begun r s))) ∧
     ((s.link k).up = true →
       ((∀ o d, (s.link k).inbound ≠ .offeredIn o d) →
         exec (.declineShare tag r.body) s = .next (replied r .wrongState [] (begun r s))) ∧
       ∀ o d, (s.link k).inbound = .offeredIn o d →
         ∃ u, exec (.declineShare tag r.body) s = .next (replied r .ok [] u) ∧
           u.link k = { enqueueFrame (.decline .user) (s.link k) with inbound := .none } ∧
           (∀ j, j ≠ k → u.link j = s.link j) ∧
           u = { begun r s with
             links := u.links
             sup := queueNotice .share (shareInNotice k .none o (.declined .user)) (begun r s).sup })) ∧
    (let r : Request := ⟨0x55, tag, linkByte k ++ [0]⟩
     takesTurn r s →
     ((s.link k).outbound = .none →
       exec (.endShare tag r.body) s = .next (replied r .wrongState [] (begun r s))) ∧
     ((s.link k).outbound ≠ .none → ∃ u, exec (.endShare tag r.body) s = .next (replied r .ok [] u) ∧
       u.link k = { enqueueFrame (.endSession .owner .user) (s.link k) with outbound := .none } ∧
       (∀ j, j ≠ k → u.link j = { s.link j with
         sending := (u.link j).sending, sendQueue := (u.link j).sendQueue
         counters := { (s.link j).counters with sendOverflow := (u.link j).counters.sendOverflow } }) ∧
       u.out (laneOut k) = takeTargetRecord none (s.out (laneOut k)) ∧ (∀ o, o ≠ laneOut k → u.out o = s.out o) ∧
       outboundEnded k (some (.endSession .owner .user)) .ended (begun r s) u ∧
       (∀ h v d, (s.link k).outbound = .offered h v d →
         u = { begun r s with
           links := u.links, outputs := u.outputs
           sup := queueNotice .share (shareOutNotice k .none h v .ended) (begun r s).sup }) ∧
       ((∃ h v, (s.link k).outbound = .active h v) →
         ∀ n, (u.control n).holder ≠ .link k ∧ ∀ c ∈ (u.control n).claims, c.link ≠ k) ∧
       u = { begun r s with
         links := u.links, outputs := u.outputs, controls := u.controls, ports := u.ports, router := u.router
         pointer := { s.pointer with capture := s.pointer.capture && !(match s.focus.target with
           | .loc n => (u.control n).holder != (s.control n).holder && (u.control n).holder != .desk
           | _ => false) }
         sup := u.sup })) ∧
    (let r : Request := ⟨0x55, tag, linkByte k ++ [1]⟩
     takesTurn r s →
     ((∀ o, (s.link k).inbound ≠ .active o) →
       exec (.endShare tag r.body) s = .next (replied r .wrongState [] (begun r s))) ∧
     ∀ o, (s.link k).inbound = .active o → ∃ u, exec (.endShare tag r.body) s = .next (replied r .ok [] u) ∧
       u.link k = { enqueueFrame (.endSession .viewer .user) (s.link k) with inbound := .none, viewer := .none } ∧
       (∀ j, j ≠ k → u.link j = s.link j) ∧ u.input (.lane k) = .absent ∧
       (∀ i, i ≠ .lane k → u.input i = s.input i) ∧ (∀ o, u.out o = laneGone s k o) ∧
       focusLosesLane k s u ∧ inboundEnded k (some (.endSession .viewer .user)) .ended (begun r s) u ∧
       u = { begun r s with
         links := u.links, inputs := u.inputs, outputs := u.outputs, focus := u.focus, router := u.router
         keyboard := u.keyboard, lines := u.lines, pointer := u.pointer, sup := u.sup })

/-- On an enabled UP link a frame is counted as received and stamped. An OFFER with no inbound session is OFFERED_IN
when its zone is in the desk zone set and is answered DECLINE (ZONE) when it is not; with one it is answered DECLINE
(BUSY). An ACCEPT makes an OFFERED session ACTIVE, hands the outbound lane its head and forms a MODE. A DECLINE or an
END marked VIEWER makes the outbound session NONE, hands its lane's output DARK and takes back what the peer of an
ACTIVE session holds and claims, each computer held returning as R153 says (from C1 to C8, the model's order,
notes/assumptions/35.md); an END marked OWNER makes the inbound one NONE and, in ACTIVE, takes the lane, its viewer
control and a focus on it away with a capture, every held key masked and an attached desk keyboard's lights off, its
outputs following the loss and its monitors handed DARK. No frame answers either. Each change of a session, and each
OFFER refused, produces a SHARE notice (the fields of a refused one are the model's choice, 38.md), after the FOCUS,
OUTPUT, HEAD_MODE, CLAIM and CONTROL notices of what it changes. A MODE writes the mode and pointer mode of the
inbound session and, in ACTIVE, the lane's input state, the outputs assigned to it following the change. A frame with
nothing to act on is discarded and counted. On a DOWN link each of these, and each CLAIM, GRANT, DENY, RELEASE,
REVOKE, KEYS and POINTER, is discarded, stamped; on a disabled link discarded, unstamped. A mode with one dimension 0
or a field above 16 bits makes the frame malformed. A frame given as a command stands for a whole valid frame,
received with the receiver left hunting; that is the model's choice (17.md), as is that the lights are checked during
privacy blank too (45.md). (R43, R102, R105, R130, R131, R132, R134, R136, R139, R146, R148, R153) -/
def Obligations.SessionFramesTaken : Prop :=
  ∀ (k : LinkId) (s : State),
    let got : Link := { s.link k with
      receiver := [], counters := { (s.link k).counters with
        received := min ((s.link k).counters.received + 1) 4294967295 } }
    let lost (l : Link) : Link := { l with counters := { l.counters with
      discarded := min ((s.link k).counters.discarded + 1) 4294967295 } }
    let l : Link := { got with lastValid := some s.now }
    let onlyLink (x : Link) (q : Supervisor) (t : State) : Prop :=
      t.link k = x ∧ (∀ j, j ≠ k → t.link j = s.link j) ∧ t = { s with links := t.links, sup := transmitNext q }
    let share (f : SupFrame) : Supervisor := queueNotice .share f s.sup
    let outboundEnds (cause : ShareCause) (t : State) : Prop :=
      (∃ u, outboundEnded k none cause (s.modLink k fun _ => l) u ∧ t = handedOn u) ∧
      t.link k = { l with outbound := .none } ∧
      (∀ j, j ≠ k → t.link j = { s.link j with
        sending := (t.link j).sending, sendQueue := (t.link j).sendQueue
        counters := { (s.link j).counters with sendOverflow := (t.link j).counters.sendOverflow } }) ∧
      t.out (laneOut k) = takeTargetRecord none (s.out (laneOut k)) ∧ (∀ o, o ≠ laneOut k → t.out o = s.out o) ∧
      ((∃ h v, (s.link k).outbound = .active h v) →
        ∀ n, (t.control n).holder ≠ .link k ∧ ∀ c ∈ (t.control n).claims, c.link ≠ k) ∧
      (∀ h v d, (s.link k).outbound = .offered h v d →
        t = { s with
          links := t.links, outputs := t.outputs, sup := transmitNext (share (shareOutNotice k .none h v cause)) }) ∧
      t = { s with
        links := t.links, outputs := t.outputs, controls := t.controls, ports := t.ports, router := t.router
        pointer := { s.pointer with capture := s.pointer.capture && !(match s.focus.target with
          | .loc n => (t.control n).holder != (s.control n).holder && (t.control n).holder != .desk
          | _ => false) }
        sup := t.sup }
    let anyFrame (c : Instr) : Prop :=
      (∃ o, c = .offer k o ∧ Mode.sendable o.mode = true) ∨ c = .accept k ∨ (∃ r, c = .decline k r) ∨
        (∃ d r, c = .endSession k d r) ∨ (∃ m p, c = .mode k m p ∧ Mode.sendable m = true) ∨
        (∃ kind, c = .claim k kind) ∨ c = .grant k ∨ (∃ r, c = .deny k r) ∨ c = .release k ∨ c = .revoke k ∨
        (∃ ks, c = .keys k ks ∧ KeyState.sendable ks = true) ∨
        ∃ f, c = .pointer k f ∧ PointerFrame.sendable f = true
    (∀ c, anyFrame c →
      ((s.link k).enabled = false → ∃ t, exec c s = .next t ∧ onlyLink (lost got) s.sup t) ∧
      ((s.link k).enabled = true → (s.link k).up = false → ∃ t, exec c s = .next t ∧ onlyLink (lost l) s.sup t)) ∧
    (∀ c, (∃ o, c = .offer k o ∧ Mode.sendable o.mode = false) ∨ (∃ m p, c = .mode k m p ∧ Mode.sendable m = false) →
      ∃ t, exec c s = .next t ∧ onlyLink { s.link k with
        receiver := [], counters := { (s.link k).counters with
          malformed := min ((s.link k).counters.malformed + 1) 4294967295 } } s.sup t) ∧
    ((s.link k).enabled = true → (s.link k).up = true →
      (∀ o, Mode.sendable o.mode = true → ∃ t, exec (.offer k o) s = .next t ∧
        if (s.link k).inbound ≠ .none then
          onlyLink (enqueueFrame (.decline .busy) l)
            (share (shareInNotice k (s.link k).inbound o (.offerRefused .busy))) t
        else if s.desk.zones.getLsbD o.zone.val then
          onlyLink { l with inbound := .offeredIn o s.now }
            (share (shareInNotice k (.offeredIn o s.now) o .offerReceived)) t
        else
          onlyLink (enqueueFrame (.decline .zone) l) (share (shareInNotice k .none o (.offerRefused .zone))) t) ∧
      (∀ h v d, (s.link k).outbound = .offered h v d → ∃ t, exec (.accept k) s = .next t ∧
        t.link k = { enqueueFrame (.mode (sentMode s h) (effMode s h.comp)) l with outbound := .active h v } ∧
        (∀ j, j ≠ k → t.link j = s.link j) ∧
        t.out (laneOut k) = takeTargetRecord (some (.head h)) (s.out (laneOut k)) ∧
        (∀ o, o ≠ laneOut k → t.out o = s.out o) ∧
        t = { s with
          links := t.links, outputs := t.outputs
          sup := transmitNext (share (shareOutNotice k (.active h v) h v .accepted)) }) ∧
      ((∀ h v d, (s.link k).outbound ≠ .offered h v d) →
        ∃ t, exec (.accept k) s = .next t ∧ onlyLink (lost l) s.sup t) ∧
      (∀ r, (s.link k).outbound = .none → ∃ t, exec (.decline k r) s = .next t ∧ onlyLink (lost l) s.sup t) ∧
      (∀ r, (s.link k).outbound ≠ .none → ∃ t, exec (.decline k r) s = .next t ∧
        outboundEnds (.declined r) t) ∧
      (∀ r, (s.link k).outbound = .none → ∃ t, exec (.endSession k .viewer r) s = .next t ∧ onlyLink (lost l) s.sup t) ∧
      (∀ r, (s.link k).outbound ≠ .none → ∃ t, exec (.endSession k .viewer r) s = .next t ∧
        outboundEnds (.endReceived r) t) ∧
      (∀ r, (s.link k).inbound = .none → ∃ t, exec (.endSession k .owner r) s = .next t ∧ onlyLink (lost l) s.sup t) ∧
      (∀ r o d, (s.link k).inbound = .offeredIn o d → ∃ t, exec (.endSession k .owner r) s = .next t ∧
        onlyLink { l with inbound := .none } (share (shareInNotice k .none o (.endReceived r))) t) ∧
      (∀ r, (∃ o, (s.link k).inbound = .active o) → ∃ t, exec (.endSession k .owner r) s = .next t ∧
        t.link k = { l with inbound := .none, viewer := .none } ∧ (∀ j, j ≠ k → t.link j = s.link j) ∧
        t.input (.lane k) = .absent ∧ (∀ i, i ≠ .lane k → t.input i = s.input i) ∧
        (∀ o, t.out o = laneGone s k o) ∧
        focusLosesLane k s t ∧
        (∃ u, inboundEnded k none (.endReceived r) (s.modLink k fun _ => l) u ∧ t = handedOn u) ∧
        t = { s with
          links := t.links, inputs := t.inputs, outputs := t.outputs, focus := t.focus, router := t.router
          keyboard := t.keyboard, lines := t.lines, pointer := t.pointer, sup := t.sup }) ∧
      (∀ m p, Mode.sendable m = true →
        ((s.link k).inbound = .none → ∃ t, exec (.mode k m p) s = .next t ∧ onlyLink (lost l) s.sup t) ∧
        (∀ o d, (s.link k).inbound = .offeredIn o d → ∃ t, exec (.mode k m p) s = .next t ∧
          onlyLink { l with inbound := .offeredIn { o with mode := m, pointerMode := p } d } s.sup t) ∧
        (∀ o, (s.link k).inbound = .active o → ∃ t, exec (.mode k m p) s = .next t ∧
          t.link k = { l with inbound := .active { o with mode := m, pointerMode := p } } ∧
          (∀ j, j ≠ k → t.link j = s.link j) ∧
          t.input (.lane k) = (if m.width = 0 ∧ m.height = 0 then .absent else .measured m) ∧
          (∀ i, i ≠ .lane k → t.input i = s.input i) ∧
          (∀ out, t.out out = inputFollowed s (.lane k) (t.input (.lane k)) out) ∧
          t.pointer = { s.pointer with
            capture := s.pointer.capture && !(p == .absolute && s.focus.target == .rem k) } ∧
          t = { s with
            links := t.links, inputs := t.inputs, outputs := t.outputs, pointer := t.pointer
            sup := transmitNext (toldInput s (.lane k) (t.input (.lane k)) none s.sup) })))

/-- 500 ms after the last valid frame of an enabled UP link the link is DOWN with its peer zone set empty, its
sessions NONE, and no computer held or claimed by it, its claims removed and what it holds returned to the desk as
R153 and R160 say, with the SHARE, CLAIM and CONTROL notices of each change and a LINK notice last, in the order of
R138 (among computers from C1 to C8, the model's choice, notes/assumptions/35.md); the lane of an ACTIVE inbound
session is ABSENT, its outputs following and its monitors handed DARK, the outbound lane is handed DARK, a focus on
the lane becomes NONE with origin SESSION_END, and no END or other frame is formed on the link. 15000 ms after its
offer time an OFFERED session is NONE, END (OWNER, TIMEOUT) is formed and the outbound lane is handed DARK; an
OFFERED_IN session is NONE and DECLINE (TIMEOUT) is formed; a SHARE notice follows each. With no such time running
these events change nothing. The present time at such an expiry, and that it changes nothing when no such time is
running, are the model's choices (4.md), as are that the frames being sent and waiting on a link that goes DOWN stay
(41.md), and that the lights are checked at a focus change during privacy blank too (45.md). (R43, R129, R130, R132,
R134, R137, R138, R148, R149, R153, R160) -/
def Obligations.SilenceAndOfferTimeouts : Prop :=
  ∀ (k : LinkId) (s : State),
    (∀ v, (s.link k).enabled = true → (s.link k).up = true → (s.link k).lastValid = some v →
      ∃ t, exec (.linkSilence k) s = .next t ∧ t.now = max s.now (v + 500) ∧
        (t.link k).enabled = true ∧ wentDown s t k ∧
        (∃ u, linkLost k .silence { s with now := max s.now (v + 500) } u ∧ t = handedOn u) ∧
        t = { s with
          now := t.now, links := t.links, inputs := t.inputs, outputs := t.outputs, focus := t.focus
          pointer := t.pointer, router := t.router, ports := t.ports, controls := t.controls, keyboard := t.keyboard
          lines := t.lines, sup := t.sup }) ∧
    (((s.link k).enabled = false ∨ (s.link k).up = false ∨ (s.link k).lastValid = none) →
      exec (.linkSilence k) s = .next (handedOn s)) ∧
    (∀ h v d, (s.link k).outbound = .offered h v d → ∃ t, exec (.outboundOfferTimeout k) s = .next t ∧
      t.link k = { enqueueFrame (.endSession .owner .timeout) (s.link k) with outbound := .none } ∧
      (∀ j, j ≠ k → t.link j = s.link j) ∧
      t.out (laneOut k) = takeTargetRecord none (s.out (laneOut k)) ∧ (∀ o, o ≠ laneOut k → t.out o = s.out o) ∧
      t = { s with
        now := max s.now (d + 15000), links := t.links, outputs := t.outputs
        sup := transmitNext (queueNotice .share (shareOutNotice k .none h v .timeout) s.sup) }) ∧
    ((∀ h v d, (s.link k).outbound ≠ .offered h v d) →
      exec (.outboundOfferTimeout k) s = .next (handedOn s)) ∧
    (∀ o d, (s.link k).inbound = .offeredIn o d → ∃ t, exec (.inboundOfferTimeout k) s = .next t ∧
      t.link k = { enqueueFrame (.decline .timeout) (s.link k) with inbound := .none } ∧
      (∀ j, j ≠ k → t.link j = s.link j) ∧
      t = { s with
        now := max s.now (d + 15000), links := t.links
        sup := transmitNext (queueNotice .share (shareInNotice k .none o .timeout) s.sup) }) ∧
    ((∀ o d, (s.link k).inbound ≠ .offeredIn o d) → exec (.inboundOfferTimeout k) s = .next (handedOn s))

/-- On an enabled link a valid ALIVE is counted and stamped, brings the link UP, and its five fields become the
peer's. An inbound session ends when the peer reports none outbound, an ACTIVE outbound one when the peer reports none
inbound, and an OFFERED one becomes ACTIVE when the peer reports it ACTIVE. Viewer control HELD becomes NONE without
the control-to-you flag, REQUESTED becomes HELD with it, and it is NONE when an ACTIVE inbound session has ended. An
ACTIVE inbound session that ends makes its lane ABSENT, its outputs following and its monitors handed DARK, and a
focus on it NONE with origin SESSION_END, an attached desk keyboard's lights off; an outbound one that ends hands its
lane's output DARK and gives up what the link holds and claims, and one that becomes ACTIVE hands the output its head.
A focus on a lane that loses control keeps its target and loses its capture; under one that becomes HELD with privacy
blank CLEAR every held key enters the mask, and the last frames sent are reset. A computer that the link holds and
whose session stands returns from the link, as R153 says, when the peer's viewer control is NONE. The nine rows are
judged in their order, each change with the notices of its rule, and a LINK notice comes last when the link was DOWN.
A session that the peer alone holds ACTIVE is answered END (VIEWER, PEER_ENDED), a control-to-you flag with the viewer
control NONE is answered RELEASE, and a session that has become ACTIVE sends its MODE, in this order. The other blocks
stay. On a disabled link the frame is counted and discarded and the other link stays, and one with an empty zone set
is counted as malformed on any link. Model's choices: a frame given as a command is whole and valid, the receiver left
hunting (notes/assumptions/17.md), the order among computers (35.md), and that the lights are checked during privacy
blank (45.md). (R43, R56, R131, R132, R134, R136, R137, R138, R140, R141, R149, R153) -/
def Obligations.AliveReconciles : Prop :=
  (∀ (k : LinkId) (a : Alive) (s : State), a.zones = 0 → ∃ t, exec (.alive k a) s = .next t ∧
    t.link k = { s.link k with
      receiver := []
      counters := { (s.link k).counters with malformed := min ((s.link k).counters.malformed + 1) 4294967295 } } ∧
    (∀ j, j ≠ k → t.link j = s.link j) ∧ t = { s with links := t.links, sup := transmitNext s.sup }) ∧
  ∀ (k : LinkId) (a : Alive) (s : State), a.zones ≠ 0 →
    ((s.link k).enabled = false → ∃ t, exec (.alive k a) s = .next t ∧
      t.link k = { s.link k with
        receiver := []
        counters := { (s.link k).counters with
          received := min ((s.link k).counters.received + 1) 4294967295
          discarded := min ((s.link k).counters.discarded + 1) 4294967295 } } ∧
      (∀ j, j ≠ k → t.link j = s.link j) ∧ t = { s with links := t.links, sup := transmitNext s.sup }) ∧
    ((s.link k).enabled = true → ∃ t, exec (.alive k a) s = .next t ∧
      (let learnt : State := s.modLink k fun l => { l with
         receiver := [], up := true, lastValid := some s.now, peerZones := a.zones
         peerOutbound := some a.outbound, peerControlToYou := some a.controlToYou
         peerInbound := some a.inbound, peerViewer := some a.viewer
         counters := { l.counters with received := min (l.counters.received + 1) 4294967295 } }
       ∃ u, reconciled k a learnt u ∧ t = handedOn (if (s.link k).up then u else
         u.modSup (queueNotice .link (linkNotice k true .aliveReceived (some a.zones))))) ∧
      (t.link k).up = true ∧ (t.link k).lastValid = some s.now ∧ (t.link k).peerZones = a.zones ∧
      (t.link k).peerOutbound = some a.outbound ∧ (t.link k).peerControlToYou = some a.controlToYou ∧
      (t.link k).peerInbound = some a.inbound ∧ (t.link k).peerViewer = some a.viewer ∧
      (t.link k).inbound = (if a.outbound = .none then .none else (s.link k).inbound) ∧
      (t.link k).outbound =
        (match (s.link k).outbound, a.inbound with
        | .offered h v _, .active => .active h v
        | .active _ _, .none => .none
        | o, _ => o) ∧
      (t.link k).viewer =
        (let v : ViewerControl :=
          match (s.link k).inbound, a.outbound with
          | .active _, .none => .none
          | _, _ => (s.link k).viewer
         if v = .held ∧ a.controlToYou = false then .none
         else if v = .requested ∧ a.controlToYou = true then .held
         else v) ∧
      (t.link k).receiver = [] ∧
      (t.link k).counters.received = min ((s.link k).counters.received + 1) 4294967295 ∧
      (a.viewer ≠ .none ∨ (∀ n, (s.control n).holder ≠ .link k) →
        let l0 : Link := { s.link k with
          receiver := [], up := true, lastValid := some s.now, peerZones := a.zones
          peerOutbound := some a.outbound, peerControlToYou := some a.controlToYou
          peerInbound := some a.inbound, peerViewer := some a.viewer
          counters := { (s.link k).counters with
            received := min ((s.link k).counters.received + 1) 4294967295 } }
        let l1 :=
          if (s.link k).inbound = .none ∧ a.outbound = .active then
            enqueueFrame (.endSession .viewer .peerEnded) l0
          else l0
        let ended : Bool := match (s.link k).inbound, a.outbound with
          | .active _, .none => true
          | _, _ => false
        let l2 :=
          if ((s.link k).viewer = .none ∨ ended = true) ∧ a.controlToYou = true then enqueueFrame .release l1 else l1
        let l3 := match (s.link k).outbound, a.inbound with
          | .offered h _ _, .active => enqueueFrame (.mode (sentMode s h) (effMode s h.comp)) l2
          | _, _ => l2
        t.link k = { l3 with
          inbound := (t.link k).inbound, outbound := (t.link k).outbound, viewer := (t.link k).viewer }) ∧
      (∀ j, j ≠ k → t.link j = { s.link j with
        sending := (t.link j).sending, sendQueue := (t.link j).sendQueue
        counters := { (s.link j).counters with sendOverflow := (t.link j).counters.sendOverflow } }) ∧
      (∀ h v, (s.link k).outbound = .active h v → a.inbound ≠ .none → a.viewer = .none →
        (∀ c ∈ (s.control h.comp).claims, c.link ≠ k) → (t.control h.comp).holder ≠ .link k) ∧
      (let gone : Bool := (activeOffer s k).isSome && a.outbound == .none
       let lost : Bool := (s.link k).viewer == .held && !a.controlToYou
       let gained : Bool := (s.link k).viewer != .held && (t.link k).viewer == .held
       let masked : Bool := s.focus.target == .rem k && (gone || (gained && s.blank.state == .clear))
       t.input (.lane k) = (if gone then .absent else s.input (.lane k)) ∧
       (∀ i, i ≠ .lane k → t.input i = s.input i) ∧
       (∀ o,
         let p : Output := if gone then laneGone s k o else s.out o
         t.out o =
           if o = laneOut k then
             match (s.link k).outbound, a.inbound with
             | .offered h _ _, .active => takeTargetRecord (some (.head h)) p
             | .active _ _, .none => takeTargetRecord none p
             | _, _ => p
           else p) ∧
       t.focus = (if gone = true ∧ s.focus.target = .rem k then ⟨.none, .sessionEnd, s.focus.tile⟩ else s.focus) ∧
       linesFollow s t ∧
       t.keyboard =
         (if gone && s.focus.target == .rem k && s.keyboard.attached then
           { s.keyboard with lightsSent := some ⟨false, false, false⟩ }
         else s.keyboard) ∧
       t.pointer = { s.pointer with capture := t.pointer.capture } ∧
       (s.focus.target = .rem k → t.pointer.capture = (s.pointer.capture && !(gone || lost))) ∧
       (masked = true → heldMasked s t) ∧
       ((∃ m, isRecipient t m = true ∧ isRecipient s m = false) → heldMasked s t) ∧
       (masked = false → (∀ n, (s.control n).holder ≠ .link k) → t.router.mask = s.router.mask) ∧
       t.linkKeys k = (if gained then ⟨0, []⟩ else s.linkKeys k) ∧
       t.linkPointer k = (if gained then none else s.linkPointer k) ∧
       (∀ j, j ≠ k → t.linkKeys j = s.linkKeys j ∧ t.linkPointer j = s.linkPointer j) ∧
       (∀ h v, (s.link k).outbound = .active h v → a.inbound = .none →
         ∀ n, (t.control n).holder ≠ .link k ∧ ∀ c ∈ (t.control n).claims, c.link ≠ k)) ∧
      t = { s with
        links := t.links, inputs := t.inputs, outputs := t.outputs, focus := t.focus, pointer := t.pointer
        router := t.router, ports := t.ports, controls := t.controls, keyboard := t.keyboard, lines := t.lines
        sup := t.sup })

/-- While a link's receiver is hunting, the bytes of any frame whose fields lie in their ranges, behind any bytes other
than 0x3C, are taken as that frame, with the receiver hunting again. A frame without a marker inside it whose CRC
does not match adds one to the CRC errors and a well-formed frame that parses as none of R198 adds one to the
malformed frames, each with nothing else changed; so does a length byte above 64 with no marker among the bytes that
follow. That bytes given as LINK_FRAME_DAMAGED are read as any bytes are, a valid frame among them being taken, is
the model's choice (notes/assumptions/17.md). (R136, R197, R198) -/
def Obligations.LinkFramesFoundAmongBytes : Prop :=
  ∀ (k : LinkId) (noise : List Byte) (s : State), (∀ b ∈ noise, b ≠ 0x3C) → (s.link k).receiver = [] →
    (∀ m : LinkMsg, LinkMsg.sendable m = true →
      exec (.linkFrameDamaged k (noise ++ linkWire (LinkMsg.kind m) (LinkMsg.body m))) s =
        .next (handedOn ((frameIn k m s).modLink k fun l => { l with receiver := [] }))) ∧
    (∀ (kind len : Byte) (more : List Byte), 64 < len.toNat → (∀ b ∈ kind :: len :: more, b ≠ 0x3C) →
      ∃ t, exec (.linkFrameDamaged k (noise ++ 0x3C :: kind :: len :: more)) s = .next t ∧
        t.link k = { s.link k with counters := { (s.link k).counters with
          malformed := min ((s.link k).counters.malformed + 1) 4294967295 } } ∧
        (∀ j, j ≠ k → t.link j = s.link j) ∧ t = { s with links := t.links, sup := transmitNext s.sup }) ∧
    ∀ (kind c1 c0 : Byte) (body : List Byte), body.length ≤ 64 →
      let inner := kind :: BitVec.ofNat 8 body.length :: body
      (crcBytes (crc16 inner) ≠ [c1, c0] → (∀ b ∈ inner ++ [c1, c0], b ≠ 0x3C) →
        ∃ t, exec (.linkFrameDamaged k (noise ++ 0x3C :: inner ++ [c1, c0])) s = .next t ∧
          t.link k = { s.link k with counters := { (s.link k).counters with
            crcErrors := min ((s.link k).counters.crcErrors + 1) 4294967295 } } ∧
          (∀ j, j ≠ k → t.link j = s.link j) ∧ t = { s with links := t.links, sup := transmitNext s.sup }) ∧
      (LinkMsg.parse kind body = none →
        ∃ t, exec (.linkFrameDamaged k (noise ++ linkWire kind body)) s = .next t ∧
          t.link k = { s.link k with counters := { (s.link k).counters with
            malformed := min ((s.link k).counters.malformed + 1) 4294967295 } } ∧
          (∀ j, j ≠ k → t.link j = s.link j) ∧ t = { s with links := t.links, sup := transmitNext s.sup })

/-- For every frame of the thirteen kinds whose fields lie in the ranges R198 and R199 give, its body is at most 64 bytes
long and reading its kind and body gives the frame back, every field at every value the encoding admits; and no kind
and body is read as a frame with a field out of its range. (R197, R198, R199) -/
def Obligations.LinkFramesReadBack : Prop :=
  (∀ m : LinkMsg, LinkMsg.sendable m = true →
    (LinkMsg.body m).length ≤ 64 ∧ LinkMsg.parse (LinkMsg.kind m) (LinkMsg.body m) = some m) ∧
  ∀ (kind : Byte) (body : List Byte) (m : LinkMsg), LinkMsg.parse kind body = some m →
    LinkMsg.sendable m = true ∧ LinkMsg.kind m = kind ∧ LinkMsg.body m = body

/-- A byte out of its range is answered BAD_ARG, and a grant or refusal that names no listed claim (link 0 naming the
oldest) NO_ENTRY. GRANT_CONTROL is WRONG_STATE under VIEW_ONLY and NO_SHARE; with the holder DESK the claim's link
becomes holder, its claim leaves the list, the port's carry is cleared, the computer is released, each other computer
that stops being a recipient by it is released too, a capture on it ends, GRANT is formed, and a CONTROL notice
follows the PORT notices of the releases; with a link as holder the claim is approved and the answer ACCEPTED.
REFUSE_CLAIM removes the claim and forms DENY (REFUSED), with a CLAIM notice. TAKE_BACK with the holder DESK changes
nothing; from a link it forms REVOKE, drops the approvals, restarts the quiet timer, releases the computer, clears its
carry and makes the holder DESK, and every held key enters the mask when a computer becomes a recipient by it, a
CONTROL notice following; under the policy AUTO with a quiet time of 0 the oldest claim's link then becomes holder at
once, its claim leaving the list, with all that a grant does and its own CONTROL notice; otherwise the capture flag
stays. The other links, the tables and the rest of the supervisor link stay as they are. Releases go from C1 to C8,
the model's order (notes/assumptions/35.md). (R28, R49, R55, R75, R152, R153, R155, R156, R157, R159, R164) -/
def Obligations.OwnerControlByRequest : Prop :=
  ∀ (tag b0 b1 : Byte) (s : State),
    let g : Request := ⟨0x58, tag, [b0, b1]⟩
    let f : Request := ⟨0x59, tag, [b0, b1]⟩
    let b : Request := ⟨0x5A, tag, [b0]⟩
    ((b0 = 0 ∨ 8 < b0.toNat ∨ 2 < b1.toNat) →
      (takesTurn g s → exec (.grantControl tag g.body) s = .next (replied g .badArg [] (begun g s))) ∧
      (takesTurn f s → exec (.refuseClaim tag f.body) s = .next (replied f .badArg [] (begun f s)))) ∧
    ((b0 = 0 ∨ 8 < b0.toNat) → takesTurn b s →
      exec (.takeBack tag b.body) s = .next (replied b .badArg [] (begun b s))) ∧
    ∀ n : Comp, b0.toNat = n.val + 1 →
      let names (c : Claim) : Prop :=
        (b1 = 0 ∧ (s.control n).claims.head? = some c) ∨
          ((s.control n).claims.find? (fun d => BitVec.ofNat 8 (d.link.val + 1) == b1) = some c ∧ b1 ≠ 0)
      let without (k : LinkId) : List Claim := (s.control n).claims.filter fun d => d.link != k
      let grantable : Prop := (s.comp n).policy = .ask ∨ (s.comp n).policy = .auto
      (b1.toNat ≤ 2 → (∀ c, ¬ names c) →
        (takesTurn g s → exec (.grantControl tag g.body) s = .next (replied g .noEntry [] (begun g s))) ∧
        (takesTurn f s → exec (.refuseClaim tag f.body) s = .next (replied f .noEntry [] (begun f s)))) ∧
      (∀ c, names c → takesTurn g s →
        (¬ grantable → exec (.grantControl tag g.body) s = .next (replied g .wrongState [] (begun g s))) ∧
        (grantable → (s.control n).holder = .desk →
          ∃ u, exec (.grantControl tag g.body) s = .next (replied g .ok [] u) ∧
            grantMade n c.link .granted (begun g s) u) ∧
        (grantable → (s.control n).holder ≠ .desk →
          ∃ u, exec (.grantControl tag g.body) s = .next (replied g .accepted [] u) ∧
            u.control n = { s.control n with
              claims :=
                (s.control n).claims.map fun d => if d.link = c.link then { d with approved := true } else d } ∧
            (∀ m, m ≠ n → u.control m = s.control m) ∧ u = { begun g s with controls := u.controls })) ∧
      (∀ c, names c → takesTurn f s →
        ∃ u, exec (.refuseClaim tag f.body) s = .next (replied f .ok [] u) ∧
          u.control n = { s.control n with claims := without c.link } ∧
          (∀ m, m ≠ n → u.control m = s.control m) ∧
          u.link c.link = enqueueFrame (.deny .refused) (s.link c.link) ∧
          (∀ j, j ≠ c.link → u.link j = s.link j) ∧
          u = { begun f s with
            controls := u.controls, links := u.links
            sup := queueNotice .share (claimNotice (compByte n) c.link .refused (without c.link)) (begun f s).sup }) ∧
      (takesTurn b s →
        ((s.control n).holder = .desk → exec (.takeBack tag b.body) s = .next (replied b .ok [] (begun b s))) ∧
        ∀ k, (s.control n).holder = .link k →
          let next : Option LinkId :=
            if (s.comp n).policy = .auto ∧ (s.comp n).quietTime = 0 then (s.control n).claims.head?.map Claim.link
            else none
          ∃ u, exec (.takeBack tag b.body) s = .next (replied b .ok [] u) ∧
            controlReturned n k .takeBack
              (((begun b s).modControl n fun x => { x with
                claims := x.claims.map fun d => { d with approved := false }, lastDesk := some s.now }).modLink k
                  (enqueueFrame .revoke)) u ∧
            u.control n =
              { holder := match next with | some j => .link j | none => .desk
                claims := ((s.control n).claims.map fun d => { d with approved := false }).filter fun d =>
                  some d.link != next
                lastDesk := some s.now, remoteKeys := ⟨0, []⟩, remoteButtons := 0 } ∧
            holderChanged n (s.modControl n fun x => { x with holder := .desk }) s u ∧
            (∀ j,
              let l := if j = k then enqueueFrame .revoke (s.link j) else s.link j
              u.link j = if next = some j then enqueueFrame .grant l else l) ∧
            u = { begun b s with
              pointer := { s.pointer with capture := s.pointer.capture && !(next.isSome && s.focus.target == .loc n) }
              controls := u.controls, ports := u.ports, router := u.router, links := u.links, sup := u.sup })

/-- CLAIM_CONTROL on a DOWN link is LINK_DOWN, without an ACTIVE inbound session or in a state other than NONE
WRONG_STATE; otherwise ACCEPTED, with CLAIM formed and the state REQUESTED. RELEASE_CONTROL is LINK_DOWN, or
WRONG_STATE in NONE; otherwise OK, with RELEASE formed and the state NONE. On an enabled UP link a GRANT in REQUESTED
makes the state HELD, with the last frames sent reset and, with the focus on the lane and privacy blank CLEAR, every
held key masked, the mask staying otherwise, and nothing else of the router or of the other link's last frames
changing; in NONE it is answered RELEASE, and in HELD nothing follows. A DENY ends REQUESTED and a REVOKE ends HELD;
in any other state each is discarded. Leaving or missing HELD ends a capture on the lane. Each change of the state
produces a CONTROL notice and nothing else of the supervisor link changes. No other link and no table changes. A frame
given as a command stands for a whole valid frame, received with the receiver left hunting; that is the model's choice
(notes/assumptions/17.md). (R28, R49, R56, R161, R164) -/
def Obligations.ViewerControlMoves : Prop :=
  ∀ (k : LinkId) (s : State),
    let ends : DeskPointer :=
      if s.focus.target = .rem k then { s.pointer with capture := false } else s.pointer
    let moved (base u : State) (l : Link) (p : DeskPointer) (q : Supervisor) : Prop :=
      u.link k = l ∧ (∀ j, j ≠ k → u.link j = s.link j) ∧
      u = { base with links := u.links, pointer := p, sup := q }
    let told (v : ViewerControl) (c : ViewerCause) (q : Supervisor) : Supervisor :=
      queueNotice .share (viewerNotice k v c) q
    (∀ (tag : Byte) (kind : ClaimKind),
      let r : Request := ⟨0x5B, tag, linkByte k ++ claimKindByte kind⟩
      takesTurn r s →
      ((s.link k).up = false → exec (.claimControl tag r.body) s = .next (replied r .linkDown [] (begun r s))) ∧
      ((s.link k).up = true →
        ((∀ o, (s.link k).inbound ≠ .active o) ∨ (s.link k).viewer ≠ .none →
          exec (.claimControl tag r.body) s = .next (replied r .wrongState [] (begun r s))) ∧
        ((∃ o, (s.link k).inbound = .active o) → (s.link k).viewer = .none →
          ∃ u, exec (.claimControl tag r.body) s = .next (replied r .accepted [] u) ∧
            moved (begun r s) u { enqueueFrame (.claim kind) (s.link k) with viewer := .requested } ends
              (told .requested .claimed (begun r s).sup)))) ∧
    (∀ tag : Byte,
      let r : Request := ⟨0x5C, tag, linkByte k⟩
      takesTurn r s →
      ((s.link k).up = false → exec (.releaseControl tag r.body) s = .next (replied r .linkDown [] (begun r s))) ∧
      ((s.link k).up = true →
        ((s.link k).viewer = .none →
          exec (.releaseControl tag r.body) s = .next (replied r .wrongState [] (begun r s))) ∧
        ((s.link k).viewer ≠ .none →
          ∃ u, exec (.releaseControl tag r.body) s = .next (replied r .ok [] u) ∧
            moved (begun r s) u { enqueueFrame .release (s.link k) with viewer := .none } ends
              (told .none .released (begun r s).sup)))) ∧
    (∀ tag b0 b1 : Byte, (b0 = 0 ∨ 2 < b0.toNat ∨ 1 < b1.toNat) →
      (takesTurn ⟨0x5B, tag, [b0, b1]⟩ s → exec (.claimControl tag [b0, b1]) s =
        .next (replied ⟨0x5B, tag, [b0, b1]⟩ .badArg [] (begun ⟨0x5B, tag, [b0, b1]⟩ s))) ∧
      (takesTurn ⟨0x5C, tag, [b0]⟩ s → (b0 = 0 ∨ 2 < b0.toNat) → exec (.releaseControl tag [b0]) s =
        .next (replied ⟨0x5C, tag, [b0]⟩ .badArg [] (begun ⟨0x5C, tag, [b0]⟩ s)))) ∧
    ((s.link k).enabled = true → (s.link k).up = true →
      let l : Link := { s.link k with
        receiver := [], lastValid := some s.now, counters := { (s.link k).counters with
          received := min ((s.link k).counters.received + 1) 4294967295 } }
      let lost : Link := { l with counters := { l.counters with
        discarded := min ((s.link k).counters.discarded + 1) 4294967295 } }
      ((s.link k).viewer = .none → ∃ t, exec (.grant k) s = .next t ∧
        moved s t (enqueueFrame .release l) s.pointer (transmitNext s.sup)) ∧
      ((s.link k).viewer = .held → ∃ t, exec (.grant k) s = .next t ∧
        moved s t l s.pointer (transmitNext s.sup)) ∧
      ((s.link k).viewer = .requested → ∃ t, exec (.grant k) s = .next t ∧
        let joins : Prop := s.focus.target = .rem k ∧ s.blank.state = .clear
        t.link k = { l with viewer := .held } ∧ (∀ j, j ≠ k → t.link j = s.link j) ∧
        t.linkKeys k = ⟨0, []⟩ ∧ t.linkPointer k = none ∧
        (∀ j, j ≠ k → t.linkKeys j = s.linkKeys j ∧ t.linkPointer j = s.linkPointer j) ∧
        (joins → heldMasked s t) ∧ (¬ joins → t.router.mask = s.router.mask) ∧
        t = { s with
          links := t.links
          router := { s.router with
            mask := t.router.mask, linkKeys := t.router.linkKeys, linkPointer := t.router.linkPointer }
          sup := transmitNext (told .held .granted s.sup) }) ∧
      (∀ r, (s.link k).viewer = .requested → ∃ t, exec (.deny k r) s = .next t ∧
        moved s t { l with viewer := .none } ends (transmitNext (told .none (.denied r) s.sup))) ∧
      (∀ r, (s.link k).viewer ≠ .requested → ∃ t, exec (.deny k r) s = .next t ∧
        moved s t lost s.pointer (transmitNext s.sup)) ∧
      ((s.link k).viewer = .held → ∃ t, exec (.revoke k) s = .next t ∧
        moved s t { l with viewer := .none } ends (transmitNext (told .none .revoked s.sup))) ∧
      ((s.link k).viewer ≠ .held → ∃ t, exec (.revoke k) s = .next t ∧
        moved s t lost s.pointer (transmitNext s.sup)))

/-- On an enabled UP link a CLAIM without an ACTIVE outbound session is answered DENY (NO_SESSION), the computer of
its CLAIM notice being that of the offered head, or a free value without a session (notes/assumptions/7.md); then DENY
(VIEW_ONLY) when view-only or the policy grants nothing, DENY (ZONE) when the peer's zone set lacks the computer's
zone, GRANT to the holder, nothing but a discard for a link already listed; with the holder DESK, the policy AUTO and
the quiet time met the link becomes holder, the computer and each other one that stops being a recipient released,
with GRANT formed and a CONTROL notice; else a DIRECT claim is answered DENY (BUSY) and a QUEUED one joins the end of
the list. A RELEASE from the holder makes the holder DESK with the claims kept, the computer released, its carry
cleared, and every held key masked when a computer becomes a recipient by it, after which an approved claim is granted
where the policy allows, or the approvals dropped where it does not, and with none approved the oldest claim is
granted under AUTO with the quiet time met; from a claimant it removes the claim; otherwise it is discarded. When the
quiet time is reached with the holder DESK, the policy AUTO and claims listed, the oldest claim's link becomes holder;
otherwise only the timebase moves. Each grant to a link ends a capture on the computer, and each changes nothing that
R152 does not name. Each DENY and each change of a claim list but by a grant produces a CLAIM notice, each change of
holder a CONTROL notice, and no other notice is placed but the PORT notices of the releases, from C1 to C8 (the
model's order, 35.md). The timebase of that event (4.md), and a frame given as a command being whole and valid with
the receiver left hunting (17.md), are the model's choices. (R28, R49, R55, R75, R150, R152, R153, R154, R155, R158,
R164) -/
def Obligations.OwnerTakesClaims : Prop :=
  (∀ (k : LinkId) (s : State), (s.link k).enabled = true → (s.link k).up = true →
    let l : Link := { s.link k with
      receiver := [], lastValid := some s.now, counters := { (s.link k).counters with
        received := min ((s.link k).counters.received + 1) 4294967295 } }
    let lost : Link := { l with counters := { l.counters with
      discarded := min ((s.link k).counters.discarded + 1) 4294967295 } }
    let onlyLink (x : Link) (q : Supervisor) (t : State) : Prop :=
      t.link k = x ∧ (∀ j, j ≠ k → t.link j = s.link j) ∧ t = { s with links := t.links, sup := transmitNext q }
    let told (computer : List Byte) (c : ClaimCause) (claims : List Claim) : Supervisor :=
      queueNotice .share (claimNotice computer k c claims) s.sup
    (∀ kind,
      ((s.link k).outbound = .none → ∃ t, exec (.claim k kind) s = .next t ∧
        onlyLink (enqueueFrame (.deny .noSession) l)
          (told [Config.noSessionComputer k.val] (.denied .noSession) []) t) ∧
      ∀ h v d, (s.link k).outbound = .offered h v d → ∃ t, exec (.claim k kind) s = .next t ∧
        onlyLink (enqueueFrame (.deny .noSession) l)
          (told (compByte h.comp) (.denied .noSession) (s.control h.comp).claims) t) ∧
    ((∀ h v, (s.link k).outbound ≠ .active h v) → ∃ t, exec (.release k) s = .next t ∧ onlyLink lost s.sup t) ∧
    ∀ h v, (s.link k).outbound = .active h v →
      let n := h.comp
      let open' : Prop := v = false ∧ ((s.comp n).policy = .ask ∨ (s.comp n).policy = .auto)
      let inZone : Prop := (s.link k).peerZones.getLsbD (s.comp n).zone.val = true
      let listed : Prop := ∃ c ∈ (s.control n).claims, c.link = k
      let quiet : Prop :=
        (s.control n).holder = .desk ∧ (s.comp n).policy = .auto ∧
          ∀ d, (s.control n).lastDesk = some d → (s.comp n).quietTime ≤ s.now - d
      let denied (r : DenyReason) (t : State) : Prop :=
        onlyLink (enqueueFrame (.deny r) l) (told (compByte n) (.denied r) (s.control n).claims) t
      (∀ kind,
        (¬ open' → ∃ t, exec (.claim k kind) s = .next t ∧ denied .viewOnly t) ∧
        (open' → ¬ inZone → ∃ t, exec (.claim k kind) s = .next t ∧ denied .zone t) ∧
        (open' → inZone →
          ((s.control n).holder = .link k →
            ∃ t, exec (.claim k kind) s = .next t ∧ onlyLink (enqueueFrame .grant l) s.sup t) ∧
          ((s.control n).holder ≠ .link k → listed → ∃ t, exec (.claim k kind) s = .next t ∧
            onlyLink lost s.sup t) ∧
          ((s.control n).holder ≠ .link k → ¬ listed →
            (quiet → ∃ u, exec (.claim k kind) s = .next (handedOn u) ∧
              grantMade n k .auto (s.modLink k fun _ => l) u) ∧
            (¬ quiet → kind = .direct →
              ∃ t, exec (.claim k kind) s = .next t ∧ denied .busy t) ∧
            (¬ quiet → kind = .queued →
              ∃ t, exec (.claim k kind) s = .next t ∧ t.link k = l ∧ (∀ j, j ≠ k → t.link j = s.link j) ∧
                t.control n = { s.control n with claims := (s.control n).claims ++ [⟨k, s.now, false⟩] } ∧
                (∀ m, m ≠ n → t.control m = s.control m) ∧
                t = { s with
                  links := t.links, controls := t.controls
                  sup := transmitNext
                    (told (compByte n) .queued ((s.control n).claims ++ [⟨k, s.now, false⟩])) })))) ∧
      ((s.control n).holder = .link k →
        let next : Option LinkId :=
          match (s.control n).claims.find? Claim.approved with
          | some c => if (s.comp n).policy = .ask ∨ (s.comp n).policy = .auto then some c.link else none
          | none =>
            if (s.comp n).policy = .auto ∧
                (match (s.control n).lastDesk with
                  | some d => decide ((s.comp n).quietTime ≤ s.now - d)
                  | none => true) = true then
              (s.control n).claims.head?.map Claim.link
            else none
        ∃ t, exec (.release k) s = .next t ∧
          (∃ u, controlReturned n k .release (s.modLink k fun _ => l) u ∧ t = handedOn u) ∧
          (next = none → (t.control n).holder = .desk ∧
            (t.control n).claims = (s.control n).claims.map (fun c => { c with approved := false })) ∧
          (∀ j, next = some j → (t.control n).holder = .link j ∧
            (t.control n).claims = (s.control n).claims.filter fun c => c.link != j) ∧
          (t.control n).remoteKeys = ⟨0, []⟩ ∧ (t.control n).remoteButtons = 0 ∧
          (t.control n).lastDesk = (s.control n).lastDesk ∧
          holderChanged n (s.modControl n fun x => { x with holder := .desk }) s t ∧
          (∀ j,
            let x := if j = k then l else s.link j
            t.link j = if next = some j then enqueueFrame .grant x else x) ∧
          t = { s with
            links := t.links, controls := t.controls, ports := t.ports, router := t.router
            pointer := { s.pointer with capture := s.pointer.capture && !(next.isSome && s.focus.target == .loc n) }
            sup := t.sup }) ∧
      ((s.control n).holder ≠ .link k → listed → ∃ t, exec (.release k) s = .next t ∧ t.link k = l ∧
        t.control n = { s.control n with claims := (s.control n).claims.filter fun c => c.link != k } ∧
        (∀ j, j ≠ k → t.link j = s.link j) ∧ (∀ m, m ≠ n → t.control m = s.control m) ∧
        t = { s with
          links := t.links, controls := t.controls
          sup := transmitNext
            (told (compByte n) .withdrawn ((s.control n).claims.filter fun c => c.link != k)) }) ∧
      ((s.control n).holder ≠ .link k → ¬ listed → ∃ t, exec (.release k) s = .next t ∧ onlyLink lost s.sup t)) ∧
  ∀ (n : Comp) (s : State),
    let now := match (s.control n).lastDesk with
      | some d => max s.now (d + (s.comp n).quietTime)
      | none => s.now
    (∀ c cs, (s.control n).holder = .desk → (s.comp n).policy = .auto → (s.control n).claims = c :: cs →
      ∃ u, exec (.quietTimeReached n) s = .next (handedOn u) ∧ grantMade n c.link .auto { s with now := now } u) ∧
    (((s.control n).holder ≠ .desk ∨ (s.comp n).policy ≠ .auto ∨ (s.control n).claims = []) →
      exec (.quietTimeReached n) s = .next (handedOn { s with now := now }))

/-- On an enabled UP link whose outbound session is ACTIVE on a head of a computer that the link holds, a KEYS frame
becomes the remote key state and is handed to the port shaped to its format, unless it equals the last record queued;
a POINTER frame's buttons become the remote button state and its record is handed to the port: mapped through stages D
and E from the head pixel held within the head's effective size for an ABSOLUTE computer, with clamps counted, as raw
movement for a RELATIVE one, and shaped when the forms differ. The record becomes the last one queued, a replacement
in a full queue is noticed, the quiet timer does not restart, and a DETACHED port takes none. A key or button that was
not held before wakes a SUSPENDED computer whose auto-wake flag is set. From a link that does not hold the computer
the frame is discarded. A field out of its range makes the frame malformed, which counts it, leaves the receiver
hunting and changes nothing else. A frame given as a command stands for a whole valid frame, received with the
receiver left hunting; that is the model's choice (notes/assumptions/17.md). (R37, R51, R52, R61, R69, R75, R136,
R151, R162, R163, R166) -/
def Obligations.RemoteInputDrivesItsComputer : Prop :=
  ∀ (k : LinkId) (s : State),
    (∀ c, ((∃ ks, c = .keys k ks ∧ KeyState.sendable ks = false) ∨
        ∃ f, c = .pointer k f ∧ PointerFrame.sendable f = false) →
      ∃ t, exec c s = .next t ∧
        t.link k = { s.link k with
          receiver := [], counters := { (s.link k).counters with
            malformed := min ((s.link k).counters.malformed + 1) 4294967295 } } ∧
        (∀ j, j ≠ k → t.link j = s.link j) ∧ t = { s with links := t.links, sup := transmitNext s.sup }) ∧
    ((s.link k).enabled = true → (s.link k).up = true →
      let l : Link := { s.link k with
        receiver := [], lastValid := some s.now, counters := { (s.link k).counters with
          received := min ((s.link k).counters.received + 1) 4294967295 } }
      let lost : Link := { l with counters := { l.counters with
        discarded := min ((s.link k).counters.discarded + 1) 4294967295 } }
      (∀ c, ((∃ ks, c = .keys k ks ∧ KeyState.sendable ks = true) ∨
          ∃ f, c = .pointer k f ∧ PointerFrame.sendable f = true) →
        (∀ h v, (s.link k).outbound = .active h v → (s.control h.comp).holder ≠ .link k) →
        ∃ t, exec c s = .next t ∧ t.link k = lost ∧ (∀ j, j ≠ k → t.link j = s.link j) ∧
          t = { s with links := t.links, sup := transmitNext s.sup }) ∧
      ∀ h v, (s.link k).outbound = .active h v → (s.control h.comp).holder = .link k →
        let n := h.comp
        let there : Bool := (s.port n).bus != .detached
        let others (x : Control) (p : Port) (v : State) : Prop :=
          v.control n = x ∧ (∀ m, m ≠ n → v.control m = s.control m) ∧
          v.port n = p ∧ (∀ m, m ≠ n → v.port m = s.port m) ∧
          v.link k = l ∧ ∀ j, j ≠ k → v.link j = s.link j
        let points (f : PointerFrame) (b : Buttons) (r : PointerRecord) (p : Port) : Prop :=
          ∃ v, exec (.pointer k f) s =
              .next (handedOn (woken n (b &&& ~~~(s.control n).remoteButtons != 0) v)) ∧
            others { s.control n with remoteButtons := b } (if there then pushPointer r p else p) v ∧
            v.lastPointer n = (if there then some r else s.lastPointer n) ∧
            (∀ m, m ≠ n → v.lastPointer m = s.lastPointer m) ∧
            v = { s with
              links := v.links, controls := v.controls, ports := v.ports
              router := { s.router with lastPointer := v.router.lastPointer }
              sup := if there then toldPointer n r (s.port n) s.sup else s.sup }
        (∀ ks, KeyState.sendable ks = true →
          let r : KeyRecord :=
            if (s.port n).keyFormat = .full then ⟨.full, ks.mods, ks.keys⟩
            else if ks.keys.length ≤ 6 then ⟨.boot, ks.mods, ks.keys⟩
            else ⟨.rollover, ks.mods, [1, 1, 1, 1, 1, 1]⟩
          let old := (s.control n).remoteKeys
          let queued : Bool := there &&
            match s.lastKey n with
            | some q => !(q.mods == r.mods && q.keys == r.keys)
            | none => !(r.mods == 0 && r.keys == [])
          ∃ v, exec (.keys k ks) s = .next (handedOn
              (woken n (ks.mods &&& ~~~old.mods != 0 || ks.keys.any fun c => !old.keys.contains c) v)) ∧
            others { s.control n with remoteKeys := ks } (if queued then pushKey r (s.port n) else s.port n) v ∧
            v.lastKey n = (if queued then some r else s.lastKey n) ∧ (∀ m, m ≠ n → v.lastKey m = s.lastKey m) ∧
            v = { s with
              links := v.links, controls := v.controls, ports := v.ports
              router := { s.router with lastKey := v.router.lastKey }
              sup := if queued then toldKey n (s.port n) s.sup else s.sup }) ∧
        (∀ b x y w, PointerFrame.sendable (.absolute b x y w) = true →
          let gx := (s.headMap h).ox + min x ((effSize s h).1 - 1)
          let gy := (s.headMap h).oy + min y ((effSize s h).2 - 1)
          let c := s.comp n
          let clamped : Port := { s.port n with counters := { (s.port n).counters with
            desktopClamps := min ((s.port n).counters.desktopClamps +
              ((if c.vw - 1 < gx then 1 else 0) + (if c.vh - 1 < gy then 1 else 0))) 4294967295 } }
          (effMode s n = .absolute → points (.absolute b x y w) b
            (.absolute b (stageE (min gx (c.vw - 1)) c.vw) (stageE (min gy (c.vh - 1)) c.vh) w) clamped) ∧
          (effMode s n = .relative → points (.absolute b x y w) b (.relative b 0 0 w) (s.port n))) ∧
        ∀ b x y w, PointerFrame.sendable (.relative b x y w) = true →
          (effMode s n = .relative → points (.relative b x y w) b (.relative b x y w) (s.port n)) ∧
          (effMode s n = .absolute → points (.relative b x y w) b
            (match s.lastPointer n with
              | some (.absolute _ px py _) => .absolute b px py w
              | _ => .absolute b 16383 16383 w) (s.port n)))

/-- A byte outside 1..8 is answered BAD_ARG. For an ACTIVE computer, and while an attempt is in flight, WAKE is
answered OK and changes nothing. Otherwise it is ACCEPTED: BUS and BOTH signal for 10 ms when the port is SUSPENDED
with the permission on; BUS without that fails with NOT_PERMITTED; LINE, and BOTH without that, raise the WAKE_PULSE
line of the computer for the pulse width, or fail with NO_LINE. After the signalling BOTH waits until 2000 ms from its
start and then pulses, or fails with NO_LINE; every other attempt waits for its deadline. A pulse ends with its line
inactive, in the final wait, or with TIMEOUT at or after the deadline. The deadline ends the final wait with TIMEOUT.
Each failure flushes both queues of the port, counts what they held, empties the carry and the buttons and makes the
computer's last records none; nothing else of the port or of the router changes. Each start, pulse and failure
produces a POWER notice. A stage end that does not apply changes nothing. An auto-wake trigger has the effect of WAKE.
Model's choices: the timebase of a stage end given as a command (notes/assumptions/4.md), and the layout of the reply
and the notice (8.md, 19.md). (R73, R165, R166, R167, R168, R169, R170, R172, R177) -/
def Obligations.WakeAttemptRuns : Prop :=
  ∀ (tag b0 : Byte) (n : Comp) (s : State),
    let r : Request := ⟨0x60, tag, [b0]⟩
    let w : WakeRecord := s.wakeOf n
    let holds (l : LineId) : Prop := (s.line l).config.role = .wakePulse n
    let noLine : Prop := ∀ l, ¬ holds l
    let onlyLine (l : LineId) : Prop := holds l ∧ ∀ j, holds j → j = l
    let signals : Prop := (s.port n).bus = .suspended ∧ (s.port n).remoteWake = true
    let told (c : PowerCause) (a : Attempt) (p : Supervisor) : Supervisor :=
      queueNotice .power (powerNotice n c (s.port n).bus ⟨a, w.powered⟩) p
    let others (u : State) : Prop :=
      (∀ m, m ≠ n → u.wakeOf m = s.wakeOf m ∧ u.port m = s.port m) ∧ (u.wakeOf n).powered = w.powered
    let failed (e : WakeFailure) (x u : State) : Prop :=
      let p : Port := s.port n
      (u.wakeOf n).attempt = .failed e ∧
        u.port n = { p with
          keyQueue := [], pointerQueue := [], cx := 0, cy := 0, buttons := 0
          counters := { p.counters with
            keyFlushed := min (p.counters.keyFlushed + p.keyQueue.length) 4294967295
            pointerFlushed := min (p.counters.pointerFlushed + p.pointerQueue.length) 4294967295 } } ∧
        u.lastKey n = none ∧ u.lastPointer n = none ∧
        (∀ m, m ≠ n → u.lastKey m = s.lastKey m ∧ u.lastPointer m = s.lastPointer m) ∧ others u ∧
        u = { x with
          wake := u.wake, ports := u.ports, lines := u.lines
          router := { s.router with lastKey := u.router.lastKey, lastPointer := u.router.lastPointer }
          sup := told .failed (.failed e) x.sup }
    let pulses (l : LineId) (f : Flight) (c : PowerCause) (x u : State) : Prop :=
      (u.wakeOf n).attempt = .pulse f l (x.now + f.pulseWidth) ∧ u.line l = { s.line l with level := true } ∧
        (∀ j, j ≠ l → u.line j = s.line j) ∧ others u ∧
        u = { x with
          wake := u.wake, lines := u.lines, sup := told c (.pulse f l (x.now + f.pulseWidth)) x.sup }
    let starts (x u : State) : Prop :=
      let c := s.comp n
      let f : Flight := ⟨c.method, s.now, s.now + c.wakeTimeout, c.pulseWidth⟩
      (c.method ≠ .line → signals →
        (u.wakeOf n).attempt = .busSignal f (s.now + 10) ∧ others u ∧
        u = { x with wake := u.wake, sup := told .started (.busSignal f (s.now + 10)) x.sup }) ∧
      (c.method = .bus → ¬ signals → failed .notPermitted x u ∧ u.lines = s.lines) ∧
      (c.method = .line ∨ (c.method = .both ∧ ¬ signals) →
        (∀ l, onlyLine l → pulses l f .started x u) ∧ (noLine → failed .noLine x u ∧ u.lines = s.lines))
    ((b0 = 0 ∨ 8 < b0.toNat) → takesTurn r s →
      exec (.wake tag r.body) s = .next (replied r .badArg [] (begun r s))) ∧
    (b0.toNat = n.val + 1 → takesTurn r s →
      ((s.port n).bus = .active →
        exec (.wake tag r.body) s = .next (replied r .ok (wakeReply (some false) n s) (begun r s))) ∧
      ((s.port n).bus ≠ .active → Attempt.inFlight w.attempt = true →
        exec (.wake tag r.body) s = .next (replied r .ok (wakeReply (some true) n s) (begun r s))) ∧
      ((s.port n).bus ≠ .active → Attempt.inFlight w.attempt = false →
        ∃ u, exec (.wake tag r.body) s = .next (replied r .accepted (wakeReply none n u) u) ∧
          starts (begun r s) u)) ∧
    (((s.port n).bus = .active ∨ Attempt.inFlight w.attempt = true) → (wakeTrigger n s).state = s) ∧
    ((s.port n).bus ≠ .active → Attempt.inFlight w.attempt = false → starts s (wakeTrigger n s).state) ∧
    (∀ f e, w.attempt = .busSignal f e →
      ∃ t, exec (.wakeSignalEnd n) s = .next t ∧ others t ∧
        (t.wakeOf n).attempt =
          (if f.method = .both then .wait f .busStage (f.start + 2000) else .wait f .final f.deadline) ∧
        t = { s with now := max s.now e, wake := t.wake, sup := transmitNext s.sup }) ∧
    (∀ f e, w.attempt = .wait f .busStage e →
      ∃ u, exec (.wakeBusStageEnd n) s = .next (handedOn u) ∧
        (∀ l, onlyLine l → pulses l f .pulse { s with now := max s.now e } u) ∧
        (noLine → failed .noLine { s with now := max s.now e } u ∧ u.lines = s.lines)) ∧
    (∀ f l e, w.attempt = .pulse f l e →
      ∃ u, exec (.wakePulseEnd n) s = .next (handedOn u) ∧
        u.line l = { s.line l with level := false } ∧ (∀ j, j ≠ l → u.line j = s.line j) ∧
        (max s.now e < f.deadline → (u.wakeOf n).attempt = .wait f .final f.deadline ∧ others u ∧
          u = { s with now := max s.now e, wake := u.wake, lines := u.lines }) ∧
        (f.deadline ≤ max s.now e → failed .timeout { s with now := max s.now e } u)) ∧
    (∀ f e, w.attempt = .wait f .final e →
      ∃ u, exec (.wakeDeadline n) s = .next (handedOn u) ∧
        failed .timeout { s with now := max s.now f.deadline } u ∧ u.lines = s.lines) ∧
    ((∀ f e, w.attempt ≠ .busSignal f e) → exec (.wakeSignalEnd n) s = .next (handedOn s)) ∧
    ((∀ f e, w.attempt ≠ .wait f .busStage e) → exec (.wakeBusStageEnd n) s = .next (handedOn s)) ∧
    ((∀ f l e, w.attempt ≠ .pulse f l e) → exec (.wakePulseEnd n) s = .next (handedOn s)) ∧
    ((∀ f e, w.attempt ≠ .wait f .final e) → exec (.wakeDeadline n) s = .next (handedOn s))

/-- SET_LINE with a line or a field out of its values, or a computer role that another line holds for that computer, is
BAD_ARG; at lock level 2 a configuration that differs, its filter clamped, is LOCKED. An equal one ends a hold.
Another one first takes leave of the old role: a blank line is released, power sense makes the powered flag UNKNOWN,
a line trigger counter returns to 0, an attempt in PULSE on the line fails with NO_LINE; it is then written whole,
without hold, the level kept for OUTPUT over OUTPUT, active for TALLY of the focus computer and else inactive.
DRIVE_LINE is BAD_ARG, WRONG_STATE off OUTPUT, or writes the level. A pin carries its hold, an output role's level,
or floats; a floating pin is high under a pull-up unless the wiring drives against it, and else as wired. On an input
role with no hold a level other than the accepted one, or with none accepted, starts a candidate, or under a filter
of 0 is accepted at once; the accepted level coming back clears it. The end of the filter time accepts the candidate:
the role's block takes it (power sense writes the powered flag and leaves the attempt) and a LINE notice follows.
Model's choices: the timebase of that end (notes/assumptions/4.md), the wiring's level and strength (15.md), and no
POWER notice where the flag is UNKNOWN already (42.md). (R95, R123, R172, R174, R176, R178, R179, R180, R181, R182,
R183, R186) -/
def Obligations.LinesConfiguredDrivenAndFiltered : Prop :=
  let sensed (n : Comp) (p : Powered) (v : State) : State :=
    if (v.wakeOf n).powered = p then v
    else notify .power (powerNotice n .powerSense (v.port n).bus ⟨(v.wakeOf n).attempt, p⟩)
      (v.modWake n fun w => { w with powered := p })
  let accepted (l : LineId) (x : Line) (level : Bool) (base : State) : State :=
    let v := base.modLine l fun _ => { x with filtered := some level, candidate := none }
    notify .line (lineNotice l x.config.role level x.filtered.isNone)
      (match x.config.role, level, x.filtered with
        | .blankInput, true, _ => assertLine l v
        | .blankInput, false, some _ => releaseLine l v
        | .powerSense n, true, _ => sensed n .powered v
        | .powerSense n, false, _ => sensed n .unpowered v
        | .trigger, _, some _ =>
          if x.config.edge = .both ∨ (x.config.edge = .rising ↔ level = true) then qualifyingEdge l v else v
        | _, _, _ => v)
  let watched (l : LineId) (x : Line) (base : State) : State :=
    let pin := Line.pinLevel x
    let starts : Bool := match x.filtered, x.candidate with
      | some f, none => pin != f
      | none, none => true
      | none, some c => c.1 != pin
      | some _, some _ => false
    if Role.isOutput x.config.role = true ∨ x.hold ≠ none then base.modLine l fun _ => x
    else if starts = false then
      base.modLine l fun _ => { x with candidate := if x.filtered = some pin then none else x.candidate }
    else if 0 < x.config.filter then base.modLine l fun _ => { x with candidate := some (pin, base.now) }
    else accepted l x pin base
  (∀ (tag b0 b1 b2 b3 b4 b5 b6 b7 b8 : Byte) (s : State),
    let r : Request := ⟨0x68, tag, [b0, b1, b2, b3, b4, b5, b6, b7, b8]⟩
    let named : Bool := b1 = 1 || b1 = 5 || b1 = 6
    let bad : Prop := 15 < b0.toNat ∨ 6 < b1.toNat ∨ (named = true ∧ (b2 = 0 ∨ 8 < b2.toNat)) ∨
      1 < b3.toNat ∨ 1 < b4.toNat ∨ 1 < b5.toNat ∨ 2 < b8.toNat
    takesTurn r s →
    (bad → exec (.setLine tag r.body) s = .next (replied r .badArg [] (begun r s))) ∧
    (¬ bad → ∀ (l : LineId) (role : Role), l.val = b0.toNat → roleOf b1 b2 = some role →
      let c : LineConfig :=
        { role := role
          drive := if b3 = 0 then .pushPull else .openDrain
          polarity := if b4 = 0 then .normal else .inverted
          pullUp := b5 = 1
          filter := min 255 (b6.toNat * 256 + b7.toNat)
          edge := if b8 = 0 then .rising else if b8 = 1 then .falling else .both }
      let ln := s.line l
      let taken : Prop := named = true ∧ ∃ j, j ≠ l ∧ (s.line j).config.role = role
      let level : Bool :=
        match role, ln.config.role with
        | .tally m, _ => decide (s.focus.target = .loc m)
        | .output, .output => ln.level
        | _, _ => false
      let left : State :=
        match ln.config.role with
        | .blankInput => releaseLine l (begun r s)
        | .powerSense n => sensed n .unknown (begun r s)
        | .trigger => (begun r s).setLineTrigger l ⟨0, none⟩
        | .wakePulse n =>
          if Attempt.pulseLine (s.wakeOf n).attempt = some l then failWake n .noLine (begun r s) else begun r s
        | _ => begun r s
      (taken → exec (.setLine tag r.body) s = .next (replied r .badArg [] (begun r s))) ∧
      (¬ taken → 2 ≤ s.lock.level → c ≠ ln.config →
        exec (.setLine tag r.body) s = .next (replied r .locked [] (begun r s))) ∧
      (¬ taken → c = ln.config →
        exec (.setLine tag r.body) s = .next (replied r .ok [] (watched l { ln with hold := none } (begun r s)))) ∧
      (¬ taken → s.lock.level < 2 → c ≠ ln.config →
        exec (.setLine tag r.body) s = .next (replied r .ok []
          (watched l { ln with config := c, hold := none, filtered := none, candidate := none, level := level }
            left)) ∧
        ∀ n f e, ln.config.role = .wakePulse n → (s.wakeOf n).attempt = .pulse f l e →
          (left.wakeOf n).attempt = .failed .noLine ∧ (left.port n).keyQueue = [] ∧
          (left.port n).pointerQueue = [] ∧ left.lastKey n = none ∧ left.lastPointer n = none))) ∧
  (∀ (tag b0 b1 : Byte) (s : State),
    let r : Request := ⟨0x6A, tag, [b0, b1]⟩
    takesTurn r s →
    (15 < b0.toNat ∨ 1 < b1.toNat → exec (.driveLine tag r.body) s = .next (replied r .badArg [] (begun r s))) ∧
    ∀ l : LineId, l.val = b0.toNat → b1.toNat ≤ 1 →
      ((s.line l).config.role ≠ .output →
        exec (.driveLine tag r.body) s = .next (replied r .wrongState [] (begun r s))) ∧
      ((s.line l).config.role = .output →
        exec (.driveLine tag r.body) s =
          .next (replied r .ok [] ((begun r s).modLine l fun x => { x with level := decide (b1 = 1) })))) ∧
  (∀ x : Line,
    let driven : Bool := x.level == (x.config.polarity == .normal)
    (∀ p, x.hold = some p → Line.pin x = p) ∧
    (x.hold = none → Role.isOutput x.config.role = false → Line.pin x = .float) ∧
    (x.hold = none → Role.isOutput x.config.role = true → x.config.drive = .pushPull →
      Line.pin x = if driven then .high else .low) ∧
    (x.hold = none → Role.isOutput x.config.role = true → x.config.drive = .openDrain →
      Line.pin x = if driven then .low else .float) ∧
    Line.pinHigh x =
      (match Line.pin x with
        | .high => true
        | .low => false
        | .float => (x.config.pullUp && !x.wireStrong) || x.wireLevel) ∧
    Line.pinLevel x = (Line.pinHigh x == (x.config.polarity == .normal))) ∧
  ∀ (l : LineId) (level strong : Bool) (s : State),
    let ln := s.line l
    let filters : Prop := Role.isOutput ln.config.role = false ∧ ln.hold = none
    exec (.linePinChange l level strong) s =
      .next (handedOn (watched l { ln with wireLevel := level, wireStrong := strong } s)) ∧
    (¬ filters ∨ ln.candidate = none → exec (.lineFilterExpiry l) s = .next (handedOn s)) ∧
    (filters → ∀ x since, ln.candidate = some (x, since) →
      let base : State := { s with now := max s.now (since + ln.config.filter) }
      (ln.filtered = some x →
        exec (.lineFilterExpiry l) s = .next (handedOn (base.modLine l fun y => { y with candidate := none }))) ∧
      (ln.filtered ≠ some x → exec (.lineFilterExpiry l) s = .next (handedOn (accepted l ln x base))))

/-- From every state in which the layout is valid and the desk pointer lies in one of its tiles, the lock level is 0 to
3, no two hotkey entries exclude one another, no two lines hold a role for one computer, and the queues and the held
list are within their sizes (32 held keys, 32 key-state records, 16 pointer records, 32 link frames, 4 requests, 8
replies, 16 notices), each step, of whatever command or of the part itself, leads to a state of which the same holds.
(R9, R13, R18, R45, R58, R79, R83, R135, R182, R188, R191) -/
def Obligations.EveryStepKeepsThePartSound : Prop :=
  ∀ s t : State, Sound s → step s = .next t → Sound t

/-- In the power-on state State.reset the layout is valid and the desk pointer lies in the tile of M1 at the tile's
centre, the lock is open, its level 0 and its flag clear, no two hotkey entries exclude one another, no two lines
hold a role for one computer, and every queue is within its size. (R8, R13, R17, R18, R79, R179, R195) -/
def Obligations.ResetIsSound : Prop :=
  Sound State.reset ∧ State.reset.lock = ⟨0, false⟩ ∧ pointerMonitor State.reset = some 0 ∧
    ∀ t, tileOf State.reset.layout 0 = some t →
      State.reset.pointer.px = t.x0 + t.w / 2 ∧ State.reset.pointer.py = t.y0 + t.h / 2
end

