-- ==== Sys2Proof/Laws/Encode.lean ====
section
/-!
SUPPORT. How long the encoded fields are (R197): a field that may be none has one length in every state, and so has each
reply made of such fields (notes/assumptions/8.md).
-/

namespace Sys2Proof.Machine

open Sys2Proof

@[simp] theorem byte1_length (n : Nat) : (byte1 n).length = 1 := rfl
@[simp] theorem byte2_length (n : Nat) : (byte2 n).length = 2 := rfl
@[simp] theorem byte4_length (n : Nat) : (byte4 n).length = 4 := rfl
@[simp] theorem flag_length (b : Bool) : (flag b).length = 1 := rfl
@[simp] theorem zoneSetByte_length (z : ZoneSet) : (zoneSetByte z).length = 1 := rfl
@[simp] theorem modeBytes_length (m : Mode) : (modeBytes m).length = 6 := rfl
@[simp] theorem linkCountBytes_length (c : LinkCounters) : (linkCountBytes c).length = 24 := rfl

@[simp] theorem timeBytes_length (t : Nat) : (timeBytes t).length = 4 := by
  unfold timeBytes; split <;> rfl

@[simp] theorem headBytes_length (h : Head) : (headBytes h).length = 2 := by
  obtain ⟨_, l⟩ := h; cases l <;> rfl

@[simp] theorem pointerModeByte_length (p : PointerMode) : (pointerModeByte p).length = 1 := by cases p <;> rfl
@[simp] theorem outboundByte_length (o : Outbound) : (outboundByte o).length = 1 := by cases o <;> rfl
@[simp] theorem inboundByte_length (i : Inbound) : (inboundByte i).length = 1 := by cases i <;> rfl
@[simp] theorem outboundSummaryByte_length (o : OutboundSummary) : (outboundSummaryByte o).length = 1 := by
  cases o <;> rfl
@[simp] theorem inboundSummaryByte_length (i : InboundSummary) : (inboundSummaryByte i).length = 1 := by
  cases i <;> rfl
@[simp] theorem viewerByte_length (v : ViewerControl) : (viewerByte v).length = 1 := by cases v <;> rfl
@[simp] theorem matcherByte_length (m : MatcherState) : (matcherByte m).length = 1 := by cases m <;> rfl

/-- A field that may be none takes its presence byte and its width, whether it holds a value or not. -/
theorem optional_length {α : Type} (width : Nat) (f : α → List Byte) (hf : ∀ x, (f x).length = width)
    (o : Option α) : (optional width f o).length = width + 1 := by
  cases o <;> simp [optional, hf]

@[simp] theorem poweredBytes_length (p : Powered) : (poweredBytes p).length = 2 :=
  optional_length 1 _ (fun _ => rfl) _

/-- The matcher state takes 17 bytes of GET_HOTKEY's reply in every state (R85). -/
theorem matcherBytes_length (now : Nat) (m : MatcherState) : (matcherBytes now m).length = 17 := by
  simp only [matcherBytes, List.length_append, matcherByte_length, optional_length 1 byte1 byte1_length,
    optional_length 1 flag flag_length, optional_length 4 timeBytes timeBytes_length]

/-- The reply of GET_LINK has 72 bytes after its result code in every state (R149). -/
theorem linkReply_length (k : LinkId) (s : State) : (linkReply k s).length = 72 := by
  unfold linkReply
  simp only [List.length_append, flag_length, zoneSetByte_length, outboundByte_length, inboundByte_length,
    viewerByte_length, optional_length 1 flag flag_length,
    optional_length 4 timeBytes timeBytes_length, optional_length 2 headBytes headBytes_length,
    optional_length 6 modeBytes modeBytes_length, optional_length 1 pointerModeByte pointerModeByte_length,
    optional_length 1 outboundSummaryByte outboundSummaryByte_length,
    optional_length 1 inboundSummaryByte inboundSummaryByte_length, optional_length 1 viewerByte viewerByte_length,
    optional_length 1 (fun z : Zone => byte1 z.val) (fun z => byte1_length z.val)]
  rw [linkCountBytes_length]

end Sys2Proof.Machine
end

