-- ==== Sys2Proof/Laws/State.lean ====
section
/-!
SUPPORT. One lemma for each field and each update of the state, and the lemmas of the tables: what an update writes,
and that it leaves every other field as it was.
-/

namespace Sys2Proof.Machine

open Sys2Proof

/-! ### Tables -/

@[simp] theorem pick_upd_same {α : Type} {n : Nat} (v : Vector α n) (i : Fin n) (f : α → α) :
    pick (upd v i f) i = f (pick v i) := by simp [pick, upd]

theorem pick_upd_ne {α : Type} {n : Nat} (v : Vector α n) (i j : Fin n) (f : α → α) (h : i ≠ j) :
    pick (upd v i f) j = pick v j := by
  have h' : i.val ≠ j.val := fun e => h (Fin.ext e)
  simp [pick, upd, h']

theorem pick_upd {α : Type} {n : Nat} (v : Vector α n) (i j : Fin n) (f : α → α) :
    pick (upd v i f) j = if j = i then f (pick v j) else pick v j := by
  by_cases h : j = i
  · subst h; simp
  · rw [if_neg h]; exact pick_upd_ne v i j f (Ne.symm h)

@[simp] theorem upd_id {α : Type} {n : Nat} (v : Vector α n) (i : Fin n) : upd v i id = v := by
  simp [upd, pick]

@[simp] theorem pick_replicate {α : Type} {n : Nat} (a : α) (i : Fin n) : pick (Vector.replicate n a) i = a := by
  simp [pick]

/-- Two heads with one place are one head. -/
theorem Head.idx_inj {a b : Head} (h : Head.idx a = Head.idx b) : a = b := by
  obtain ⟨⟨m, hm⟩, l⟩ := a
  obtain ⟨⟨n, hn⟩, k⟩ := b
  cases l <;> cases k <;> simp only [Head.idx, Fin.mk.injEq] at h <;> first | omega | (congr 2; omega)

/-- Two inputs with one place are one input. -/
theorem Input.idx_inj {a b : Input} (h : Input.idx a = Input.idx b) : a = b := by
  cases a with
  | head a =>
    cases b with
    | head b => exact congrArg Input.head (Head.idx_inj (by simpa [Input.idx, Fin.ext_iff] using h))
    | lane k => have := (Head.idx a).isLt; simp [Input.idx, Fin.ext_iff] at h; omega
  | lane k =>
    cases b with
    | head b => have := (Head.idx b).isLt; simp [Input.idx, Fin.ext_iff] at h; omega
    | lane j => exact congrArg Input.lane (Fin.ext (by simp [Input.idx, Fin.ext_iff] at h; exact h))

@[simp] theorem Head.idx_eq_iff {a b : Head} : Head.idx a = Head.idx b ↔ a = b :=
  ⟨Head.idx_inj, fun h => congrArg Head.idx h⟩

@[simp] theorem Input.idx_eq_iff {a b : Input} : Input.idx a = Input.idx b ↔ a = b :=
  ⟨Input.idx_inj, fun h => congrArg Input.idx h⟩

/-! ### setNow -/

@[simp] theorem State.setNow_now (s : State) (t : Nat) : (s.setNow t).now = t := rfl
@[simp] theorem State.setNow_comps (s : State) (t : Nat) : (s.setNow t).comps = s.comps := rfl
@[simp] theorem State.setNow_heads (s : State) (t : Nat) : (s.setNow t).heads = s.heads := rfl
@[simp] theorem State.setNow_layout (s : State) (t : Nat) : (s.setNow t).layout = s.layout := rfl
@[simp] theorem State.setNow_desk (s : State) (t : Nat) : (s.setNow t).desk = s.desk := rfl
@[simp] theorem State.setNow_lock (s : State) (t : Nat) : (s.setNow t).lock = s.lock := rfl
@[simp] theorem State.setNow_pointer (s : State) (t : Nat) : (s.setNow t).pointer = s.pointer := rfl
@[simp] theorem State.setNow_focus (s : State) (t : Nat) : (s.setNow t).focus = s.focus := rfl
@[simp] theorem State.setNow_mouse (s : State) (t : Nat) : (s.setNow t).mouse = s.mouse := rfl
@[simp] theorem State.setNow_keyboard (s : State) (t : Nat) : (s.setNow t).keyboard = s.keyboard := rfl
@[simp] theorem State.setNow_router (s : State) (t : Nat) : (s.setNow t).router = s.router := rfl
@[simp] theorem State.setNow_ports (s : State) (t : Nat) : (s.setNow t).ports = s.ports := rfl
@[simp] theorem State.setNow_hotkeys (s : State) (t : Nat) : (s.setNow t).hotkeys = s.hotkeys := rfl
@[simp] theorem State.setNow_matcher (s : State) (t : Nat) : (s.setNow t).matcher = s.matcher := rfl
@[simp] theorem State.setNow_lineTriggers (s : State) (t : Nat) : (s.setNow t).lineTriggers = s.lineTriggers := rfl
@[simp] theorem State.setNow_inputs (s : State) (t : Nat) : (s.setNow t).inputs = s.inputs := rfl
@[simp] theorem State.setNow_outputs (s : State) (t : Nat) : (s.setNow t).outputs = s.outputs := rfl
@[simp] theorem State.setNow_crosspointStart (s : State) (t : Nat) : (s.setNow t).crosspointStart = s.crosspointStart := rfl
@[simp] theorem State.setNow_scenes (s : State) (t : Nat) : (s.setNow t).scenes = s.scenes := rfl
@[simp] theorem State.setNow_blank (s : State) (t : Nat) : (s.setNow t).blank = s.blank := rfl
@[simp] theorem State.setNow_links (s : State) (t : Nat) : (s.setNow t).links = s.links := rfl
@[simp] theorem State.setNow_controls (s : State) (t : Nat) : (s.setNow t).controls = s.controls := rfl
@[simp] theorem State.setNow_wake (s : State) (t : Nat) : (s.setNow t).wake = s.wake := rfl
@[simp] theorem State.setNow_lines (s : State) (t : Nat) : (s.setNow t).lines = s.lines := rfl
@[simp] theorem State.setNow_sup (s : State) (t : Nat) : (s.setNow t).sup = s.sup := rfl
@[simp] theorem State.setNow_pending (s : State) (t : Nat) : (s.setNow t).pending = s.pending := rfl
@[simp] theorem State.setNow_comp (s : State) (t : Nat) (j : Comp) : (s.setNow t).comp j = s.comp j := rfl
@[simp] theorem State.setNow_headMap (s : State) (t : Nat) (j : Head) : (s.setNow t).headMap j = s.headMap j := rfl
@[simp] theorem State.setNow_port (s : State) (t : Nat) (j : Comp) : (s.setNow t).port j = s.port j := rfl
@[simp] theorem State.setNow_hotkey (s : State) (t : Nat) (j : Fin 32) : (s.setNow t).hotkey j = s.hotkey j := rfl
@[simp] theorem State.setNow_lineTrigger (s : State) (t : Nat) (j : LineId) : (s.setNow t).lineTrigger j = s.lineTrigger j := rfl
@[simp] theorem State.setNow_input (s : State) (t : Nat) (j : Input) : (s.setNow t).input j = s.input j := rfl
@[simp] theorem State.setNow_out (s : State) (t : Nat) (j : OutputId) : (s.setNow t).out j = s.out j := rfl
@[simp] theorem State.setNow_scene (s : State) (t : Nat) (j : Fin 16) : (s.setNow t).scene j = s.scene j := rfl
@[simp] theorem State.setNow_link (s : State) (t : Nat) (j : LinkId) : (s.setNow t).link j = s.link j := rfl
@[simp] theorem State.setNow_control (s : State) (t : Nat) (j : Comp) : (s.setNow t).control j = s.control j := rfl
@[simp] theorem State.setNow_wakeOf (s : State) (t : Nat) (j : Comp) : (s.setNow t).wakeOf j = s.wakeOf j := rfl
@[simp] theorem State.setNow_line (s : State) (t : Nat) (j : LineId) : (s.setNow t).line j = s.line j := rfl

/-! ### setLayout -/

@[simp] theorem State.setLayout_now (s : State) (t : List Tile) : (s.setLayout t).now = s.now := rfl
@[simp] theorem State.setLayout_comps (s : State) (t : List Tile) : (s.setLayout t).comps = s.comps := rfl
@[simp] theorem State.setLayout_heads (s : State) (t : List Tile) : (s.setLayout t).heads = s.heads := rfl
@[simp] theorem State.setLayout_layout (s : State) (t : List Tile) : (s.setLayout t).layout = t := rfl
@[simp] theorem State.setLayout_desk (s : State) (t : List Tile) : (s.setLayout t).desk = s.desk := rfl
@[simp] theorem State.setLayout_lock (s : State) (t : List Tile) : (s.setLayout t).lock = s.lock := rfl
@[simp] theorem State.setLayout_pointer (s : State) (t : List Tile) : (s.setLayout t).pointer = s.pointer := rfl
@[simp] theorem State.setLayout_focus (s : State) (t : List Tile) : (s.setLayout t).focus = s.focus := rfl
@[simp] theorem State.setLayout_mouse (s : State) (t : List Tile) : (s.setLayout t).mouse = s.mouse := rfl
@[simp] theorem State.setLayout_keyboard (s : State) (t : List Tile) : (s.setLayout t).keyboard = s.keyboard := rfl
@[simp] theorem State.setLayout_router (s : State) (t : List Tile) : (s.setLayout t).router = s.router := rfl
@[simp] theorem State.setLayout_ports (s : State) (t : List Tile) : (s.setLayout t).ports = s.ports := rfl
@[simp] theorem State.setLayout_hotkeys (s : State) (t : List Tile) : (s.setLayout t).hotkeys = s.hotkeys := rfl
@[simp] theorem State.setLayout_matcher (s : State) (t : List Tile) : (s.setLayout t).matcher = s.matcher := rfl
@[simp] theorem State.setLayout_lineTriggers (s : State) (t : List Tile) : (s.setLayout t).lineTriggers = s.lineTriggers := rfl
@[simp] theorem State.setLayout_inputs (s : State) (t : List Tile) : (s.setLayout t).inputs = s.inputs := rfl
@[simp] theorem State.setLayout_outputs (s : State) (t : List Tile) : (s.setLayout t).outputs = s.outputs := rfl
@[simp] theorem State.setLayout_crosspointStart (s : State) (t : List Tile) : (s.setLayout t).crosspointStart = s.crosspointStart := rfl
@[simp] theorem State.setLayout_scenes (s : State) (t : List Tile) : (s.setLayout t).scenes = s.scenes := rfl
@[simp] theorem State.setLayout_blank (s : State) (t : List Tile) : (s.setLayout t).blank = s.blank := rfl
@[simp] theorem State.setLayout_links (s : State) (t : List Tile) : (s.setLayout t).links = s.links := rfl
@[simp] theorem State.setLayout_controls (s : State) (t : List Tile) : (s.setLayout t).controls = s.controls := rfl
@[simp] theorem State.setLayout_wake (s : State) (t : List Tile) : (s.setLayout t).wake = s.wake := rfl
@[simp] theorem State.setLayout_lines (s : State) (t : List Tile) : (s.setLayout t).lines = s.lines := rfl
@[simp] theorem State.setLayout_sup (s : State) (t : List Tile) : (s.setLayout t).sup = s.sup := rfl
@[simp] theorem State.setLayout_pending (s : State) (t : List Tile) : (s.setLayout t).pending = s.pending := rfl
@[simp] theorem State.setLayout_comp (s : State) (t : List Tile) (j : Comp) : (s.setLayout t).comp j = s.comp j := rfl
@[simp] theorem State.setLayout_headMap (s : State) (t : List Tile) (j : Head) : (s.setLayout t).headMap j = s.headMap j := rfl
@[simp] theorem State.setLayout_port (s : State) (t : List Tile) (j : Comp) : (s.setLayout t).port j = s.port j := rfl
@[simp] theorem State.setLayout_hotkey (s : State) (t : List Tile) (j : Fin 32) : (s.setLayout t).hotkey j = s.hotkey j := rfl
@[simp] theorem State.setLayout_lineTrigger (s : State) (t : List Tile) (j : LineId) : (s.setLayout t).lineTrigger j = s.lineTrigger j := rfl
@[simp] theorem State.setLayout_input (s : State) (t : List Tile) (j : Input) : (s.setLayout t).input j = s.input j := rfl
@[simp] theorem State.setLayout_out (s : State) (t : List Tile) (j : OutputId) : (s.setLayout t).out j = s.out j := rfl
@[simp] theorem State.setLayout_scene (s : State) (t : List Tile) (j : Fin 16) : (s.setLayout t).scene j = s.scene j := rfl
@[simp] theorem State.setLayout_link (s : State) (t : List Tile) (j : LinkId) : (s.setLayout t).link j = s.link j := rfl
@[simp] theorem State.setLayout_control (s : State) (t : List Tile) (j : Comp) : (s.setLayout t).control j = s.control j := rfl
@[simp] theorem State.setLayout_wakeOf (s : State) (t : List Tile) (j : Comp) : (s.setLayout t).wakeOf j = s.wakeOf j := rfl
@[simp] theorem State.setLayout_line (s : State) (t : List Tile) (j : LineId) : (s.setLayout t).line j = s.line j := rfl

/-! ### setDesk -/

@[simp] theorem State.setDesk_now (s : State) (t : DeskSettings) : (s.setDesk t).now = s.now := rfl
@[simp] theorem State.setDesk_comps (s : State) (t : DeskSettings) : (s.setDesk t).comps = s.comps := rfl
@[simp] theorem State.setDesk_heads (s : State) (t : DeskSettings) : (s.setDesk t).heads = s.heads := rfl
@[simp] theorem State.setDesk_layout (s : State) (t : DeskSettings) : (s.setDesk t).layout = s.layout := rfl
@[simp] theorem State.setDesk_desk (s : State) (t : DeskSettings) : (s.setDesk t).desk = t := rfl
@[simp] theorem State.setDesk_lock (s : State) (t : DeskSettings) : (s.setDesk t).lock = s.lock := rfl
@[simp] theorem State.setDesk_pointer (s : State) (t : DeskSettings) : (s.setDesk t).pointer = s.pointer := rfl
@[simp] theorem State.setDesk_focus (s : State) (t : DeskSettings) : (s.setDesk t).focus = s.focus := rfl
@[simp] theorem State.setDesk_mouse (s : State) (t : DeskSettings) : (s.setDesk t).mouse = s.mouse := rfl
@[simp] theorem State.setDesk_keyboard (s : State) (t : DeskSettings) : (s.setDesk t).keyboard = s.keyboard := rfl
@[simp] theorem State.setDesk_router (s : State) (t : DeskSettings) : (s.setDesk t).router = s.router := rfl
@[simp] theorem State.setDesk_ports (s : State) (t : DeskSettings) : (s.setDesk t).ports = s.ports := rfl
@[simp] theorem State.setDesk_hotkeys (s : State) (t : DeskSettings) : (s.setDesk t).hotkeys = s.hotkeys := rfl
@[simp] theorem State.setDesk_matcher (s : State) (t : DeskSettings) : (s.setDesk t).matcher = s.matcher := rfl
@[simp] theorem State.setDesk_lineTriggers (s : State) (t : DeskSettings) : (s.setDesk t).lineTriggers = s.lineTriggers := rfl
@[simp] theorem State.setDesk_inputs (s : State) (t : DeskSettings) : (s.setDesk t).inputs = s.inputs := rfl
@[simp] theorem State.setDesk_outputs (s : State) (t : DeskSettings) : (s.setDesk t).outputs = s.outputs := rfl
@[simp] theorem State.setDesk_crosspointStart (s : State) (t : DeskSettings) : (s.setDesk t).crosspointStart = s.crosspointStart := rfl
@[simp] theorem State.setDesk_scenes (s : State) (t : DeskSettings) : (s.setDesk t).scenes = s.scenes := rfl
@[simp] theorem State.setDesk_blank (s : State) (t : DeskSettings) : (s.setDesk t).blank = s.blank := rfl
@[simp] theorem State.setDesk_links (s : State) (t : DeskSettings) : (s.setDesk t).links = s.links := rfl
@[simp] theorem State.setDesk_controls (s : State) (t : DeskSettings) : (s.setDesk t).controls = s.controls := rfl
@[simp] theorem State.setDesk_wake (s : State) (t : DeskSettings) : (s.setDesk t).wake = s.wake := rfl
@[simp] theorem State.setDesk_lines (s : State) (t : DeskSettings) : (s.setDesk t).lines = s.lines := rfl
@[simp] theorem State.setDesk_sup (s : State) (t : DeskSettings) : (s.setDesk t).sup = s.sup := rfl
@[simp] theorem State.setDesk_pending (s : State) (t : DeskSettings) : (s.setDesk t).pending = s.pending := rfl
@[simp] theorem State.setDesk_comp (s : State) (t : DeskSettings) (j : Comp) : (s.setDesk t).comp j = s.comp j := rfl
@[simp] theorem State.setDesk_headMap (s : State) (t : DeskSettings) (j : Head) : (s.setDesk t).headMap j = s.headMap j := rfl
@[simp] theorem State.setDesk_port (s : State) (t : DeskSettings) (j : Comp) : (s.setDesk t).port j = s.port j := rfl
@[simp] theorem State.setDesk_hotkey (s : State) (t : DeskSettings) (j : Fin 32) : (s.setDesk t).hotkey j = s.hotkey j := rfl
@[simp] theorem State.setDesk_lineTrigger (s : State) (t : DeskSettings) (j : LineId) : (s.setDesk t).lineTrigger j = s.lineTrigger j := rfl
@[simp] theorem State.setDesk_input (s : State) (t : DeskSettings) (j : Input) : (s.setDesk t).input j = s.input j := rfl
@[simp] theorem State.setDesk_out (s : State) (t : DeskSettings) (j : OutputId) : (s.setDesk t).out j = s.out j := rfl
@[simp] theorem State.setDesk_scene (s : State) (t : DeskSettings) (j : Fin 16) : (s.setDesk t).scene j = s.scene j := rfl
@[simp] theorem State.setDesk_link (s : State) (t : DeskSettings) (j : LinkId) : (s.setDesk t).link j = s.link j := rfl
@[simp] theorem State.setDesk_control (s : State) (t : DeskSettings) (j : Comp) : (s.setDesk t).control j = s.control j := rfl
@[simp] theorem State.setDesk_wakeOf (s : State) (t : DeskSettings) (j : Comp) : (s.setDesk t).wakeOf j = s.wakeOf j := rfl
@[simp] theorem State.setDesk_line (s : State) (t : DeskSettings) (j : LineId) : (s.setDesk t).line j = s.line j := rfl

/-! ### setLock -/

@[simp] theorem State.setLock_now (s : State) (t : LockState) : (s.setLock t).now = s.now := rfl
@[simp] theorem State.setLock_comps (s : State) (t : LockState) : (s.setLock t).comps = s.comps := rfl
@[simp] theorem State.setLock_heads (s : State) (t : LockState) : (s.setLock t).heads = s.heads := rfl
@[simp] theorem State.setLock_layout (s : State) (t : LockState) : (s.setLock t).layout = s.layout := rfl
@[simp] theorem State.setLock_desk (s : State) (t : LockState) : (s.setLock t).desk = s.desk := rfl
@[simp] theorem State.setLock_lock (s : State) (t : LockState) : (s.setLock t).lock = t := rfl
@[simp] theorem State.setLock_pointer (s : State) (t : LockState) : (s.setLock t).pointer = s.pointer := rfl
@[simp] theorem State.setLock_focus (s : State) (t : LockState) : (s.setLock t).focus = s.focus := rfl
@[simp] theorem State.setLock_mouse (s : State) (t : LockState) : (s.setLock t).mouse = s.mouse := rfl
@[simp] theorem State.setLock_keyboard (s : State) (t : LockState) : (s.setLock t).keyboard = s.keyboard := rfl
@[simp] theorem State.setLock_router (s : State) (t : LockState) : (s.setLock t).router = s.router := rfl
@[simp] theorem State.setLock_ports (s : State) (t : LockState) : (s.setLock t).ports = s.ports := rfl
@[simp] theorem State.setLock_hotkeys (s : State) (t : LockState) : (s.setLock t).hotkeys = s.hotkeys := rfl
@[simp] theorem State.setLock_matcher (s : State) (t : LockState) : (s.setLock t).matcher = s.matcher := rfl
@[simp] theorem State.setLock_lineTriggers (s : State) (t : LockState) : (s.setLock t).lineTriggers = s.lineTriggers := rfl
@[simp] theorem State.setLock_inputs (s : State) (t : LockState) : (s.setLock t).inputs = s.inputs := rfl
@[simp] theorem State.setLock_outputs (s : State) (t : LockState) : (s.setLock t).outputs = s.outputs := rfl
@[simp] theorem State.setLock_crosspointStart (s : State) (t : LockState) : (s.setLock t).crosspointStart = s.crosspointStart := rfl
@[simp] theorem State.setLock_scenes (s : State) (t : LockState) : (s.setLock t).scenes = s.scenes := rfl
@[simp] theorem State.setLock_blank (s : State) (t : LockState) : (s.setLock t).blank = s.blank := rfl
@[simp] theorem State.setLock_links (s : State) (t : LockState) : (s.setLock t).links = s.links := rfl
@[simp] theorem State.setLock_controls (s : State) (t : LockState) : (s.setLock t).controls = s.controls := rfl
@[simp] theorem State.setLock_wake (s : State) (t : LockState) : (s.setLock t).wake = s.wake := rfl
@[simp] theorem State.setLock_lines (s : State) (t : LockState) : (s.setLock t).lines = s.lines := rfl
@[simp] theorem State.setLock_sup (s : State) (t : LockState) : (s.setLock t).sup = s.sup := rfl
@[simp] theorem State.setLock_pending (s : State) (t : LockState) : (s.setLock t).pending = s.pending := rfl
@[simp] theorem State.setLock_comp (s : State) (t : LockState) (j : Comp) : (s.setLock t).comp j = s.comp j := rfl
@[simp] theorem State.setLock_headMap (s : State) (t : LockState) (j : Head) : (s.setLock t).headMap j = s.headMap j := rfl
@[simp] theorem State.setLock_port (s : State) (t : LockState) (j : Comp) : (s.setLock t).port j = s.port j := rfl
@[simp] theorem State.setLock_hotkey (s : State) (t : LockState) (j : Fin 32) : (s.setLock t).hotkey j = s.hotkey j := rfl
@[simp] theorem State.setLock_lineTrigger (s : State) (t : LockState) (j : LineId) : (s.setLock t).lineTrigger j = s.lineTrigger j := rfl
@[simp] theorem State.setLock_input (s : State) (t : LockState) (j : Input) : (s.setLock t).input j = s.input j := rfl
@[simp] theorem State.setLock_out (s : State) (t : LockState) (j : OutputId) : (s.setLock t).out j = s.out j := rfl
@[simp] theorem State.setLock_scene (s : State) (t : LockState) (j : Fin 16) : (s.setLock t).scene j = s.scene j := rfl
@[simp] theorem State.setLock_link (s : State) (t : LockState) (j : LinkId) : (s.setLock t).link j = s.link j := rfl
@[simp] theorem State.setLock_control (s : State) (t : LockState) (j : Comp) : (s.setLock t).control j = s.control j := rfl
@[simp] theorem State.setLock_wakeOf (s : State) (t : LockState) (j : Comp) : (s.setLock t).wakeOf j = s.wakeOf j := rfl
@[simp] theorem State.setLock_line (s : State) (t : LockState) (j : LineId) : (s.setLock t).line j = s.line j := rfl

/-! ### modPointer -/

@[simp] theorem State.modPointer_now (s : State) (f : DeskPointer → DeskPointer) : (s.modPointer f).now = s.now := rfl
@[simp] theorem State.modPointer_comps (s : State) (f : DeskPointer → DeskPointer) : (s.modPointer f).comps = s.comps := rfl
@[simp] theorem State.modPointer_heads (s : State) (f : DeskPointer → DeskPointer) : (s.modPointer f).heads = s.heads := rfl
@[simp] theorem State.modPointer_layout (s : State) (f : DeskPointer → DeskPointer) : (s.modPointer f).layout = s.layout := rfl
@[simp] theorem State.modPointer_desk (s : State) (f : DeskPointer → DeskPointer) : (s.modPointer f).desk = s.desk := rfl
@[simp] theorem State.modPointer_lock (s : State) (f : DeskPointer → DeskPointer) : (s.modPointer f).lock = s.lock := rfl
@[simp] theorem State.modPointer_pointer (s : State) (f : DeskPointer → DeskPointer) : (s.modPointer f).pointer = f s.pointer := rfl
@[simp] theorem State.modPointer_focus (s : State) (f : DeskPointer → DeskPointer) : (s.modPointer f).focus = s.focus := rfl
@[simp] theorem State.modPointer_mouse (s : State) (f : DeskPointer → DeskPointer) : (s.modPointer f).mouse = s.mouse := rfl
@[simp] theorem State.modPointer_keyboard (s : State) (f : DeskPointer → DeskPointer) : (s.modPointer f).keyboard = s.keyboard := rfl
@[simp] theorem State.modPointer_router (s : State) (f : DeskPointer → DeskPointer) : (s.modPointer f).router = s.router := rfl
@[simp] theorem State.modPointer_ports (s : State) (f : DeskPointer → DeskPointer) : (s.modPointer f).ports = s.ports := rfl
@[simp] theorem State.modPointer_hotkeys (s : State) (f : DeskPointer → DeskPointer) : (s.modPointer f).hotkeys = s.hotkeys := rfl
@[simp] theorem State.modPointer_matcher (s : State) (f : DeskPointer → DeskPointer) : (s.modPointer f).matcher = s.matcher := rfl
@[simp] theorem State.modPointer_lineTriggers (s : State) (f : DeskPointer → DeskPointer) : (s.modPointer f).lineTriggers = s.lineTriggers := rfl
@[simp] theorem State.modPointer_inputs (s : State) (f : DeskPointer → DeskPointer) : (s.modPointer f).inputs = s.inputs := rfl
@[simp] theorem State.modPointer_outputs (s : State) (f : DeskPointer → DeskPointer) : (s.modPointer f).outputs = s.outputs := rfl
@[simp] theorem State.modPointer_crosspointStart (s : State) (f : DeskPointer → DeskPointer) : (s.modPointer f).crosspointStart = s.crosspointStart := rfl
@[simp] theorem State.modPointer_scenes (s : State) (f : DeskPointer → DeskPointer) : (s.modPointer f).scenes = s.scenes := rfl
@[simp] theorem State.modPointer_blank (s : State) (f : DeskPointer → DeskPointer) : (s.modPointer f).blank = s.blank := rfl
@[simp] theorem State.modPointer_links (s : State) (f : DeskPointer → DeskPointer) : (s.modPointer f).links = s.links := rfl
@[simp] theorem State.modPointer_controls (s : State) (f : DeskPointer → DeskPointer) : (s.modPointer f).controls = s.controls := rfl
@[simp] theorem State.modPointer_wake (s : State) (f : DeskPointer → DeskPointer) : (s.modPointer f).wake = s.wake := rfl
@[simp] theorem State.modPointer_lines (s : State) (f : DeskPointer → DeskPointer) : (s.modPointer f).lines = s.lines := rfl
@[simp] theorem State.modPointer_sup (s : State) (f : DeskPointer → DeskPointer) : (s.modPointer f).sup = s.sup := rfl
@[simp] theorem State.modPointer_pending (s : State) (f : DeskPointer → DeskPointer) : (s.modPointer f).pending = s.pending := rfl
@[simp] theorem State.modPointer_comp (s : State) (f : DeskPointer → DeskPointer) (j : Comp) : (s.modPointer f).comp j = s.comp j := rfl
@[simp] theorem State.modPointer_headMap (s : State) (f : DeskPointer → DeskPointer) (j : Head) : (s.modPointer f).headMap j = s.headMap j := rfl
@[simp] theorem State.modPointer_port (s : State) (f : DeskPointer → DeskPointer) (j : Comp) : (s.modPointer f).port j = s.port j := rfl
@[simp] theorem State.modPointer_hotkey (s : State) (f : DeskPointer → DeskPointer) (j : Fin 32) : (s.modPointer f).hotkey j = s.hotkey j := rfl
@[simp] theorem State.modPointer_lineTrigger (s : State) (f : DeskPointer → DeskPointer) (j : LineId) : (s.modPointer f).lineTrigger j = s.lineTrigger j := rfl
@[simp] theorem State.modPointer_input (s : State) (f : DeskPointer → DeskPointer) (j : Input) : (s.modPointer f).input j = s.input j := rfl
@[simp] theorem State.modPointer_out (s : State) (f : DeskPointer → DeskPointer) (j : OutputId) : (s.modPointer f).out j = s.out j := rfl
@[simp] theorem State.modPointer_scene (s : State) (f : DeskPointer → DeskPointer) (j : Fin 16) : (s.modPointer f).scene j = s.scene j := rfl
@[simp] theorem State.modPointer_link (s : State) (f : DeskPointer → DeskPointer) (j : LinkId) : (s.modPointer f).link j = s.link j := rfl
@[simp] theorem State.modPointer_control (s : State) (f : DeskPointer → DeskPointer) (j : Comp) : (s.modPointer f).control j = s.control j := rfl
@[simp] theorem State.modPointer_wakeOf (s : State) (f : DeskPointer → DeskPointer) (j : Comp) : (s.modPointer f).wakeOf j = s.wakeOf j := rfl
@[simp] theorem State.modPointer_line (s : State) (f : DeskPointer → DeskPointer) (j : LineId) : (s.modPointer f).line j = s.line j := rfl

/-! ### setFocus -/

@[simp] theorem State.setFocus_now (s : State) (t : FocusRecord) : (s.setFocus t).now = s.now := rfl
@[simp] theorem State.setFocus_comps (s : State) (t : FocusRecord) : (s.setFocus t).comps = s.comps := rfl
@[simp] theorem State.setFocus_heads (s : State) (t : FocusRecord) : (s.setFocus t).heads = s.heads := rfl
@[simp] theorem State.setFocus_layout (s : State) (t : FocusRecord) : (s.setFocus t).layout = s.layout := rfl
@[simp] theorem State.setFocus_desk (s : State) (t : FocusRecord) : (s.setFocus t).desk = s.desk := rfl
@[simp] theorem State.setFocus_lock (s : State) (t : FocusRecord) : (s.setFocus t).lock = s.lock := rfl
@[simp] theorem State.setFocus_pointer (s : State) (t : FocusRecord) : (s.setFocus t).pointer = s.pointer := rfl
@[simp] theorem State.setFocus_focus (s : State) (t : FocusRecord) : (s.setFocus t).focus = t := rfl
@[simp] theorem State.setFocus_mouse (s : State) (t : FocusRecord) : (s.setFocus t).mouse = s.mouse := rfl
@[simp] theorem State.setFocus_keyboard (s : State) (t : FocusRecord) : (s.setFocus t).keyboard = s.keyboard := rfl
@[simp] theorem State.setFocus_router (s : State) (t : FocusRecord) : (s.setFocus t).router = s.router := rfl
@[simp] theorem State.setFocus_ports (s : State) (t : FocusRecord) : (s.setFocus t).ports = s.ports := rfl
@[simp] theorem State.setFocus_hotkeys (s : State) (t : FocusRecord) : (s.setFocus t).hotkeys = s.hotkeys := rfl
@[simp] theorem State.setFocus_matcher (s : State) (t : FocusRecord) : (s.setFocus t).matcher = s.matcher := rfl
@[simp] theorem State.setFocus_lineTriggers (s : State) (t : FocusRecord) : (s.setFocus t).lineTriggers = s.lineTriggers := rfl
@[simp] theorem State.setFocus_inputs (s : State) (t : FocusRecord) : (s.setFocus t).inputs = s.inputs := rfl
@[simp] theorem State.setFocus_outputs (s : State) (t : FocusRecord) : (s.setFocus t).outputs = s.outputs := rfl
@[simp] theorem State.setFocus_crosspointStart (s : State) (t : FocusRecord) : (s.setFocus t).crosspointStart = s.crosspointStart := rfl
@[simp] theorem State.setFocus_scenes (s : State) (t : FocusRecord) : (s.setFocus t).scenes = s.scenes := rfl
@[simp] theorem State.setFocus_blank (s : State) (t : FocusRecord) : (s.setFocus t).blank = s.blank := rfl
@[simp] theorem State.setFocus_links (s : State) (t : FocusRecord) : (s.setFocus t).links = s.links := rfl
@[simp] theorem State.setFocus_controls (s : State) (t : FocusRecord) : (s.setFocus t).controls = s.controls := rfl
@[simp] theorem State.setFocus_wake (s : State) (t : FocusRecord) : (s.setFocus t).wake = s.wake := rfl
@[simp] theorem State.setFocus_lines (s : State) (t : FocusRecord) : (s.setFocus t).lines = s.lines := rfl
@[simp] theorem State.setFocus_sup (s : State) (t : FocusRecord) : (s.setFocus t).sup = s.sup := rfl
@[simp] theorem State.setFocus_pending (s : State) (t : FocusRecord) : (s.setFocus t).pending = s.pending := rfl
@[simp] theorem State.setFocus_comp (s : State) (t : FocusRecord) (j : Comp) : (s.setFocus t).comp j = s.comp j := rfl
@[simp] theorem State.setFocus_headMap (s : State) (t : FocusRecord) (j : Head) : (s.setFocus t).headMap j = s.headMap j := rfl
@[simp] theorem State.setFocus_port (s : State) (t : FocusRecord) (j : Comp) : (s.setFocus t).port j = s.port j := rfl
@[simp] theorem State.setFocus_hotkey (s : State) (t : FocusRecord) (j : Fin 32) : (s.setFocus t).hotkey j = s.hotkey j := rfl
@[simp] theorem State.setFocus_lineTrigger (s : State) (t : FocusRecord) (j : LineId) : (s.setFocus t).lineTrigger j = s.lineTrigger j := rfl
@[simp] theorem State.setFocus_input (s : State) (t : FocusRecord) (j : Input) : (s.setFocus t).input j = s.input j := rfl
@[simp] theorem State.setFocus_out (s : State) (t : FocusRecord) (j : OutputId) : (s.setFocus t).out j = s.out j := rfl
@[simp] theorem State.setFocus_scene (s : State) (t : FocusRecord) (j : Fin 16) : (s.setFocus t).scene j = s.scene j := rfl
@[simp] theorem State.setFocus_link (s : State) (t : FocusRecord) (j : LinkId) : (s.setFocus t).link j = s.link j := rfl
@[simp] theorem State.setFocus_control (s : State) (t : FocusRecord) (j : Comp) : (s.setFocus t).control j = s.control j := rfl
@[simp] theorem State.setFocus_wakeOf (s : State) (t : FocusRecord) (j : Comp) : (s.setFocus t).wakeOf j = s.wakeOf j := rfl
@[simp] theorem State.setFocus_line (s : State) (t : FocusRecord) (j : LineId) : (s.setFocus t).line j = s.line j := rfl

/-! ### setMouse -/

@[simp] theorem State.setMouse_now (s : State) (t : MousePort) : (s.setMouse t).now = s.now := rfl
@[simp] theorem State.setMouse_comps (s : State) (t : MousePort) : (s.setMouse t).comps = s.comps := rfl
@[simp] theorem State.setMouse_heads (s : State) (t : MousePort) : (s.setMouse t).heads = s.heads := rfl
@[simp] theorem State.setMouse_layout (s : State) (t : MousePort) : (s.setMouse t).layout = s.layout := rfl
@[simp] theorem State.setMouse_desk (s : State) (t : MousePort) : (s.setMouse t).desk = s.desk := rfl
@[simp] theorem State.setMouse_lock (s : State) (t : MousePort) : (s.setMouse t).lock = s.lock := rfl
@[simp] theorem State.setMouse_pointer (s : State) (t : MousePort) : (s.setMouse t).pointer = s.pointer := rfl
@[simp] theorem State.setMouse_focus (s : State) (t : MousePort) : (s.setMouse t).focus = s.focus := rfl
@[simp] theorem State.setMouse_mouse (s : State) (t : MousePort) : (s.setMouse t).mouse = t := rfl
@[simp] theorem State.setMouse_keyboard (s : State) (t : MousePort) : (s.setMouse t).keyboard = s.keyboard := rfl
@[simp] theorem State.setMouse_router (s : State) (t : MousePort) : (s.setMouse t).router = s.router := rfl
@[simp] theorem State.setMouse_ports (s : State) (t : MousePort) : (s.setMouse t).ports = s.ports := rfl
@[simp] theorem State.setMouse_hotkeys (s : State) (t : MousePort) : (s.setMouse t).hotkeys = s.hotkeys := rfl
@[simp] theorem State.setMouse_matcher (s : State) (t : MousePort) : (s.setMouse t).matcher = s.matcher := rfl
@[simp] theorem State.setMouse_lineTriggers (s : State) (t : MousePort) : (s.setMouse t).lineTriggers = s.lineTriggers := rfl
@[simp] theorem State.setMouse_inputs (s : State) (t : MousePort) : (s.setMouse t).inputs = s.inputs := rfl
@[simp] theorem State.setMouse_outputs (s : State) (t : MousePort) : (s.setMouse t).outputs = s.outputs := rfl
@[simp] theorem State.setMouse_crosspointStart (s : State) (t : MousePort) : (s.setMouse t).crosspointStart = s.crosspointStart := rfl
@[simp] theorem State.setMouse_scenes (s : State) (t : MousePort) : (s.setMouse t).scenes = s.scenes := rfl
@[simp] theorem State.setMouse_blank (s : State) (t : MousePort) : (s.setMouse t).blank = s.blank := rfl
@[simp] theorem State.setMouse_links (s : State) (t : MousePort) : (s.setMouse t).links = s.links := rfl
@[simp] theorem State.setMouse_controls (s : State) (t : MousePort) : (s.setMouse t).controls = s.controls := rfl
@[simp] theorem State.setMouse_wake (s : State) (t : MousePort) : (s.setMouse t).wake = s.wake := rfl
@[simp] theorem State.setMouse_lines (s : State) (t : MousePort) : (s.setMouse t).lines = s.lines := rfl
@[simp] theorem State.setMouse_sup (s : State) (t : MousePort) : (s.setMouse t).sup = s.sup := rfl
@[simp] theorem State.setMouse_pending (s : State) (t : MousePort) : (s.setMouse t).pending = s.pending := rfl
@[simp] theorem State.setMouse_comp (s : State) (t : MousePort) (j : Comp) : (s.setMouse t).comp j = s.comp j := rfl
@[simp] theorem State.setMouse_headMap (s : State) (t : MousePort) (j : Head) : (s.setMouse t).headMap j = s.headMap j := rfl
@[simp] theorem State.setMouse_port (s : State) (t : MousePort) (j : Comp) : (s.setMouse t).port j = s.port j := rfl
@[simp] theorem State.setMouse_hotkey (s : State) (t : MousePort) (j : Fin 32) : (s.setMouse t).hotkey j = s.hotkey j := rfl
@[simp] theorem State.setMouse_lineTrigger (s : State) (t : MousePort) (j : LineId) : (s.setMouse t).lineTrigger j = s.lineTrigger j := rfl
@[simp] theorem State.setMouse_input (s : State) (t : MousePort) (j : Input) : (s.setMouse t).input j = s.input j := rfl
@[simp] theorem State.setMouse_out (s : State) (t : MousePort) (j : OutputId) : (s.setMouse t).out j = s.out j := rfl
@[simp] theorem State.setMouse_scene (s : State) (t : MousePort) (j : Fin 16) : (s.setMouse t).scene j = s.scene j := rfl
@[simp] theorem State.setMouse_link (s : State) (t : MousePort) (j : LinkId) : (s.setMouse t).link j = s.link j := rfl
@[simp] theorem State.setMouse_control (s : State) (t : MousePort) (j : Comp) : (s.setMouse t).control j = s.control j := rfl
@[simp] theorem State.setMouse_wakeOf (s : State) (t : MousePort) (j : Comp) : (s.setMouse t).wakeOf j = s.wakeOf j := rfl
@[simp] theorem State.setMouse_line (s : State) (t : MousePort) (j : LineId) : (s.setMouse t).line j = s.line j := rfl

/-! ### modKeyboard -/

@[simp] theorem State.modKeyboard_now (s : State) (f : KeyboardPort → KeyboardPort) : (s.modKeyboard f).now = s.now := rfl
@[simp] theorem State.modKeyboard_comps (s : State) (f : KeyboardPort → KeyboardPort) : (s.modKeyboard f).comps = s.comps := rfl
@[simp] theorem State.modKeyboard_heads (s : State) (f : KeyboardPort → KeyboardPort) : (s.modKeyboard f).heads = s.heads := rfl
@[simp] theorem State.modKeyboard_layout (s : State) (f : KeyboardPort → KeyboardPort) : (s.modKeyboard f).layout = s.layout := rfl
@[simp] theorem State.modKeyboard_desk (s : State) (f : KeyboardPort → KeyboardPort) : (s.modKeyboard f).desk = s.desk := rfl
@[simp] theorem State.modKeyboard_lock (s : State) (f : KeyboardPort → KeyboardPort) : (s.modKeyboard f).lock = s.lock := rfl
@[simp] theorem State.modKeyboard_pointer (s : State) (f : KeyboardPort → KeyboardPort) : (s.modKeyboard f).pointer = s.pointer := rfl
@[simp] theorem State.modKeyboard_focus (s : State) (f : KeyboardPort → KeyboardPort) : (s.modKeyboard f).focus = s.focus := rfl
@[simp] theorem State.modKeyboard_mouse (s : State) (f : KeyboardPort → KeyboardPort) : (s.modKeyboard f).mouse = s.mouse := rfl
@[simp] theorem State.modKeyboard_keyboard (s : State) (f : KeyboardPort → KeyboardPort) : (s.modKeyboard f).keyboard = f s.keyboard := rfl
@[simp] theorem State.modKeyboard_router (s : State) (f : KeyboardPort → KeyboardPort) : (s.modKeyboard f).router = s.router := rfl
@[simp] theorem State.modKeyboard_ports (s : State) (f : KeyboardPort → KeyboardPort) : (s.modKeyboard f).ports = s.ports := rfl
@[simp] theorem State.modKeyboard_hotkeys (s : State) (f : KeyboardPort → KeyboardPort) : (s.modKeyboard f).hotkeys = s.hotkeys := rfl
@[simp] theorem State.modKeyboard_matcher (s : State) (f : KeyboardPort → KeyboardPort) : (s.modKeyboard f).matcher = s.matcher := rfl
@[simp] theorem State.modKeyboard_lineTriggers (s : State) (f : KeyboardPort → KeyboardPort) : (s.modKeyboard f).lineTriggers = s.lineTriggers := rfl
@[simp] theorem State.modKeyboard_inputs (s : State) (f : KeyboardPort → KeyboardPort) : (s.modKeyboard f).inputs = s.inputs := rfl
@[simp] theorem State.modKeyboard_outputs (s : State) (f : KeyboardPort → KeyboardPort) : (s.modKeyboard f).outputs = s.outputs := rfl
@[simp] theorem State.modKeyboard_crosspointStart (s : State) (f : KeyboardPort → KeyboardPort) : (s.modKeyboard f).crosspointStart = s.crosspointStart := rfl
@[simp] theorem State.modKeyboard_scenes (s : State) (f : KeyboardPort → KeyboardPort) : (s.modKeyboard f).scenes = s.scenes := rfl
@[simp] theorem State.modKeyboard_blank (s : State) (f : KeyboardPort → KeyboardPort) : (s.modKeyboard f).blank = s.blank := rfl
@[simp] theorem State.modKeyboard_links (s : State) (f : KeyboardPort → KeyboardPort) : (s.modKeyboard f).links = s.links := rfl
@[simp] theorem State.modKeyboard_controls (s : State) (f : KeyboardPort → KeyboardPort) : (s.modKeyboard f).controls = s.controls := rfl
@[simp] theorem State.modKeyboard_wake (s : State) (f : KeyboardPort → KeyboardPort) : (s.modKeyboard f).wake = s.wake := rfl
@[simp] theorem State.modKeyboard_lines (s : State) (f : KeyboardPort → KeyboardPort) : (s.modKeyboard f).lines = s.lines := rfl
@[simp] theorem State.modKeyboard_sup (s : State) (f : KeyboardPort → KeyboardPort) : (s.modKeyboard f).sup = s.sup := rfl
@[simp] theorem State.modKeyboard_pending (s : State) (f : KeyboardPort → KeyboardPort) : (s.modKeyboard f).pending = s.pending := rfl
@[simp] theorem State.modKeyboard_comp (s : State) (f : KeyboardPort → KeyboardPort) (j : Comp) : (s.modKeyboard f).comp j = s.comp j := rfl
@[simp] theorem State.modKeyboard_headMap (s : State) (f : KeyboardPort → KeyboardPort) (j : Head) : (s.modKeyboard f).headMap j = s.headMap j := rfl
@[simp] theorem State.modKeyboard_port (s : State) (f : KeyboardPort → KeyboardPort) (j : Comp) : (s.modKeyboard f).port j = s.port j := rfl
@[simp] theorem State.modKeyboard_hotkey (s : State) (f : KeyboardPort → KeyboardPort) (j : Fin 32) : (s.modKeyboard f).hotkey j = s.hotkey j := rfl
@[simp] theorem State.modKeyboard_lineTrigger (s : State) (f : KeyboardPort → KeyboardPort) (j : LineId) : (s.modKeyboard f).lineTrigger j = s.lineTrigger j := rfl
@[simp] theorem State.modKeyboard_input (s : State) (f : KeyboardPort → KeyboardPort) (j : Input) : (s.modKeyboard f).input j = s.input j := rfl
@[simp] theorem State.modKeyboard_out (s : State) (f : KeyboardPort → KeyboardPort) (j : OutputId) : (s.modKeyboard f).out j = s.out j := rfl
@[simp] theorem State.modKeyboard_scene (s : State) (f : KeyboardPort → KeyboardPort) (j : Fin 16) : (s.modKeyboard f).scene j = s.scene j := rfl
@[simp] theorem State.modKeyboard_link (s : State) (f : KeyboardPort → KeyboardPort) (j : LinkId) : (s.modKeyboard f).link j = s.link j := rfl
@[simp] theorem State.modKeyboard_control (s : State) (f : KeyboardPort → KeyboardPort) (j : Comp) : (s.modKeyboard f).control j = s.control j := rfl
@[simp] theorem State.modKeyboard_wakeOf (s : State) (f : KeyboardPort → KeyboardPort) (j : Comp) : (s.modKeyboard f).wakeOf j = s.wakeOf j := rfl
@[simp] theorem State.modKeyboard_line (s : State) (f : KeyboardPort → KeyboardPort) (j : LineId) : (s.modKeyboard f).line j = s.line j := rfl

/-! ### modRouter -/

@[simp] theorem State.modRouter_now (s : State) (f : Router → Router) : (s.modRouter f).now = s.now := rfl
@[simp] theorem State.modRouter_comps (s : State) (f : Router → Router) : (s.modRouter f).comps = s.comps := rfl
@[simp] theorem State.modRouter_heads (s : State) (f : Router → Router) : (s.modRouter f).heads = s.heads := rfl
@[simp] theorem State.modRouter_layout (s : State) (f : Router → Router) : (s.modRouter f).layout = s.layout := rfl
@[simp] theorem State.modRouter_desk (s : State) (f : Router → Router) : (s.modRouter f).desk = s.desk := rfl
@[simp] theorem State.modRouter_lock (s : State) (f : Router → Router) : (s.modRouter f).lock = s.lock := rfl
@[simp] theorem State.modRouter_pointer (s : State) (f : Router → Router) : (s.modRouter f).pointer = s.pointer := rfl
@[simp] theorem State.modRouter_focus (s : State) (f : Router → Router) : (s.modRouter f).focus = s.focus := rfl
@[simp] theorem State.modRouter_mouse (s : State) (f : Router → Router) : (s.modRouter f).mouse = s.mouse := rfl
@[simp] theorem State.modRouter_keyboard (s : State) (f : Router → Router) : (s.modRouter f).keyboard = s.keyboard := rfl
@[simp] theorem State.modRouter_router (s : State) (f : Router → Router) : (s.modRouter f).router = f s.router := rfl
@[simp] theorem State.modRouter_ports (s : State) (f : Router → Router) : (s.modRouter f).ports = s.ports := rfl
@[simp] theorem State.modRouter_hotkeys (s : State) (f : Router → Router) : (s.modRouter f).hotkeys = s.hotkeys := rfl
@[simp] theorem State.modRouter_matcher (s : State) (f : Router → Router) : (s.modRouter f).matcher = s.matcher := rfl
@[simp] theorem State.modRouter_lineTriggers (s : State) (f : Router → Router) : (s.modRouter f).lineTriggers = s.lineTriggers := rfl
@[simp] theorem State.modRouter_inputs (s : State) (f : Router → Router) : (s.modRouter f).inputs = s.inputs := rfl
@[simp] theorem State.modRouter_outputs (s : State) (f : Router → Router) : (s.modRouter f).outputs = s.outputs := rfl
@[simp] theorem State.modRouter_crosspointStart (s : State) (f : Router → Router) : (s.modRouter f).crosspointStart = s.crosspointStart := rfl
@[simp] theorem State.modRouter_scenes (s : State) (f : Router → Router) : (s.modRouter f).scenes = s.scenes := rfl
@[simp] theorem State.modRouter_blank (s : State) (f : Router → Router) : (s.modRouter f).blank = s.blank := rfl
@[simp] theorem State.modRouter_links (s : State) (f : Router → Router) : (s.modRouter f).links = s.links := rfl
@[simp] theorem State.modRouter_controls (s : State) (f : Router → Router) : (s.modRouter f).controls = s.controls := rfl
@[simp] theorem State.modRouter_wake (s : State) (f : Router → Router) : (s.modRouter f).wake = s.wake := rfl
@[simp] theorem State.modRouter_lines (s : State) (f : Router → Router) : (s.modRouter f).lines = s.lines := rfl
@[simp] theorem State.modRouter_sup (s : State) (f : Router → Router) : (s.modRouter f).sup = s.sup := rfl
@[simp] theorem State.modRouter_pending (s : State) (f : Router → Router) : (s.modRouter f).pending = s.pending := rfl
@[simp] theorem State.modRouter_comp (s : State) (f : Router → Router) (j : Comp) : (s.modRouter f).comp j = s.comp j := rfl
@[simp] theorem State.modRouter_headMap (s : State) (f : Router → Router) (j : Head) : (s.modRouter f).headMap j = s.headMap j := rfl
@[simp] theorem State.modRouter_port (s : State) (f : Router → Router) (j : Comp) : (s.modRouter f).port j = s.port j := rfl
@[simp] theorem State.modRouter_hotkey (s : State) (f : Router → Router) (j : Fin 32) : (s.modRouter f).hotkey j = s.hotkey j := rfl
@[simp] theorem State.modRouter_lineTrigger (s : State) (f : Router → Router) (j : LineId) : (s.modRouter f).lineTrigger j = s.lineTrigger j := rfl
@[simp] theorem State.modRouter_input (s : State) (f : Router → Router) (j : Input) : (s.modRouter f).input j = s.input j := rfl
@[simp] theorem State.modRouter_out (s : State) (f : Router → Router) (j : OutputId) : (s.modRouter f).out j = s.out j := rfl
@[simp] theorem State.modRouter_scene (s : State) (f : Router → Router) (j : Fin 16) : (s.modRouter f).scene j = s.scene j := rfl
@[simp] theorem State.modRouter_link (s : State) (f : Router → Router) (j : LinkId) : (s.modRouter f).link j = s.link j := rfl
@[simp] theorem State.modRouter_control (s : State) (f : Router → Router) (j : Comp) : (s.modRouter f).control j = s.control j := rfl
@[simp] theorem State.modRouter_wakeOf (s : State) (f : Router → Router) (j : Comp) : (s.modRouter f).wakeOf j = s.wakeOf j := rfl
@[simp] theorem State.modRouter_line (s : State) (f : Router → Router) (j : LineId) : (s.modRouter f).line j = s.line j := rfl

/-! ### modMatcher -/

@[simp] theorem State.modMatcher_now (s : State) (f : Matcher → Matcher) : (s.modMatcher f).now = s.now := rfl
@[simp] theorem State.modMatcher_comps (s : State) (f : Matcher → Matcher) : (s.modMatcher f).comps = s.comps := rfl
@[simp] theorem State.modMatcher_heads (s : State) (f : Matcher → Matcher) : (s.modMatcher f).heads = s.heads := rfl
@[simp] theorem State.modMatcher_layout (s : State) (f : Matcher → Matcher) : (s.modMatcher f).layout = s.layout := rfl
@[simp] theorem State.modMatcher_desk (s : State) (f : Matcher → Matcher) : (s.modMatcher f).desk = s.desk := rfl
@[simp] theorem State.modMatcher_lock (s : State) (f : Matcher → Matcher) : (s.modMatcher f).lock = s.lock := rfl
@[simp] theorem State.modMatcher_pointer (s : State) (f : Matcher → Matcher) : (s.modMatcher f).pointer = s.pointer := rfl
@[simp] theorem State.modMatcher_focus (s : State) (f : Matcher → Matcher) : (s.modMatcher f).focus = s.focus := rfl
@[simp] theorem State.modMatcher_mouse (s : State) (f : Matcher → Matcher) : (s.modMatcher f).mouse = s.mouse := rfl
@[simp] theorem State.modMatcher_keyboard (s : State) (f : Matcher → Matcher) : (s.modMatcher f).keyboard = s.keyboard := rfl
@[simp] theorem State.modMatcher_router (s : State) (f : Matcher → Matcher) : (s.modMatcher f).router = s.router := rfl
@[simp] theorem State.modMatcher_ports (s : State) (f : Matcher → Matcher) : (s.modMatcher f).ports = s.ports := rfl
@[simp] theorem State.modMatcher_hotkeys (s : State) (f : Matcher → Matcher) : (s.modMatcher f).hotkeys = s.hotkeys := rfl
@[simp] theorem State.modMatcher_matcher (s : State) (f : Matcher → Matcher) : (s.modMatcher f).matcher = f s.matcher := rfl
@[simp] theorem State.modMatcher_lineTriggers (s : State) (f : Matcher → Matcher) : (s.modMatcher f).lineTriggers = s.lineTriggers := rfl
@[simp] theorem State.modMatcher_inputs (s : State) (f : Matcher → Matcher) : (s.modMatcher f).inputs = s.inputs := rfl
@[simp] theorem State.modMatcher_outputs (s : State) (f : Matcher → Matcher) : (s.modMatcher f).outputs = s.outputs := rfl
@[simp] theorem State.modMatcher_crosspointStart (s : State) (f : Matcher → Matcher) : (s.modMatcher f).crosspointStart = s.crosspointStart := rfl
@[simp] theorem State.modMatcher_scenes (s : State) (f : Matcher → Matcher) : (s.modMatcher f).scenes = s.scenes := rfl
@[simp] theorem State.modMatcher_blank (s : State) (f : Matcher → Matcher) : (s.modMatcher f).blank = s.blank := rfl
@[simp] theorem State.modMatcher_links (s : State) (f : Matcher → Matcher) : (s.modMatcher f).links = s.links := rfl
@[simp] theorem State.modMatcher_controls (s : State) (f : Matcher → Matcher) : (s.modMatcher f).controls = s.controls := rfl
@[simp] theorem State.modMatcher_wake (s : State) (f : Matcher → Matcher) : (s.modMatcher f).wake = s.wake := rfl
@[simp] theorem State.modMatcher_lines (s : State) (f : Matcher → Matcher) : (s.modMatcher f).lines = s.lines := rfl
@[simp] theorem State.modMatcher_sup (s : State) (f : Matcher → Matcher) : (s.modMatcher f).sup = s.sup := rfl
@[simp] theorem State.modMatcher_pending (s : State) (f : Matcher → Matcher) : (s.modMatcher f).pending = s.pending := rfl
@[simp] theorem State.modMatcher_comp (s : State) (f : Matcher → Matcher) (j : Comp) : (s.modMatcher f).comp j = s.comp j := rfl
@[simp] theorem State.modMatcher_headMap (s : State) (f : Matcher → Matcher) (j : Head) : (s.modMatcher f).headMap j = s.headMap j := rfl
@[simp] theorem State.modMatcher_port (s : State) (f : Matcher → Matcher) (j : Comp) : (s.modMatcher f).port j = s.port j := rfl
@[simp] theorem State.modMatcher_hotkey (s : State) (f : Matcher → Matcher) (j : Fin 32) : (s.modMatcher f).hotkey j = s.hotkey j := rfl
@[simp] theorem State.modMatcher_lineTrigger (s : State) (f : Matcher → Matcher) (j : LineId) : (s.modMatcher f).lineTrigger j = s.lineTrigger j := rfl
@[simp] theorem State.modMatcher_input (s : State) (f : Matcher → Matcher) (j : Input) : (s.modMatcher f).input j = s.input j := rfl
@[simp] theorem State.modMatcher_out (s : State) (f : Matcher → Matcher) (j : OutputId) : (s.modMatcher f).out j = s.out j := rfl
@[simp] theorem State.modMatcher_scene (s : State) (f : Matcher → Matcher) (j : Fin 16) : (s.modMatcher f).scene j = s.scene j := rfl
@[simp] theorem State.modMatcher_link (s : State) (f : Matcher → Matcher) (j : LinkId) : (s.modMatcher f).link j = s.link j := rfl
@[simp] theorem State.modMatcher_control (s : State) (f : Matcher → Matcher) (j : Comp) : (s.modMatcher f).control j = s.control j := rfl
@[simp] theorem State.modMatcher_wakeOf (s : State) (f : Matcher → Matcher) (j : Comp) : (s.modMatcher f).wakeOf j = s.wakeOf j := rfl
@[simp] theorem State.modMatcher_line (s : State) (f : Matcher → Matcher) (j : LineId) : (s.modMatcher f).line j = s.line j := rfl

/-! ### setCrosspointStart -/

@[simp] theorem State.setCrosspointStart_now (s : State) (t : Option Nat) : (s.setCrosspointStart t).now = s.now := rfl
@[simp] theorem State.setCrosspointStart_comps (s : State) (t : Option Nat) : (s.setCrosspointStart t).comps = s.comps := rfl
@[simp] theorem State.setCrosspointStart_heads (s : State) (t : Option Nat) : (s.setCrosspointStart t).heads = s.heads := rfl
@[simp] theorem State.setCrosspointStart_layout (s : State) (t : Option Nat) : (s.setCrosspointStart t).layout = s.layout := rfl
@[simp] theorem State.setCrosspointStart_desk (s : State) (t : Option Nat) : (s.setCrosspointStart t).desk = s.desk := rfl
@[simp] theorem State.setCrosspointStart_lock (s : State) (t : Option Nat) : (s.setCrosspointStart t).lock = s.lock := rfl
@[simp] theorem State.setCrosspointStart_pointer (s : State) (t : Option Nat) : (s.setCrosspointStart t).pointer = s.pointer := rfl
@[simp] theorem State.setCrosspointStart_focus (s : State) (t : Option Nat) : (s.setCrosspointStart t).focus = s.focus := rfl
@[simp] theorem State.setCrosspointStart_mouse (s : State) (t : Option Nat) : (s.setCrosspointStart t).mouse = s.mouse := rfl
@[simp] theorem State.setCrosspointStart_keyboard (s : State) (t : Option Nat) : (s.setCrosspointStart t).keyboard = s.keyboard := rfl
@[simp] theorem State.setCrosspointStart_router (s : State) (t : Option Nat) : (s.setCrosspointStart t).router = s.router := rfl
@[simp] theorem State.setCrosspointStart_ports (s : State) (t : Option Nat) : (s.setCrosspointStart t).ports = s.ports := rfl
@[simp] theorem State.setCrosspointStart_hotkeys (s : State) (t : Option Nat) : (s.setCrosspointStart t).hotkeys = s.hotkeys := rfl
@[simp] theorem State.setCrosspointStart_matcher (s : State) (t : Option Nat) : (s.setCrosspointStart t).matcher = s.matcher := rfl
@[simp] theorem State.setCrosspointStart_lineTriggers (s : State) (t : Option Nat) : (s.setCrosspointStart t).lineTriggers = s.lineTriggers := rfl
@[simp] theorem State.setCrosspointStart_inputs (s : State) (t : Option Nat) : (s.setCrosspointStart t).inputs = s.inputs := rfl
@[simp] theorem State.setCrosspointStart_outputs (s : State) (t : Option Nat) : (s.setCrosspointStart t).outputs = s.outputs := rfl
@[simp] theorem State.setCrosspointStart_crosspointStart (s : State) (t : Option Nat) : (s.setCrosspointStart t).crosspointStart = t := rfl
@[simp] theorem State.setCrosspointStart_scenes (s : State) (t : Option Nat) : (s.setCrosspointStart t).scenes = s.scenes := rfl
@[simp] theorem State.setCrosspointStart_blank (s : State) (t : Option Nat) : (s.setCrosspointStart t).blank = s.blank := rfl
@[simp] theorem State.setCrosspointStart_links (s : State) (t : Option Nat) : (s.setCrosspointStart t).links = s.links := rfl
@[simp] theorem State.setCrosspointStart_controls (s : State) (t : Option Nat) : (s.setCrosspointStart t).controls = s.controls := rfl
@[simp] theorem State.setCrosspointStart_wake (s : State) (t : Option Nat) : (s.setCrosspointStart t).wake = s.wake := rfl
@[simp] theorem State.setCrosspointStart_lines (s : State) (t : Option Nat) : (s.setCrosspointStart t).lines = s.lines := rfl
@[simp] theorem State.setCrosspointStart_sup (s : State) (t : Option Nat) : (s.setCrosspointStart t).sup = s.sup := rfl
@[simp] theorem State.setCrosspointStart_pending (s : State) (t : Option Nat) : (s.setCrosspointStart t).pending = s.pending := rfl
@[simp] theorem State.setCrosspointStart_comp (s : State) (t : Option Nat) (j : Comp) : (s.setCrosspointStart t).comp j = s.comp j := rfl
@[simp] theorem State.setCrosspointStart_headMap (s : State) (t : Option Nat) (j : Head) : (s.setCrosspointStart t).headMap j = s.headMap j := rfl
@[simp] theorem State.setCrosspointStart_port (s : State) (t : Option Nat) (j : Comp) : (s.setCrosspointStart t).port j = s.port j := rfl
@[simp] theorem State.setCrosspointStart_hotkey (s : State) (t : Option Nat) (j : Fin 32) : (s.setCrosspointStart t).hotkey j = s.hotkey j := rfl
@[simp] theorem State.setCrosspointStart_lineTrigger (s : State) (t : Option Nat) (j : LineId) : (s.setCrosspointStart t).lineTrigger j = s.lineTrigger j := rfl
@[simp] theorem State.setCrosspointStart_input (s : State) (t : Option Nat) (j : Input) : (s.setCrosspointStart t).input j = s.input j := rfl
@[simp] theorem State.setCrosspointStart_out (s : State) (t : Option Nat) (j : OutputId) : (s.setCrosspointStart t).out j = s.out j := rfl
@[simp] theorem State.setCrosspointStart_scene (s : State) (t : Option Nat) (j : Fin 16) : (s.setCrosspointStart t).scene j = s.scene j := rfl
@[simp] theorem State.setCrosspointStart_link (s : State) (t : Option Nat) (j : LinkId) : (s.setCrosspointStart t).link j = s.link j := rfl
@[simp] theorem State.setCrosspointStart_control (s : State) (t : Option Nat) (j : Comp) : (s.setCrosspointStart t).control j = s.control j := rfl
@[simp] theorem State.setCrosspointStart_wakeOf (s : State) (t : Option Nat) (j : Comp) : (s.setCrosspointStart t).wakeOf j = s.wakeOf j := rfl
@[simp] theorem State.setCrosspointStart_line (s : State) (t : Option Nat) (j : LineId) : (s.setCrosspointStart t).line j = s.line j := rfl

/-! ### modBlank -/

@[simp] theorem State.modBlank_now (s : State) (f : BlankUnit → BlankUnit) : (s.modBlank f).now = s.now := rfl
@[simp] theorem State.modBlank_comps (s : State) (f : BlankUnit → BlankUnit) : (s.modBlank f).comps = s.comps := rfl
@[simp] theorem State.modBlank_heads (s : State) (f : BlankUnit → BlankUnit) : (s.modBlank f).heads = s.heads := rfl
@[simp] theorem State.modBlank_layout (s : State) (f : BlankUnit → BlankUnit) : (s.modBlank f).layout = s.layout := rfl
@[simp] theorem State.modBlank_desk (s : State) (f : BlankUnit → BlankUnit) : (s.modBlank f).desk = s.desk := rfl
@[simp] theorem State.modBlank_lock (s : State) (f : BlankUnit → BlankUnit) : (s.modBlank f).lock = s.lock := rfl
@[simp] theorem State.modBlank_pointer (s : State) (f : BlankUnit → BlankUnit) : (s.modBlank f).pointer = s.pointer := rfl
@[simp] theorem State.modBlank_focus (s : State) (f : BlankUnit → BlankUnit) : (s.modBlank f).focus = s.focus := rfl
@[simp] theorem State.modBlank_mouse (s : State) (f : BlankUnit → BlankUnit) : (s.modBlank f).mouse = s.mouse := rfl
@[simp] theorem State.modBlank_keyboard (s : State) (f : BlankUnit → BlankUnit) : (s.modBlank f).keyboard = s.keyboard := rfl
@[simp] theorem State.modBlank_router (s : State) (f : BlankUnit → BlankUnit) : (s.modBlank f).router = s.router := rfl
@[simp] theorem State.modBlank_ports (s : State) (f : BlankUnit → BlankUnit) : (s.modBlank f).ports = s.ports := rfl
@[simp] theorem State.modBlank_hotkeys (s : State) (f : BlankUnit → BlankUnit) : (s.modBlank f).hotkeys = s.hotkeys := rfl
@[simp] theorem State.modBlank_matcher (s : State) (f : BlankUnit → BlankUnit) : (s.modBlank f).matcher = s.matcher := rfl
@[simp] theorem State.modBlank_lineTriggers (s : State) (f : BlankUnit → BlankUnit) : (s.modBlank f).lineTriggers = s.lineTriggers := rfl
@[simp] theorem State.modBlank_inputs (s : State) (f : BlankUnit → BlankUnit) : (s.modBlank f).inputs = s.inputs := rfl
@[simp] theorem State.modBlank_outputs (s : State) (f : BlankUnit → BlankUnit) : (s.modBlank f).outputs = s.outputs := rfl
@[simp] theorem State.modBlank_crosspointStart (s : State) (f : BlankUnit → BlankUnit) : (s.modBlank f).crosspointStart = s.crosspointStart := rfl
@[simp] theorem State.modBlank_scenes (s : State) (f : BlankUnit → BlankUnit) : (s.modBlank f).scenes = s.scenes := rfl
@[simp] theorem State.modBlank_blank (s : State) (f : BlankUnit → BlankUnit) : (s.modBlank f).blank = f s.blank := rfl
@[simp] theorem State.modBlank_links (s : State) (f : BlankUnit → BlankUnit) : (s.modBlank f).links = s.links := rfl
@[simp] theorem State.modBlank_controls (s : State) (f : BlankUnit → BlankUnit) : (s.modBlank f).controls = s.controls := rfl
@[simp] theorem State.modBlank_wake (s : State) (f : BlankUnit → BlankUnit) : (s.modBlank f).wake = s.wake := rfl
@[simp] theorem State.modBlank_lines (s : State) (f : BlankUnit → BlankUnit) : (s.modBlank f).lines = s.lines := rfl
@[simp] theorem State.modBlank_sup (s : State) (f : BlankUnit → BlankUnit) : (s.modBlank f).sup = s.sup := rfl
@[simp] theorem State.modBlank_pending (s : State) (f : BlankUnit → BlankUnit) : (s.modBlank f).pending = s.pending := rfl
@[simp] theorem State.modBlank_comp (s : State) (f : BlankUnit → BlankUnit) (j : Comp) : (s.modBlank f).comp j = s.comp j := rfl
@[simp] theorem State.modBlank_headMap (s : State) (f : BlankUnit → BlankUnit) (j : Head) : (s.modBlank f).headMap j = s.headMap j := rfl
@[simp] theorem State.modBlank_port (s : State) (f : BlankUnit → BlankUnit) (j : Comp) : (s.modBlank f).port j = s.port j := rfl
@[simp] theorem State.modBlank_hotkey (s : State) (f : BlankUnit → BlankUnit) (j : Fin 32) : (s.modBlank f).hotkey j = s.hotkey j := rfl
@[simp] theorem State.modBlank_lineTrigger (s : State) (f : BlankUnit → BlankUnit) (j : LineId) : (s.modBlank f).lineTrigger j = s.lineTrigger j := rfl
@[simp] theorem State.modBlank_input (s : State) (f : BlankUnit → BlankUnit) (j : Input) : (s.modBlank f).input j = s.input j := rfl
@[simp] theorem State.modBlank_out (s : State) (f : BlankUnit → BlankUnit) (j : OutputId) : (s.modBlank f).out j = s.out j := rfl
@[simp] theorem State.modBlank_scene (s : State) (f : BlankUnit → BlankUnit) (j : Fin 16) : (s.modBlank f).scene j = s.scene j := rfl
@[simp] theorem State.modBlank_link (s : State) (f : BlankUnit → BlankUnit) (j : LinkId) : (s.modBlank f).link j = s.link j := rfl
@[simp] theorem State.modBlank_control (s : State) (f : BlankUnit → BlankUnit) (j : Comp) : (s.modBlank f).control j = s.control j := rfl
@[simp] theorem State.modBlank_wakeOf (s : State) (f : BlankUnit → BlankUnit) (j : Comp) : (s.modBlank f).wakeOf j = s.wakeOf j := rfl
@[simp] theorem State.modBlank_line (s : State) (f : BlankUnit → BlankUnit) (j : LineId) : (s.modBlank f).line j = s.line j := rfl

/-! ### modSup -/

@[simp] theorem State.modSup_now (s : State) (f : Supervisor → Supervisor) : (s.modSup f).now = s.now := rfl
@[simp] theorem State.modSup_comps (s : State) (f : Supervisor → Supervisor) : (s.modSup f).comps = s.comps := rfl
@[simp] theorem State.modSup_heads (s : State) (f : Supervisor → Supervisor) : (s.modSup f).heads = s.heads := rfl
@[simp] theorem State.modSup_layout (s : State) (f : Supervisor → Supervisor) : (s.modSup f).layout = s.layout := rfl
@[simp] theorem State.modSup_desk (s : State) (f : Supervisor → Supervisor) : (s.modSup f).desk = s.desk := rfl
@[simp] theorem State.modSup_lock (s : State) (f : Supervisor → Supervisor) : (s.modSup f).lock = s.lock := rfl
@[simp] theorem State.modSup_pointer (s : State) (f : Supervisor → Supervisor) : (s.modSup f).pointer = s.pointer := rfl
@[simp] theorem State.modSup_focus (s : State) (f : Supervisor → Supervisor) : (s.modSup f).focus = s.focus := rfl
@[simp] theorem State.modSup_mouse (s : State) (f : Supervisor → Supervisor) : (s.modSup f).mouse = s.mouse := rfl
@[simp] theorem State.modSup_keyboard (s : State) (f : Supervisor → Supervisor) : (s.modSup f).keyboard = s.keyboard := rfl
@[simp] theorem State.modSup_router (s : State) (f : Supervisor → Supervisor) : (s.modSup f).router = s.router := rfl
@[simp] theorem State.modSup_ports (s : State) (f : Supervisor → Supervisor) : (s.modSup f).ports = s.ports := rfl
@[simp] theorem State.modSup_hotkeys (s : State) (f : Supervisor → Supervisor) : (s.modSup f).hotkeys = s.hotkeys := rfl
@[simp] theorem State.modSup_matcher (s : State) (f : Supervisor → Supervisor) : (s.modSup f).matcher = s.matcher := rfl
@[simp] theorem State.modSup_lineTriggers (s : State) (f : Supervisor → Supervisor) : (s.modSup f).lineTriggers = s.lineTriggers := rfl
@[simp] theorem State.modSup_inputs (s : State) (f : Supervisor → Supervisor) : (s.modSup f).inputs = s.inputs := rfl
@[simp] theorem State.modSup_outputs (s : State) (f : Supervisor → Supervisor) : (s.modSup f).outputs = s.outputs := rfl
@[simp] theorem State.modSup_crosspointStart (s : State) (f : Supervisor → Supervisor) : (s.modSup f).crosspointStart = s.crosspointStart := rfl
@[simp] theorem State.modSup_scenes (s : State) (f : Supervisor → Supervisor) : (s.modSup f).scenes = s.scenes := rfl
@[simp] theorem State.modSup_blank (s : State) (f : Supervisor → Supervisor) : (s.modSup f).blank = s.blank := rfl
@[simp] theorem State.modSup_links (s : State) (f : Supervisor → Supervisor) : (s.modSup f).links = s.links := rfl
@[simp] theorem State.modSup_controls (s : State) (f : Supervisor → Supervisor) : (s.modSup f).controls = s.controls := rfl
@[simp] theorem State.modSup_wake (s : State) (f : Supervisor → Supervisor) : (s.modSup f).wake = s.wake := rfl
@[simp] theorem State.modSup_lines (s : State) (f : Supervisor → Supervisor) : (s.modSup f).lines = s.lines := rfl
@[simp] theorem State.modSup_sup (s : State) (f : Supervisor → Supervisor) : (s.modSup f).sup = f s.sup := rfl
@[simp] theorem State.modSup_pending (s : State) (f : Supervisor → Supervisor) : (s.modSup f).pending = s.pending := rfl
@[simp] theorem State.modSup_comp (s : State) (f : Supervisor → Supervisor) (j : Comp) : (s.modSup f).comp j = s.comp j := rfl
@[simp] theorem State.modSup_headMap (s : State) (f : Supervisor → Supervisor) (j : Head) : (s.modSup f).headMap j = s.headMap j := rfl
@[simp] theorem State.modSup_port (s : State) (f : Supervisor → Supervisor) (j : Comp) : (s.modSup f).port j = s.port j := rfl
@[simp] theorem State.modSup_hotkey (s : State) (f : Supervisor → Supervisor) (j : Fin 32) : (s.modSup f).hotkey j = s.hotkey j := rfl
@[simp] theorem State.modSup_lineTrigger (s : State) (f : Supervisor → Supervisor) (j : LineId) : (s.modSup f).lineTrigger j = s.lineTrigger j := rfl
@[simp] theorem State.modSup_input (s : State) (f : Supervisor → Supervisor) (j : Input) : (s.modSup f).input j = s.input j := rfl
@[simp] theorem State.modSup_out (s : State) (f : Supervisor → Supervisor) (j : OutputId) : (s.modSup f).out j = s.out j := rfl
@[simp] theorem State.modSup_scene (s : State) (f : Supervisor → Supervisor) (j : Fin 16) : (s.modSup f).scene j = s.scene j := rfl
@[simp] theorem State.modSup_link (s : State) (f : Supervisor → Supervisor) (j : LinkId) : (s.modSup f).link j = s.link j := rfl
@[simp] theorem State.modSup_control (s : State) (f : Supervisor → Supervisor) (j : Comp) : (s.modSup f).control j = s.control j := rfl
@[simp] theorem State.modSup_wakeOf (s : State) (f : Supervisor → Supervisor) (j : Comp) : (s.modSup f).wakeOf j = s.wakeOf j := rfl
@[simp] theorem State.modSup_line (s : State) (f : Supervisor → Supervisor) (j : LineId) : (s.modSup f).line j = s.line j := rfl

/-! ### setPending -/

@[simp] theorem State.setPending_now (s : State) (t : List Instr) : (s.setPending t).now = s.now := rfl
@[simp] theorem State.setPending_comps (s : State) (t : List Instr) : (s.setPending t).comps = s.comps := rfl
@[simp] theorem State.setPending_heads (s : State) (t : List Instr) : (s.setPending t).heads = s.heads := rfl
@[simp] theorem State.setPending_layout (s : State) (t : List Instr) : (s.setPending t).layout = s.layout := rfl
@[simp] theorem State.setPending_desk (s : State) (t : List Instr) : (s.setPending t).desk = s.desk := rfl
@[simp] theorem State.setPending_lock (s : State) (t : List Instr) : (s.setPending t).lock = s.lock := rfl
@[simp] theorem State.setPending_pointer (s : State) (t : List Instr) : (s.setPending t).pointer = s.pointer := rfl
@[simp] theorem State.setPending_focus (s : State) (t : List Instr) : (s.setPending t).focus = s.focus := rfl
@[simp] theorem State.setPending_mouse (s : State) (t : List Instr) : (s.setPending t).mouse = s.mouse := rfl
@[simp] theorem State.setPending_keyboard (s : State) (t : List Instr) : (s.setPending t).keyboard = s.keyboard := rfl
@[simp] theorem State.setPending_router (s : State) (t : List Instr) : (s.setPending t).router = s.router := rfl
@[simp] theorem State.setPending_ports (s : State) (t : List Instr) : (s.setPending t).ports = s.ports := rfl
@[simp] theorem State.setPending_hotkeys (s : State) (t : List Instr) : (s.setPending t).hotkeys = s.hotkeys := rfl
@[simp] theorem State.setPending_matcher (s : State) (t : List Instr) : (s.setPending t).matcher = s.matcher := rfl
@[simp] theorem State.setPending_lineTriggers (s : State) (t : List Instr) : (s.setPending t).lineTriggers = s.lineTriggers := rfl
@[simp] theorem State.setPending_inputs (s : State) (t : List Instr) : (s.setPending t).inputs = s.inputs := rfl
@[simp] theorem State.setPending_outputs (s : State) (t : List Instr) : (s.setPending t).outputs = s.outputs := rfl
@[simp] theorem State.setPending_crosspointStart (s : State) (t : List Instr) : (s.setPending t).crosspointStart = s.crosspointStart := rfl
@[simp] theorem State.setPending_scenes (s : State) (t : List Instr) : (s.setPending t).scenes = s.scenes := rfl
@[simp] theorem State.setPending_blank (s : State) (t : List Instr) : (s.setPending t).blank = s.blank := rfl
@[simp] theorem State.setPending_links (s : State) (t : List Instr) : (s.setPending t).links = s.links := rfl
@[simp] theorem State.setPending_controls (s : State) (t : List Instr) : (s.setPending t).controls = s.controls := rfl
@[simp] theorem State.setPending_wake (s : State) (t : List Instr) : (s.setPending t).wake = s.wake := rfl
@[simp] theorem State.setPending_lines (s : State) (t : List Instr) : (s.setPending t).lines = s.lines := rfl
@[simp] theorem State.setPending_sup (s : State) (t : List Instr) : (s.setPending t).sup = s.sup := rfl
@[simp] theorem State.setPending_pending (s : State) (t : List Instr) : (s.setPending t).pending = t := rfl
@[simp] theorem State.setPending_comp (s : State) (t : List Instr) (j : Comp) : (s.setPending t).comp j = s.comp j := rfl
@[simp] theorem State.setPending_headMap (s : State) (t : List Instr) (j : Head) : (s.setPending t).headMap j = s.headMap j := rfl
@[simp] theorem State.setPending_port (s : State) (t : List Instr) (j : Comp) : (s.setPending t).port j = s.port j := rfl
@[simp] theorem State.setPending_hotkey (s : State) (t : List Instr) (j : Fin 32) : (s.setPending t).hotkey j = s.hotkey j := rfl
@[simp] theorem State.setPending_lineTrigger (s : State) (t : List Instr) (j : LineId) : (s.setPending t).lineTrigger j = s.lineTrigger j := rfl
@[simp] theorem State.setPending_input (s : State) (t : List Instr) (j : Input) : (s.setPending t).input j = s.input j := rfl
@[simp] theorem State.setPending_out (s : State) (t : List Instr) (j : OutputId) : (s.setPending t).out j = s.out j := rfl
@[simp] theorem State.setPending_scene (s : State) (t : List Instr) (j : Fin 16) : (s.setPending t).scene j = s.scene j := rfl
@[simp] theorem State.setPending_link (s : State) (t : List Instr) (j : LinkId) : (s.setPending t).link j = s.link j := rfl
@[simp] theorem State.setPending_control (s : State) (t : List Instr) (j : Comp) : (s.setPending t).control j = s.control j := rfl
@[simp] theorem State.setPending_wakeOf (s : State) (t : List Instr) (j : Comp) : (s.setPending t).wakeOf j = s.wakeOf j := rfl
@[simp] theorem State.setPending_line (s : State) (t : List Instr) (j : LineId) : (s.setPending t).line j = s.line j := rfl

/-! ### modComp -/

@[simp] theorem State.modComp_now (s : State) (n : Comp) (f : CompRecord → CompRecord) : (s.modComp n f).now = s.now := rfl
@[simp] theorem State.modComp_heads (s : State) (n : Comp) (f : CompRecord → CompRecord) : (s.modComp n f).heads = s.heads := rfl
@[simp] theorem State.modComp_layout (s : State) (n : Comp) (f : CompRecord → CompRecord) : (s.modComp n f).layout = s.layout := rfl
@[simp] theorem State.modComp_desk (s : State) (n : Comp) (f : CompRecord → CompRecord) : (s.modComp n f).desk = s.desk := rfl
@[simp] theorem State.modComp_lock (s : State) (n : Comp) (f : CompRecord → CompRecord) : (s.modComp n f).lock = s.lock := rfl
@[simp] theorem State.modComp_pointer (s : State) (n : Comp) (f : CompRecord → CompRecord) : (s.modComp n f).pointer = s.pointer := rfl
@[simp] theorem State.modComp_focus (s : State) (n : Comp) (f : CompRecord → CompRecord) : (s.modComp n f).focus = s.focus := rfl
@[simp] theorem State.modComp_mouse (s : State) (n : Comp) (f : CompRecord → CompRecord) : (s.modComp n f).mouse = s.mouse := rfl
@[simp] theorem State.modComp_keyboard (s : State) (n : Comp) (f : CompRecord → CompRecord) : (s.modComp n f).keyboard = s.keyboard := rfl
@[simp] theorem State.modComp_router (s : State) (n : Comp) (f : CompRecord → CompRecord) : (s.modComp n f).router = s.router := rfl
@[simp] theorem State.modComp_ports (s : State) (n : Comp) (f : CompRecord → CompRecord) : (s.modComp n f).ports = s.ports := rfl
@[simp] theorem State.modComp_hotkeys (s : State) (n : Comp) (f : CompRecord → CompRecord) : (s.modComp n f).hotkeys = s.hotkeys := rfl
@[simp] theorem State.modComp_matcher (s : State) (n : Comp) (f : CompRecord → CompRecord) : (s.modComp n f).matcher = s.matcher := rfl
@[simp] theorem State.modComp_lineTriggers (s : State) (n : Comp) (f : CompRecord → CompRecord) : (s.modComp n f).lineTriggers = s.lineTriggers := rfl
@[simp] theorem State.modComp_inputs (s : State) (n : Comp) (f : CompRecord → CompRecord) : (s.modComp n f).inputs = s.inputs := rfl
@[simp] theorem State.modComp_outputs (s : State) (n : Comp) (f : CompRecord → CompRecord) : (s.modComp n f).outputs = s.outputs := rfl
@[simp] theorem State.modComp_crosspointStart (s : State) (n : Comp) (f : CompRecord → CompRecord) : (s.modComp n f).crosspointStart = s.crosspointStart := rfl
@[simp] theorem State.modComp_scenes (s : State) (n : Comp) (f : CompRecord → CompRecord) : (s.modComp n f).scenes = s.scenes := rfl
@[simp] theorem State.modComp_blank (s : State) (n : Comp) (f : CompRecord → CompRecord) : (s.modComp n f).blank = s.blank := rfl
@[simp] theorem State.modComp_links (s : State) (n : Comp) (f : CompRecord → CompRecord) : (s.modComp n f).links = s.links := rfl
@[simp] theorem State.modComp_controls (s : State) (n : Comp) (f : CompRecord → CompRecord) : (s.modComp n f).controls = s.controls := rfl
@[simp] theorem State.modComp_wake (s : State) (n : Comp) (f : CompRecord → CompRecord) : (s.modComp n f).wake = s.wake := rfl
@[simp] theorem State.modComp_lines (s : State) (n : Comp) (f : CompRecord → CompRecord) : (s.modComp n f).lines = s.lines := rfl
@[simp] theorem State.modComp_sup (s : State) (n : Comp) (f : CompRecord → CompRecord) : (s.modComp n f).sup = s.sup := rfl
@[simp] theorem State.modComp_pending (s : State) (n : Comp) (f : CompRecord → CompRecord) : (s.modComp n f).pending = s.pending := rfl
theorem State.modComp_comp (s : State) (n j : Comp) (f : CompRecord → CompRecord) :
    (s.modComp n f).comp j = if j = n then f (s.comp j) else s.comp j := by
  simp [State.modComp, State.comp, pick_upd]
@[simp] theorem State.modComp_comp_same (s : State) (n : Comp) (f : CompRecord → CompRecord) : (s.modComp n f).comp n = f (s.comp n) := by
  simp [State.modComp_comp]
theorem State.modComp_comp_ne (s : State) (n j : Comp) (f : CompRecord → CompRecord) (hne : j ≠ n) : (s.modComp n f).comp j = s.comp j := by
  simp [State.modComp_comp, hne]
@[simp] theorem State.modComp_headMap (s : State) (n : Comp) (f : CompRecord → CompRecord) (j : Head) : (s.modComp n f).headMap j = s.headMap j := rfl
@[simp] theorem State.modComp_port (s : State) (n : Comp) (f : CompRecord → CompRecord) (j : Comp) : (s.modComp n f).port j = s.port j := rfl
@[simp] theorem State.modComp_hotkey (s : State) (n : Comp) (f : CompRecord → CompRecord) (j : Fin 32) : (s.modComp n f).hotkey j = s.hotkey j := rfl
@[simp] theorem State.modComp_lineTrigger (s : State) (n : Comp) (f : CompRecord → CompRecord) (j : LineId) : (s.modComp n f).lineTrigger j = s.lineTrigger j := rfl
@[simp] theorem State.modComp_input (s : State) (n : Comp) (f : CompRecord → CompRecord) (j : Input) : (s.modComp n f).input j = s.input j := rfl
@[simp] theorem State.modComp_out (s : State) (n : Comp) (f : CompRecord → CompRecord) (j : OutputId) : (s.modComp n f).out j = s.out j := rfl
@[simp] theorem State.modComp_scene (s : State) (n : Comp) (f : CompRecord → CompRecord) (j : Fin 16) : (s.modComp n f).scene j = s.scene j := rfl
@[simp] theorem State.modComp_link (s : State) (n : Comp) (f : CompRecord → CompRecord) (j : LinkId) : (s.modComp n f).link j = s.link j := rfl
@[simp] theorem State.modComp_control (s : State) (n : Comp) (f : CompRecord → CompRecord) (j : Comp) : (s.modComp n f).control j = s.control j := rfl
@[simp] theorem State.modComp_wakeOf (s : State) (n : Comp) (f : CompRecord → CompRecord) (j : Comp) : (s.modComp n f).wakeOf j = s.wakeOf j := rfl
@[simp] theorem State.modComp_line (s : State) (n : Comp) (f : CompRecord → CompRecord) (j : LineId) : (s.modComp n f).line j = s.line j := rfl

/-! ### setHeadMap -/

@[simp] theorem State.setHeadMap_now (s : State) (h : Head) (v : HeadMap) : (s.setHeadMap h v).now = s.now := rfl
@[simp] theorem State.setHeadMap_comps (s : State) (h : Head) (v : HeadMap) : (s.setHeadMap h v).comps = s.comps := rfl
@[simp] theorem State.setHeadMap_layout (s : State) (h : Head) (v : HeadMap) : (s.setHeadMap h v).layout = s.layout := rfl
@[simp] theorem State.setHeadMap_desk (s : State) (h : Head) (v : HeadMap) : (s.setHeadMap h v).desk = s.desk := rfl
@[simp] theorem State.setHeadMap_lock (s : State) (h : Head) (v : HeadMap) : (s.setHeadMap h v).lock = s.lock := rfl
@[simp] theorem State.setHeadMap_pointer (s : State) (h : Head) (v : HeadMap) : (s.setHeadMap h v).pointer = s.pointer := rfl
@[simp] theorem State.setHeadMap_focus (s : State) (h : Head) (v : HeadMap) : (s.setHeadMap h v).focus = s.focus := rfl
@[simp] theorem State.setHeadMap_mouse (s : State) (h : Head) (v : HeadMap) : (s.setHeadMap h v).mouse = s.mouse := rfl
@[simp] theorem State.setHeadMap_keyboard (s : State) (h : Head) (v : HeadMap) : (s.setHeadMap h v).keyboard = s.keyboard := rfl
@[simp] theorem State.setHeadMap_router (s : State) (h : Head) (v : HeadMap) : (s.setHeadMap h v).router = s.router := rfl
@[simp] theorem State.setHeadMap_ports (s : State) (h : Head) (v : HeadMap) : (s.setHeadMap h v).ports = s.ports := rfl
@[simp] theorem State.setHeadMap_hotkeys (s : State) (h : Head) (v : HeadMap) : (s.setHeadMap h v).hotkeys = s.hotkeys := rfl
@[simp] theorem State.setHeadMap_matcher (s : State) (h : Head) (v : HeadMap) : (s.setHeadMap h v).matcher = s.matcher := rfl
@[simp] theorem State.setHeadMap_lineTriggers (s : State) (h : Head) (v : HeadMap) : (s.setHeadMap h v).lineTriggers = s.lineTriggers := rfl
@[simp] theorem State.setHeadMap_inputs (s : State) (h : Head) (v : HeadMap) : (s.setHeadMap h v).inputs = s.inputs := rfl
@[simp] theorem State.setHeadMap_outputs (s : State) (h : Head) (v : HeadMap) : (s.setHeadMap h v).outputs = s.outputs := rfl
@[simp] theorem State.setHeadMap_crosspointStart (s : State) (h : Head) (v : HeadMap) : (s.setHeadMap h v).crosspointStart = s.crosspointStart := rfl
@[simp] theorem State.setHeadMap_scenes (s : State) (h : Head) (v : HeadMap) : (s.setHeadMap h v).scenes = s.scenes := rfl
@[simp] theorem State.setHeadMap_blank (s : State) (h : Head) (v : HeadMap) : (s.setHeadMap h v).blank = s.blank := rfl
@[simp] theorem State.setHeadMap_links (s : State) (h : Head) (v : HeadMap) : (s.setHeadMap h v).links = s.links := rfl
@[simp] theorem State.setHeadMap_controls (s : State) (h : Head) (v : HeadMap) : (s.setHeadMap h v).controls = s.controls := rfl
@[simp] theorem State.setHeadMap_wake (s : State) (h : Head) (v : HeadMap) : (s.setHeadMap h v).wake = s.wake := rfl
@[simp] theorem State.setHeadMap_lines (s : State) (h : Head) (v : HeadMap) : (s.setHeadMap h v).lines = s.lines := rfl
@[simp] theorem State.setHeadMap_sup (s : State) (h : Head) (v : HeadMap) : (s.setHeadMap h v).sup = s.sup := rfl
@[simp] theorem State.setHeadMap_pending (s : State) (h : Head) (v : HeadMap) : (s.setHeadMap h v).pending = s.pending := rfl
@[simp] theorem State.setHeadMap_comp (s : State) (h : Head) (v : HeadMap) (j : Comp) : (s.setHeadMap h v).comp j = s.comp j := rfl
theorem State.setHeadMap_headMap (s : State) (h j : Head) (v : HeadMap) :
    (s.setHeadMap h v).headMap j = if j = h then v else s.headMap j := by
  simp [State.setHeadMap, State.headMap, pick_upd]
@[simp] theorem State.setHeadMap_headMap_same (s : State) (h : Head) (v : HeadMap) : (s.setHeadMap h v).headMap h = v := by
  simp [State.setHeadMap_headMap]
theorem State.setHeadMap_headMap_ne (s : State) (h j : Head) (v : HeadMap) (hne : j ≠ h) : (s.setHeadMap h v).headMap j = s.headMap j := by
  simp [State.setHeadMap_headMap, hne]
@[simp] theorem State.setHeadMap_port (s : State) (h : Head) (v : HeadMap) (j : Comp) : (s.setHeadMap h v).port j = s.port j := rfl
@[simp] theorem State.setHeadMap_hotkey (s : State) (h : Head) (v : HeadMap) (j : Fin 32) : (s.setHeadMap h v).hotkey j = s.hotkey j := rfl
@[simp] theorem State.setHeadMap_lineTrigger (s : State) (h : Head) (v : HeadMap) (j : LineId) : (s.setHeadMap h v).lineTrigger j = s.lineTrigger j := rfl
@[simp] theorem State.setHeadMap_input (s : State) (h : Head) (v : HeadMap) (j : Input) : (s.setHeadMap h v).input j = s.input j := rfl
@[simp] theorem State.setHeadMap_out (s : State) (h : Head) (v : HeadMap) (j : OutputId) : (s.setHeadMap h v).out j = s.out j := rfl
@[simp] theorem State.setHeadMap_scene (s : State) (h : Head) (v : HeadMap) (j : Fin 16) : (s.setHeadMap h v).scene j = s.scene j := rfl
@[simp] theorem State.setHeadMap_link (s : State) (h : Head) (v : HeadMap) (j : LinkId) : (s.setHeadMap h v).link j = s.link j := rfl
@[simp] theorem State.setHeadMap_control (s : State) (h : Head) (v : HeadMap) (j : Comp) : (s.setHeadMap h v).control j = s.control j := rfl
@[simp] theorem State.setHeadMap_wakeOf (s : State) (h : Head) (v : HeadMap) (j : Comp) : (s.setHeadMap h v).wakeOf j = s.wakeOf j := rfl
@[simp] theorem State.setHeadMap_line (s : State) (h : Head) (v : HeadMap) (j : LineId) : (s.setHeadMap h v).line j = s.line j := rfl

/-! ### modPort -/

@[simp] theorem State.modPort_now (s : State) (n : Comp) (f : Port → Port) : (s.modPort n f).now = s.now := rfl
@[simp] theorem State.modPort_comps (s : State) (n : Comp) (f : Port → Port) : (s.modPort n f).comps = s.comps := rfl
@[simp] theorem State.modPort_heads (s : State) (n : Comp) (f : Port → Port) : (s.modPort n f).heads = s.heads := rfl
@[simp] theorem State.modPort_layout (s : State) (n : Comp) (f : Port → Port) : (s.modPort n f).layout = s.layout := rfl
@[simp] theorem State.modPort_desk (s : State) (n : Comp) (f : Port → Port) : (s.modPort n f).desk = s.desk := rfl
@[simp] theorem State.modPort_lock (s : State) (n : Comp) (f : Port → Port) : (s.modPort n f).lock = s.lock := rfl
@[simp] theorem State.modPort_pointer (s : State) (n : Comp) (f : Port → Port) : (s.modPort n f).pointer = s.pointer := rfl
@[simp] theorem State.modPort_focus (s : State) (n : Comp) (f : Port → Port) : (s.modPort n f).focus = s.focus := rfl
@[simp] theorem State.modPort_mouse (s : State) (n : Comp) (f : Port → Port) : (s.modPort n f).mouse = s.mouse := rfl
@[simp] theorem State.modPort_keyboard (s : State) (n : Comp) (f : Port → Port) : (s.modPort n f).keyboard = s.keyboard := rfl
@[simp] theorem State.modPort_router (s : State) (n : Comp) (f : Port → Port) : (s.modPort n f).router = s.router := rfl
@[simp] theorem State.modPort_hotkeys (s : State) (n : Comp) (f : Port → Port) : (s.modPort n f).hotkeys = s.hotkeys := rfl
@[simp] theorem State.modPort_matcher (s : State) (n : Comp) (f : Port → Port) : (s.modPort n f).matcher = s.matcher := rfl
@[simp] theorem State.modPort_lineTriggers (s : State) (n : Comp) (f : Port → Port) : (s.modPort n f).lineTriggers = s.lineTriggers := rfl
@[simp] theorem State.modPort_inputs (s : State) (n : Comp) (f : Port → Port) : (s.modPort n f).inputs = s.inputs := rfl
@[simp] theorem State.modPort_outputs (s : State) (n : Comp) (f : Port → Port) : (s.modPort n f).outputs = s.outputs := rfl
@[simp] theorem State.modPort_crosspointStart (s : State) (n : Comp) (f : Port → Port) : (s.modPort n f).crosspointStart = s.crosspointStart := rfl
@[simp] theorem State.modPort_scenes (s : State) (n : Comp) (f : Port → Port) : (s.modPort n f).scenes = s.scenes := rfl
@[simp] theorem State.modPort_blank (s : State) (n : Comp) (f : Port → Port) : (s.modPort n f).blank = s.blank := rfl
@[simp] theorem State.modPort_links (s : State) (n : Comp) (f : Port → Port) : (s.modPort n f).links = s.links := rfl
@[simp] theorem State.modPort_controls (s : State) (n : Comp) (f : Port → Port) : (s.modPort n f).controls = s.controls := rfl
@[simp] theorem State.modPort_wake (s : State) (n : Comp) (f : Port → Port) : (s.modPort n f).wake = s.wake := rfl
@[simp] theorem State.modPort_lines (s : State) (n : Comp) (f : Port → Port) : (s.modPort n f).lines = s.lines := rfl
@[simp] theorem State.modPort_sup (s : State) (n : Comp) (f : Port → Port) : (s.modPort n f).sup = s.sup := rfl
@[simp] theorem State.modPort_pending (s : State) (n : Comp) (f : Port → Port) : (s.modPort n f).pending = s.pending := rfl
@[simp] theorem State.modPort_comp (s : State) (n : Comp) (f : Port → Port) (j : Comp) : (s.modPort n f).comp j = s.comp j := rfl
@[simp] theorem State.modPort_headMap (s : State) (n : Comp) (f : Port → Port) (j : Head) : (s.modPort n f).headMap j = s.headMap j := rfl
theorem State.modPort_port (s : State) (n j : Comp) (f : Port → Port) :
    (s.modPort n f).port j = if j = n then f (s.port j) else s.port j := by
  simp [State.modPort, State.port, pick_upd]
@[simp] theorem State.modPort_port_same (s : State) (n : Comp) (f : Port → Port) : (s.modPort n f).port n = f (s.port n) := by
  simp [State.modPort_port]
theorem State.modPort_port_ne (s : State) (n j : Comp) (f : Port → Port) (hne : j ≠ n) : (s.modPort n f).port j = s.port j := by
  simp [State.modPort_port, hne]
@[simp] theorem State.modPort_hotkey (s : State) (n : Comp) (f : Port → Port) (j : Fin 32) : (s.modPort n f).hotkey j = s.hotkey j := rfl
@[simp] theorem State.modPort_lineTrigger (s : State) (n : Comp) (f : Port → Port) (j : LineId) : (s.modPort n f).lineTrigger j = s.lineTrigger j := rfl
@[simp] theorem State.modPort_input (s : State) (n : Comp) (f : Port → Port) (j : Input) : (s.modPort n f).input j = s.input j := rfl
@[simp] theorem State.modPort_out (s : State) (n : Comp) (f : Port → Port) (j : OutputId) : (s.modPort n f).out j = s.out j := rfl
@[simp] theorem State.modPort_scene (s : State) (n : Comp) (f : Port → Port) (j : Fin 16) : (s.modPort n f).scene j = s.scene j := rfl
@[simp] theorem State.modPort_link (s : State) (n : Comp) (f : Port → Port) (j : LinkId) : (s.modPort n f).link j = s.link j := rfl
@[simp] theorem State.modPort_control (s : State) (n : Comp) (f : Port → Port) (j : Comp) : (s.modPort n f).control j = s.control j := rfl
@[simp] theorem State.modPort_wakeOf (s : State) (n : Comp) (f : Port → Port) (j : Comp) : (s.modPort n f).wakeOf j = s.wakeOf j := rfl
@[simp] theorem State.modPort_line (s : State) (n : Comp) (f : Port → Port) (j : LineId) : (s.modPort n f).line j = s.line j := rfl

/-! ### setHotkey -/

@[simp] theorem State.setHotkey_now (s : State) (i : Fin 32) (v : Option HotkeyEntry) : (s.setHotkey i v).now = s.now := rfl
@[simp] theorem State.setHotkey_comps (s : State) (i : Fin 32) (v : Option HotkeyEntry) : (s.setHotkey i v).comps = s.comps := rfl
@[simp] theorem State.setHotkey_heads (s : State) (i : Fin 32) (v : Option HotkeyEntry) : (s.setHotkey i v).heads = s.heads := rfl
@[simp] theorem State.setHotkey_layout (s : State) (i : Fin 32) (v : Option HotkeyEntry) : (s.setHotkey i v).layout = s.layout := rfl
@[simp] theorem State.setHotkey_desk (s : State) (i : Fin 32) (v : Option HotkeyEntry) : (s.setHotkey i v).desk = s.desk := rfl
@[simp] theorem State.setHotkey_lock (s : State) (i : Fin 32) (v : Option HotkeyEntry) : (s.setHotkey i v).lock = s.lock := rfl
@[simp] theorem State.setHotkey_pointer (s : State) (i : Fin 32) (v : Option HotkeyEntry) : (s.setHotkey i v).pointer = s.pointer := rfl
@[simp] theorem State.setHotkey_focus (s : State) (i : Fin 32) (v : Option HotkeyEntry) : (s.setHotkey i v).focus = s.focus := rfl
@[simp] theorem State.setHotkey_mouse (s : State) (i : Fin 32) (v : Option HotkeyEntry) : (s.setHotkey i v).mouse = s.mouse := rfl
@[simp] theorem State.setHotkey_keyboard (s : State) (i : Fin 32) (v : Option HotkeyEntry) : (s.setHotkey i v).keyboard = s.keyboard := rfl
@[simp] theorem State.setHotkey_router (s : State) (i : Fin 32) (v : Option HotkeyEntry) : (s.setHotkey i v).router = s.router := rfl
@[simp] theorem State.setHotkey_ports (s : State) (i : Fin 32) (v : Option HotkeyEntry) : (s.setHotkey i v).ports = s.ports := rfl
@[simp] theorem State.setHotkey_matcher (s : State) (i : Fin 32) (v : Option HotkeyEntry) : (s.setHotkey i v).matcher = s.matcher := rfl
@[simp] theorem State.setHotkey_lineTriggers (s : State) (i : Fin 32) (v : Option HotkeyEntry) : (s.setHotkey i v).lineTriggers = s.lineTriggers := rfl
@[simp] theorem State.setHotkey_inputs (s : State) (i : Fin 32) (v : Option HotkeyEntry) : (s.setHotkey i v).inputs = s.inputs := rfl
@[simp] theorem State.setHotkey_outputs (s : State) (i : Fin 32) (v : Option HotkeyEntry) : (s.setHotkey i v).outputs = s.outputs := rfl
@[simp] theorem State.setHotkey_crosspointStart (s : State) (i : Fin 32) (v : Option HotkeyEntry) : (s.setHotkey i v).crosspointStart = s.crosspointStart := rfl
@[simp] theorem State.setHotkey_scenes (s : State) (i : Fin 32) (v : Option HotkeyEntry) : (s.setHotkey i v).scenes = s.scenes := rfl
@[simp] theorem State.setHotkey_blank (s : State) (i : Fin 32) (v : Option HotkeyEntry) : (s.setHotkey i v).blank = s.blank := rfl
@[simp] theorem State.setHotkey_links (s : State) (i : Fin 32) (v : Option HotkeyEntry) : (s.setHotkey i v).links = s.links := rfl
@[simp] theorem State.setHotkey_controls (s : State) (i : Fin 32) (v : Option HotkeyEntry) : (s.setHotkey i v).controls = s.controls := rfl
@[simp] theorem State.setHotkey_wake (s : State) (i : Fin 32) (v : Option HotkeyEntry) : (s.setHotkey i v).wake = s.wake := rfl
@[simp] theorem State.setHotkey_lines (s : State) (i : Fin 32) (v : Option HotkeyEntry) : (s.setHotkey i v).lines = s.lines := rfl
@[simp] theorem State.setHotkey_sup (s : State) (i : Fin 32) (v : Option HotkeyEntry) : (s.setHotkey i v).sup = s.sup := rfl
@[simp] theorem State.setHotkey_pending (s : State) (i : Fin 32) (v : Option HotkeyEntry) : (s.setHotkey i v).pending = s.pending := rfl
@[simp] theorem State.setHotkey_comp (s : State) (i : Fin 32) (v : Option HotkeyEntry) (j : Comp) : (s.setHotkey i v).comp j = s.comp j := rfl
@[simp] theorem State.setHotkey_headMap (s : State) (i : Fin 32) (v : Option HotkeyEntry) (j : Head) : (s.setHotkey i v).headMap j = s.headMap j := rfl
@[simp] theorem State.setHotkey_port (s : State) (i : Fin 32) (v : Option HotkeyEntry) (j : Comp) : (s.setHotkey i v).port j = s.port j := rfl
theorem State.setHotkey_hotkey (s : State) (i j : Fin 32) (v : Option HotkeyEntry) :
    (s.setHotkey i v).hotkey j = if j = i then v else s.hotkey j := by
  simp [State.setHotkey, State.hotkey, pick_upd]
@[simp] theorem State.setHotkey_hotkey_same (s : State) (i : Fin 32) (v : Option HotkeyEntry) : (s.setHotkey i v).hotkey i = v := by
  simp [State.setHotkey_hotkey]
theorem State.setHotkey_hotkey_ne (s : State) (i j : Fin 32) (v : Option HotkeyEntry) (hne : j ≠ i) : (s.setHotkey i v).hotkey j = s.hotkey j := by
  simp [State.setHotkey_hotkey, hne]
@[simp] theorem State.setHotkey_lineTrigger (s : State) (i : Fin 32) (v : Option HotkeyEntry) (j : LineId) : (s.setHotkey i v).lineTrigger j = s.lineTrigger j := rfl
@[simp] theorem State.setHotkey_input (s : State) (i : Fin 32) (v : Option HotkeyEntry) (j : Input) : (s.setHotkey i v).input j = s.input j := rfl
@[simp] theorem State.setHotkey_out (s : State) (i : Fin 32) (v : Option HotkeyEntry) (j : OutputId) : (s.setHotkey i v).out j = s.out j := rfl
@[simp] theorem State.setHotkey_scene (s : State) (i : Fin 32) (v : Option HotkeyEntry) (j : Fin 16) : (s.setHotkey i v).scene j = s.scene j := rfl
@[simp] theorem State.setHotkey_link (s : State) (i : Fin 32) (v : Option HotkeyEntry) (j : LinkId) : (s.setHotkey i v).link j = s.link j := rfl
@[simp] theorem State.setHotkey_control (s : State) (i : Fin 32) (v : Option HotkeyEntry) (j : Comp) : (s.setHotkey i v).control j = s.control j := rfl
@[simp] theorem State.setHotkey_wakeOf (s : State) (i : Fin 32) (v : Option HotkeyEntry) (j : Comp) : (s.setHotkey i v).wakeOf j = s.wakeOf j := rfl
@[simp] theorem State.setHotkey_line (s : State) (i : Fin 32) (v : Option HotkeyEntry) (j : LineId) : (s.setHotkey i v).line j = s.line j := rfl

/-! ### setLineTrigger -/

@[simp] theorem State.setLineTrigger_now (s : State) (l : LineId) (v : LineTrigger) : (s.setLineTrigger l v).now = s.now := rfl
@[simp] theorem State.setLineTrigger_comps (s : State) (l : LineId) (v : LineTrigger) : (s.setLineTrigger l v).comps = s.comps := rfl
@[simp] theorem State.setLineTrigger_heads (s : State) (l : LineId) (v : LineTrigger) : (s.setLineTrigger l v).heads = s.heads := rfl
@[simp] theorem State.setLineTrigger_layout (s : State) (l : LineId) (v : LineTrigger) : (s.setLineTrigger l v).layout = s.layout := rfl
@[simp] theorem State.setLineTrigger_desk (s : State) (l : LineId) (v : LineTrigger) : (s.setLineTrigger l v).desk = s.desk := rfl
@[simp] theorem State.setLineTrigger_lock (s : State) (l : LineId) (v : LineTrigger) : (s.setLineTrigger l v).lock = s.lock := rfl
@[simp] theorem State.setLineTrigger_pointer (s : State) (l : LineId) (v : LineTrigger) : (s.setLineTrigger l v).pointer = s.pointer := rfl
@[simp] theorem State.setLineTrigger_focus (s : State) (l : LineId) (v : LineTrigger) : (s.setLineTrigger l v).focus = s.focus := rfl
@[simp] theorem State.setLineTrigger_mouse (s : State) (l : LineId) (v : LineTrigger) : (s.setLineTrigger l v).mouse = s.mouse := rfl
@[simp] theorem State.setLineTrigger_keyboard (s : State) (l : LineId) (v : LineTrigger) : (s.setLineTrigger l v).keyboard = s.keyboard := rfl
@[simp] theorem State.setLineTrigger_router (s : State) (l : LineId) (v : LineTrigger) : (s.setLineTrigger l v).router = s.router := rfl
@[simp] theorem State.setLineTrigger_ports (s : State) (l : LineId) (v : LineTrigger) : (s.setLineTrigger l v).ports = s.ports := rfl
@[simp] theorem State.setLineTrigger_hotkeys (s : State) (l : LineId) (v : LineTrigger) : (s.setLineTrigger l v).hotkeys = s.hotkeys := rfl
@[simp] theorem State.setLineTrigger_matcher (s : State) (l : LineId) (v : LineTrigger) : (s.setLineTrigger l v).matcher = s.matcher := rfl
@[simp] theorem State.setLineTrigger_inputs (s : State) (l : LineId) (v : LineTrigger) : (s.setLineTrigger l v).inputs = s.inputs := rfl
@[simp] theorem State.setLineTrigger_outputs (s : State) (l : LineId) (v : LineTrigger) : (s.setLineTrigger l v).outputs = s.outputs := rfl
@[simp] theorem State.setLineTrigger_crosspointStart (s : State) (l : LineId) (v : LineTrigger) : (s.setLineTrigger l v).crosspointStart = s.crosspointStart := rfl
@[simp] theorem State.setLineTrigger_scenes (s : State) (l : LineId) (v : LineTrigger) : (s.setLineTrigger l v).scenes = s.scenes := rfl
@[simp] theorem State.setLineTrigger_blank (s : State) (l : LineId) (v : LineTrigger) : (s.setLineTrigger l v).blank = s.blank := rfl
@[simp] theorem State.setLineTrigger_links (s : State) (l : LineId) (v : LineTrigger) : (s.setLineTrigger l v).links = s.links := rfl
@[simp] theorem State.setLineTrigger_controls (s : State) (l : LineId) (v : LineTrigger) : (s.setLineTrigger l v).controls = s.controls := rfl
@[simp] theorem State.setLineTrigger_wake (s : State) (l : LineId) (v : LineTrigger) : (s.setLineTrigger l v).wake = s.wake := rfl
@[simp] theorem State.setLineTrigger_lines (s : State) (l : LineId) (v : LineTrigger) : (s.setLineTrigger l v).lines = s.lines := rfl
@[simp] theorem State.setLineTrigger_sup (s : State) (l : LineId) (v : LineTrigger) : (s.setLineTrigger l v).sup = s.sup := rfl
@[simp] theorem State.setLineTrigger_pending (s : State) (l : LineId) (v : LineTrigger) : (s.setLineTrigger l v).pending = s.pending := rfl
@[simp] theorem State.setLineTrigger_comp (s : State) (l : LineId) (v : LineTrigger) (j : Comp) : (s.setLineTrigger l v).comp j = s.comp j := rfl
@[simp] theorem State.setLineTrigger_headMap (s : State) (l : LineId) (v : LineTrigger) (j : Head) : (s.setLineTrigger l v).headMap j = s.headMap j := rfl
@[simp] theorem State.setLineTrigger_port (s : State) (l : LineId) (v : LineTrigger) (j : Comp) : (s.setLineTrigger l v).port j = s.port j := rfl
@[simp] theorem State.setLineTrigger_hotkey (s : State) (l : LineId) (v : LineTrigger) (j : Fin 32) : (s.setLineTrigger l v).hotkey j = s.hotkey j := rfl
theorem State.setLineTrigger_lineTrigger (s : State) (l j : LineId) (v : LineTrigger) :
    (s.setLineTrigger l v).lineTrigger j = if j = l then v else s.lineTrigger j := by
  simp [State.setLineTrigger, State.lineTrigger, pick_upd]
@[simp] theorem State.setLineTrigger_lineTrigger_same (s : State) (l : LineId) (v : LineTrigger) : (s.setLineTrigger l v).lineTrigger l = v := by
  simp [State.setLineTrigger_lineTrigger]
theorem State.setLineTrigger_lineTrigger_ne (s : State) (l j : LineId) (v : LineTrigger) (hne : j ≠ l) : (s.setLineTrigger l v).lineTrigger j = s.lineTrigger j := by
  simp [State.setLineTrigger_lineTrigger, hne]
@[simp] theorem State.setLineTrigger_input (s : State) (l : LineId) (v : LineTrigger) (j : Input) : (s.setLineTrigger l v).input j = s.input j := rfl
@[simp] theorem State.setLineTrigger_out (s : State) (l : LineId) (v : LineTrigger) (j : OutputId) : (s.setLineTrigger l v).out j = s.out j := rfl
@[simp] theorem State.setLineTrigger_scene (s : State) (l : LineId) (v : LineTrigger) (j : Fin 16) : (s.setLineTrigger l v).scene j = s.scene j := rfl
@[simp] theorem State.setLineTrigger_link (s : State) (l : LineId) (v : LineTrigger) (j : LinkId) : (s.setLineTrigger l v).link j = s.link j := rfl
@[simp] theorem State.setLineTrigger_control (s : State) (l : LineId) (v : LineTrigger) (j : Comp) : (s.setLineTrigger l v).control j = s.control j := rfl
@[simp] theorem State.setLineTrigger_wakeOf (s : State) (l : LineId) (v : LineTrigger) (j : Comp) : (s.setLineTrigger l v).wakeOf j = s.wakeOf j := rfl
@[simp] theorem State.setLineTrigger_line (s : State) (l : LineId) (v : LineTrigger) (j : LineId) : (s.setLineTrigger l v).line j = s.line j := rfl

/-! ### setInput -/

@[simp] theorem State.setInput_now (s : State) (i : Input) (v : InputState) : (s.setInput i v).now = s.now := rfl
@[simp] theorem State.setInput_comps (s : State) (i : Input) (v : InputState) : (s.setInput i v).comps = s.comps := rfl
@[simp] theorem State.setInput_heads (s : State) (i : Input) (v : InputState) : (s.setInput i v).heads = s.heads := rfl
@[simp] theorem State.setInput_layout (s : State) (i : Input) (v : InputState) : (s.setInput i v).layout = s.layout := rfl
@[simp] theorem State.setInput_desk (s : State) (i : Input) (v : InputState) : (s.setInput i v).desk = s.desk := rfl
@[simp] theorem State.setInput_lock (s : State) (i : Input) (v : InputState) : (s.setInput i v).lock = s.lock := rfl
@[simp] theorem State.setInput_pointer (s : State) (i : Input) (v : InputState) : (s.setInput i v).pointer = s.pointer := rfl
@[simp] theorem State.setInput_focus (s : State) (i : Input) (v : InputState) : (s.setInput i v).focus = s.focus := rfl
@[simp] theorem State.setInput_mouse (s : State) (i : Input) (v : InputState) : (s.setInput i v).mouse = s.mouse := rfl
@[simp] theorem State.setInput_keyboard (s : State) (i : Input) (v : InputState) : (s.setInput i v).keyboard = s.keyboard := rfl
@[simp] theorem State.setInput_router (s : State) (i : Input) (v : InputState) : (s.setInput i v).router = s.router := rfl
@[simp] theorem State.setInput_ports (s : State) (i : Input) (v : InputState) : (s.setInput i v).ports = s.ports := rfl
@[simp] theorem State.setInput_hotkeys (s : State) (i : Input) (v : InputState) : (s.setInput i v).hotkeys = s.hotkeys := rfl
@[simp] theorem State.setInput_matcher (s : State) (i : Input) (v : InputState) : (s.setInput i v).matcher = s.matcher := rfl
@[simp] theorem State.setInput_lineTriggers (s : State) (i : Input) (v : InputState) : (s.setInput i v).lineTriggers = s.lineTriggers := rfl
@[simp] theorem State.setInput_outputs (s : State) (i : Input) (v : InputState) : (s.setInput i v).outputs = s.outputs := rfl
@[simp] theorem State.setInput_crosspointStart (s : State) (i : Input) (v : InputState) : (s.setInput i v).crosspointStart = s.crosspointStart := rfl
@[simp] theorem State.setInput_scenes (s : State) (i : Input) (v : InputState) : (s.setInput i v).scenes = s.scenes := rfl
@[simp] theorem State.setInput_blank (s : State) (i : Input) (v : InputState) : (s.setInput i v).blank = s.blank := rfl
@[simp] theorem State.setInput_links (s : State) (i : Input) (v : InputState) : (s.setInput i v).links = s.links := rfl
@[simp] theorem State.setInput_controls (s : State) (i : Input) (v : InputState) : (s.setInput i v).controls = s.controls := rfl
@[simp] theorem State.setInput_wake (s : State) (i : Input) (v : InputState) : (s.setInput i v).wake = s.wake := rfl
@[simp] theorem State.setInput_lines (s : State) (i : Input) (v : InputState) : (s.setInput i v).lines = s.lines := rfl
@[simp] theorem State.setInput_sup (s : State) (i : Input) (v : InputState) : (s.setInput i v).sup = s.sup := rfl
@[simp] theorem State.setInput_pending (s : State) (i : Input) (v : InputState) : (s.setInput i v).pending = s.pending := rfl
@[simp] theorem State.setInput_comp (s : State) (i : Input) (v : InputState) (j : Comp) : (s.setInput i v).comp j = s.comp j := rfl
@[simp] theorem State.setInput_headMap (s : State) (i : Input) (v : InputState) (j : Head) : (s.setInput i v).headMap j = s.headMap j := rfl
@[simp] theorem State.setInput_port (s : State) (i : Input) (v : InputState) (j : Comp) : (s.setInput i v).port j = s.port j := rfl
@[simp] theorem State.setInput_hotkey (s : State) (i : Input) (v : InputState) (j : Fin 32) : (s.setInput i v).hotkey j = s.hotkey j := rfl
@[simp] theorem State.setInput_lineTrigger (s : State) (i : Input) (v : InputState) (j : LineId) : (s.setInput i v).lineTrigger j = s.lineTrigger j := rfl
theorem State.setInput_input (s : State) (i j : Input) (v : InputState) :
    (s.setInput i v).input j = if j = i then v else s.input j := by
  simp [State.setInput, State.input, pick_upd]
@[simp] theorem State.setInput_input_same (s : State) (i : Input) (v : InputState) : (s.setInput i v).input i = v := by
  simp [State.setInput_input]
theorem State.setInput_input_ne (s : State) (i j : Input) (v : InputState) (hne : j ≠ i) : (s.setInput i v).input j = s.input j := by
  simp [State.setInput_input, hne]
@[simp] theorem State.setInput_out (s : State) (i : Input) (v : InputState) (j : OutputId) : (s.setInput i v).out j = s.out j := rfl
@[simp] theorem State.setInput_scene (s : State) (i : Input) (v : InputState) (j : Fin 16) : (s.setInput i v).scene j = s.scene j := rfl
@[simp] theorem State.setInput_link (s : State) (i : Input) (v : InputState) (j : LinkId) : (s.setInput i v).link j = s.link j := rfl
@[simp] theorem State.setInput_control (s : State) (i : Input) (v : InputState) (j : Comp) : (s.setInput i v).control j = s.control j := rfl
@[simp] theorem State.setInput_wakeOf (s : State) (i : Input) (v : InputState) (j : Comp) : (s.setInput i v).wakeOf j = s.wakeOf j := rfl
@[simp] theorem State.setInput_line (s : State) (i : Input) (v : InputState) (j : LineId) : (s.setInput i v).line j = s.line j := rfl

/-! ### modOut -/

@[simp] theorem State.modOut_now (s : State) (o : OutputId) (f : Output → Output) : (s.modOut o f).now = s.now := rfl
@[simp] theorem State.modOut_comps (s : State) (o : OutputId) (f : Output → Output) : (s.modOut o f).comps = s.comps := rfl
@[simp] theorem State.modOut_heads (s : State) (o : OutputId) (f : Output → Output) : (s.modOut o f).heads = s.heads := rfl
@[simp] theorem State.modOut_layout (s : State) (o : OutputId) (f : Output → Output) : (s.modOut o f).layout = s.layout := rfl
@[simp] theorem State.modOut_desk (s : State) (o : OutputId) (f : Output → Output) : (s.modOut o f).desk = s.desk := rfl
@[simp] theorem State.modOut_lock (s : State) (o : OutputId) (f : Output → Output) : (s.modOut o f).lock = s.lock := rfl
@[simp] theorem State.modOut_pointer (s : State) (o : OutputId) (f : Output → Output) : (s.modOut o f).pointer = s.pointer := rfl
@[simp] theorem State.modOut_focus (s : State) (o : OutputId) (f : Output → Output) : (s.modOut o f).focus = s.focus := rfl
@[simp] theorem State.modOut_mouse (s : State) (o : OutputId) (f : Output → Output) : (s.modOut o f).mouse = s.mouse := rfl
@[simp] theorem State.modOut_keyboard (s : State) (o : OutputId) (f : Output → Output) : (s.modOut o f).keyboard = s.keyboard := rfl
@[simp] theorem State.modOut_router (s : State) (o : OutputId) (f : Output → Output) : (s.modOut o f).router = s.router := rfl
@[simp] theorem State.modOut_ports (s : State) (o : OutputId) (f : Output → Output) : (s.modOut o f).ports = s.ports := rfl
@[simp] theorem State.modOut_hotkeys (s : State) (o : OutputId) (f : Output → Output) : (s.modOut o f).hotkeys = s.hotkeys := rfl
@[simp] theorem State.modOut_matcher (s : State) (o : OutputId) (f : Output → Output) : (s.modOut o f).matcher = s.matcher := rfl
@[simp] theorem State.modOut_lineTriggers (s : State) (o : OutputId) (f : Output → Output) : (s.modOut o f).lineTriggers = s.lineTriggers := rfl
@[simp] theorem State.modOut_inputs (s : State) (o : OutputId) (f : Output → Output) : (s.modOut o f).inputs = s.inputs := rfl
@[simp] theorem State.modOut_crosspointStart (s : State) (o : OutputId) (f : Output → Output) : (s.modOut o f).crosspointStart = s.crosspointStart := rfl
@[simp] theorem State.modOut_scenes (s : State) (o : OutputId) (f : Output → Output) : (s.modOut o f).scenes = s.scenes := rfl
@[simp] theorem State.modOut_blank (s : State) (o : OutputId) (f : Output → Output) : (s.modOut o f).blank = s.blank := rfl
@[simp] theorem State.modOut_links (s : State) (o : OutputId) (f : Output → Output) : (s.modOut o f).links = s.links := rfl
@[simp] theorem State.modOut_controls (s : State) (o : OutputId) (f : Output → Output) : (s.modOut o f).controls = s.controls := rfl
@[simp] theorem State.modOut_wake (s : State) (o : OutputId) (f : Output → Output) : (s.modOut o f).wake = s.wake := rfl
@[simp] theorem State.modOut_lines (s : State) (o : OutputId) (f : Output → Output) : (s.modOut o f).lines = s.lines := rfl
@[simp] theorem State.modOut_sup (s : State) (o : OutputId) (f : Output → Output) : (s.modOut o f).sup = s.sup := rfl
@[simp] theorem State.modOut_pending (s : State) (o : OutputId) (f : Output → Output) : (s.modOut o f).pending = s.pending := rfl
@[simp] theorem State.modOut_comp (s : State) (o : OutputId) (f : Output → Output) (j : Comp) : (s.modOut o f).comp j = s.comp j := rfl
@[simp] theorem State.modOut_headMap (s : State) (o : OutputId) (f : Output → Output) (j : Head) : (s.modOut o f).headMap j = s.headMap j := rfl
@[simp] theorem State.modOut_port (s : State) (o : OutputId) (f : Output → Output) (j : Comp) : (s.modOut o f).port j = s.port j := rfl
@[simp] theorem State.modOut_hotkey (s : State) (o : OutputId) (f : Output → Output) (j : Fin 32) : (s.modOut o f).hotkey j = s.hotkey j := rfl
@[simp] theorem State.modOut_lineTrigger (s : State) (o : OutputId) (f : Output → Output) (j : LineId) : (s.modOut o f).lineTrigger j = s.lineTrigger j := rfl
@[simp] theorem State.modOut_input (s : State) (o : OutputId) (f : Output → Output) (j : Input) : (s.modOut o f).input j = s.input j := rfl
theorem State.modOut_out (s : State) (o j : OutputId) (f : Output → Output) :
    (s.modOut o f).out j = if j = o then f (s.out j) else s.out j := by
  simp [State.modOut, State.out, pick_upd]
@[simp] theorem State.modOut_out_same (s : State) (o : OutputId) (f : Output → Output) : (s.modOut o f).out o = f (s.out o) := by
  simp [State.modOut_out]
theorem State.modOut_out_ne (s : State) (o j : OutputId) (f : Output → Output) (hne : j ≠ o) : (s.modOut o f).out j = s.out j := by
  simp [State.modOut_out, hne]
@[simp] theorem State.modOut_scene (s : State) (o : OutputId) (f : Output → Output) (j : Fin 16) : (s.modOut o f).scene j = s.scene j := rfl
@[simp] theorem State.modOut_link (s : State) (o : OutputId) (f : Output → Output) (j : LinkId) : (s.modOut o f).link j = s.link j := rfl
@[simp] theorem State.modOut_control (s : State) (o : OutputId) (f : Output → Output) (j : Comp) : (s.modOut o f).control j = s.control j := rfl
@[simp] theorem State.modOut_wakeOf (s : State) (o : OutputId) (f : Output → Output) (j : Comp) : (s.modOut o f).wakeOf j = s.wakeOf j := rfl
@[simp] theorem State.modOut_line (s : State) (o : OutputId) (f : Output → Output) (j : LineId) : (s.modOut o f).line j = s.line j := rfl

/-! ### setScene -/

@[simp] theorem State.setScene_now (s : State) (i : Fin 16) (v : Option Scene) : (s.setScene i v).now = s.now := rfl
@[simp] theorem State.setScene_comps (s : State) (i : Fin 16) (v : Option Scene) : (s.setScene i v).comps = s.comps := rfl
@[simp] theorem State.setScene_heads (s : State) (i : Fin 16) (v : Option Scene) : (s.setScene i v).heads = s.heads := rfl
@[simp] theorem State.setScene_layout (s : State) (i : Fin 16) (v : Option Scene) : (s.setScene i v).layout = s.layout := rfl
@[simp] theorem State.setScene_desk (s : State) (i : Fin 16) (v : Option Scene) : (s.setScene i v).desk = s.desk := rfl
@[simp] theorem State.setScene_lock (s : State) (i : Fin 16) (v : Option Scene) : (s.setScene i v).lock = s.lock := rfl
@[simp] theorem State.setScene_pointer (s : State) (i : Fin 16) (v : Option Scene) : (s.setScene i v).pointer = s.pointer := rfl
@[simp] theorem State.setScene_focus (s : State) (i : Fin 16) (v : Option Scene) : (s.setScene i v).focus = s.focus := rfl
@[simp] theorem State.setScene_mouse (s : State) (i : Fin 16) (v : Option Scene) : (s.setScene i v).mouse = s.mouse := rfl
@[simp] theorem State.setScene_keyboard (s : State) (i : Fin 16) (v : Option Scene) : (s.setScene i v).keyboard = s.keyboard := rfl
@[simp] theorem State.setScene_router (s : State) (i : Fin 16) (v : Option Scene) : (s.setScene i v).router = s.router := rfl
@[simp] theorem State.setScene_ports (s : State) (i : Fin 16) (v : Option Scene) : (s.setScene i v).ports = s.ports := rfl
@[simp] theorem State.setScene_hotkeys (s : State) (i : Fin 16) (v : Option Scene) : (s.setScene i v).hotkeys = s.hotkeys := rfl
@[simp] theorem State.setScene_matcher (s : State) (i : Fin 16) (v : Option Scene) : (s.setScene i v).matcher = s.matcher := rfl
@[simp] theorem State.setScene_lineTriggers (s : State) (i : Fin 16) (v : Option Scene) : (s.setScene i v).lineTriggers = s.lineTriggers := rfl
@[simp] theorem State.setScene_inputs (s : State) (i : Fin 16) (v : Option Scene) : (s.setScene i v).inputs = s.inputs := rfl
@[simp] theorem State.setScene_outputs (s : State) (i : Fin 16) (v : Option Scene) : (s.setScene i v).outputs = s.outputs := rfl
@[simp] theorem State.setScene_crosspointStart (s : State) (i : Fin 16) (v : Option Scene) : (s.setScene i v).crosspointStart = s.crosspointStart := rfl
@[simp] theorem State.setScene_blank (s : State) (i : Fin 16) (v : Option Scene) : (s.setScene i v).blank = s.blank := rfl
@[simp] theorem State.setScene_links (s : State) (i : Fin 16) (v : Option Scene) : (s.setScene i v).links = s.links := rfl
@[simp] theorem State.setScene_controls (s : State) (i : Fin 16) (v : Option Scene) : (s.setScene i v).controls = s.controls := rfl
@[simp] theorem State.setScene_wake (s : State) (i : Fin 16) (v : Option Scene) : (s.setScene i v).wake = s.wake := rfl
@[simp] theorem State.setScene_lines (s : State) (i : Fin 16) (v : Option Scene) : (s.setScene i v).lines = s.lines := rfl
@[simp] theorem State.setScene_sup (s : State) (i : Fin 16) (v : Option Scene) : (s.setScene i v).sup = s.sup := rfl
@[simp] theorem State.setScene_pending (s : State) (i : Fin 16) (v : Option Scene) : (s.setScene i v).pending = s.pending := rfl
@[simp] theorem State.setScene_comp (s : State) (i : Fin 16) (v : Option Scene) (j : Comp) : (s.setScene i v).comp j = s.comp j := rfl
@[simp] theorem State.setScene_headMap (s : State) (i : Fin 16) (v : Option Scene) (j : Head) : (s.setScene i v).headMap j = s.headMap j := rfl
@[simp] theorem State.setScene_port (s : State) (i : Fin 16) (v : Option Scene) (j : Comp) : (s.setScene i v).port j = s.port j := rfl
@[simp] theorem State.setScene_hotkey (s : State) (i : Fin 16) (v : Option Scene) (j : Fin 32) : (s.setScene i v).hotkey j = s.hotkey j := rfl
@[simp] theorem State.setScene_lineTrigger (s : State) (i : Fin 16) (v : Option Scene) (j : LineId) : (s.setScene i v).lineTrigger j = s.lineTrigger j := rfl
@[simp] theorem State.setScene_input (s : State) (i : Fin 16) (v : Option Scene) (j : Input) : (s.setScene i v).input j = s.input j := rfl
@[simp] theorem State.setScene_out (s : State) (i : Fin 16) (v : Option Scene) (j : OutputId) : (s.setScene i v).out j = s.out j := rfl
theorem State.setScene_scene (s : State) (i j : Fin 16) (v : Option Scene) :
    (s.setScene i v).scene j = if j = i then v else s.scene j := by
  simp [State.setScene, State.scene, pick_upd]
@[simp] theorem State.setScene_scene_same (s : State) (i : Fin 16) (v : Option Scene) : (s.setScene i v).scene i = v := by
  simp [State.setScene_scene]
theorem State.setScene_scene_ne (s : State) (i j : Fin 16) (v : Option Scene) (hne : j ≠ i) : (s.setScene i v).scene j = s.scene j := by
  simp [State.setScene_scene, hne]
@[simp] theorem State.setScene_link (s : State) (i : Fin 16) (v : Option Scene) (j : LinkId) : (s.setScene i v).link j = s.link j := rfl
@[simp] theorem State.setScene_control (s : State) (i : Fin 16) (v : Option Scene) (j : Comp) : (s.setScene i v).control j = s.control j := rfl
@[simp] theorem State.setScene_wakeOf (s : State) (i : Fin 16) (v : Option Scene) (j : Comp) : (s.setScene i v).wakeOf j = s.wakeOf j := rfl
@[simp] theorem State.setScene_line (s : State) (i : Fin 16) (v : Option Scene) (j : LineId) : (s.setScene i v).line j = s.line j := rfl

/-! ### modLink -/

@[simp] theorem State.modLink_now (s : State) (k : LinkId) (f : Link → Link) : (s.modLink k f).now = s.now := rfl
@[simp] theorem State.modLink_comps (s : State) (k : LinkId) (f : Link → Link) : (s.modLink k f).comps = s.comps := rfl
@[simp] theorem State.modLink_heads (s : State) (k : LinkId) (f : Link → Link) : (s.modLink k f).heads = s.heads := rfl
@[simp] theorem State.modLink_layout (s : State) (k : LinkId) (f : Link → Link) : (s.modLink k f).layout = s.layout := rfl
@[simp] theorem State.modLink_desk (s : State) (k : LinkId) (f : Link → Link) : (s.modLink k f).desk = s.desk := rfl
@[simp] theorem State.modLink_lock (s : State) (k : LinkId) (f : Link → Link) : (s.modLink k f).lock = s.lock := rfl
@[simp] theorem State.modLink_pointer (s : State) (k : LinkId) (f : Link → Link) : (s.modLink k f).pointer = s.pointer := rfl
@[simp] theorem State.modLink_focus (s : State) (k : LinkId) (f : Link → Link) : (s.modLink k f).focus = s.focus := rfl
@[simp] theorem State.modLink_mouse (s : State) (k : LinkId) (f : Link → Link) : (s.modLink k f).mouse = s.mouse := rfl
@[simp] theorem State.modLink_keyboard (s : State) (k : LinkId) (f : Link → Link) : (s.modLink k f).keyboard = s.keyboard := rfl
@[simp] theorem State.modLink_router (s : State) (k : LinkId) (f : Link → Link) : (s.modLink k f).router = s.router := rfl
@[simp] theorem State.modLink_ports (s : State) (k : LinkId) (f : Link → Link) : (s.modLink k f).ports = s.ports := rfl
@[simp] theorem State.modLink_hotkeys (s : State) (k : LinkId) (f : Link → Link) : (s.modLink k f).hotkeys = s.hotkeys := rfl
@[simp] theorem State.modLink_matcher (s : State) (k : LinkId) (f : Link → Link) : (s.modLink k f).matcher = s.matcher := rfl
@[simp] theorem State.modLink_lineTriggers (s : State) (k : LinkId) (f : Link → Link) : (s.modLink k f).lineTriggers = s.lineTriggers := rfl
@[simp] theorem State.modLink_inputs (s : State) (k : LinkId) (f : Link → Link) : (s.modLink k f).inputs = s.inputs := rfl
@[simp] theorem State.modLink_outputs (s : State) (k : LinkId) (f : Link → Link) : (s.modLink k f).outputs = s.outputs := rfl
@[simp] theorem State.modLink_crosspointStart (s : State) (k : LinkId) (f : Link → Link) : (s.modLink k f).crosspointStart = s.crosspointStart := rfl
@[simp] theorem State.modLink_scenes (s : State) (k : LinkId) (f : Link → Link) : (s.modLink k f).scenes = s.scenes := rfl
@[simp] theorem State.modLink_blank (s : State) (k : LinkId) (f : Link → Link) : (s.modLink k f).blank = s.blank := rfl
@[simp] theorem State.modLink_controls (s : State) (k : LinkId) (f : Link → Link) : (s.modLink k f).controls = s.controls := rfl
@[simp] theorem State.modLink_wake (s : State) (k : LinkId) (f : Link → Link) : (s.modLink k f).wake = s.wake := rfl
@[simp] theorem State.modLink_lines (s : State) (k : LinkId) (f : Link → Link) : (s.modLink k f).lines = s.lines := rfl
@[simp] theorem State.modLink_sup (s : State) (k : LinkId) (f : Link → Link) : (s.modLink k f).sup = s.sup := rfl
@[simp] theorem State.modLink_pending (s : State) (k : LinkId) (f : Link → Link) : (s.modLink k f).pending = s.pending := rfl
@[simp] theorem State.modLink_comp (s : State) (k : LinkId) (f : Link → Link) (j : Comp) : (s.modLink k f).comp j = s.comp j := rfl
@[simp] theorem State.modLink_headMap (s : State) (k : LinkId) (f : Link → Link) (j : Head) : (s.modLink k f).headMap j = s.headMap j := rfl
@[simp] theorem State.modLink_port (s : State) (k : LinkId) (f : Link → Link) (j : Comp) : (s.modLink k f).port j = s.port j := rfl
@[simp] theorem State.modLink_hotkey (s : State) (k : LinkId) (f : Link → Link) (j : Fin 32) : (s.modLink k f).hotkey j = s.hotkey j := rfl
@[simp] theorem State.modLink_lineTrigger (s : State) (k : LinkId) (f : Link → Link) (j : LineId) : (s.modLink k f).lineTrigger j = s.lineTrigger j := rfl
@[simp] theorem State.modLink_input (s : State) (k : LinkId) (f : Link → Link) (j : Input) : (s.modLink k f).input j = s.input j := rfl
@[simp] theorem State.modLink_out (s : State) (k : LinkId) (f : Link → Link) (j : OutputId) : (s.modLink k f).out j = s.out j := rfl
@[simp] theorem State.modLink_scene (s : State) (k : LinkId) (f : Link → Link) (j : Fin 16) : (s.modLink k f).scene j = s.scene j := rfl
theorem State.modLink_link (s : State) (k j : LinkId) (f : Link → Link) :
    (s.modLink k f).link j = if j = k then f (s.link j) else s.link j := by
  simp [State.modLink, State.link, pick_upd]
@[simp] theorem State.modLink_link_same (s : State) (k : LinkId) (f : Link → Link) : (s.modLink k f).link k = f (s.link k) := by
  simp [State.modLink_link]
theorem State.modLink_link_ne (s : State) (k j : LinkId) (f : Link → Link) (hne : j ≠ k) : (s.modLink k f).link j = s.link j := by
  simp [State.modLink_link, hne]
@[simp] theorem State.modLink_control (s : State) (k : LinkId) (f : Link → Link) (j : Comp) : (s.modLink k f).control j = s.control j := rfl
@[simp] theorem State.modLink_wakeOf (s : State) (k : LinkId) (f : Link → Link) (j : Comp) : (s.modLink k f).wakeOf j = s.wakeOf j := rfl
@[simp] theorem State.modLink_line (s : State) (k : LinkId) (f : Link → Link) (j : LineId) : (s.modLink k f).line j = s.line j := rfl

/-! ### modControl -/

@[simp] theorem State.modControl_now (s : State) (n : Comp) (f : Control → Control) : (s.modControl n f).now = s.now := rfl
@[simp] theorem State.modControl_comps (s : State) (n : Comp) (f : Control → Control) : (s.modControl n f).comps = s.comps := rfl
@[simp] theorem State.modControl_heads (s : State) (n : Comp) (f : Control → Control) : (s.modControl n f).heads = s.heads := rfl
@[simp] theorem State.modControl_layout (s : State) (n : Comp) (f : Control → Control) : (s.modControl n f).layout = s.layout := rfl
@[simp] theorem State.modControl_desk (s : State) (n : Comp) (f : Control → Control) : (s.modControl n f).desk = s.desk := rfl
@[simp] theorem State.modControl_lock (s : State) (n : Comp) (f : Control → Control) : (s.modControl n f).lock = s.lock := rfl
@[simp] theorem State.modControl_pointer (s : State) (n : Comp) (f : Control → Control) : (s.modControl n f).pointer = s.pointer := rfl
@[simp] theorem State.modControl_focus (s : State) (n : Comp) (f : Control → Control) : (s.modControl n f).focus = s.focus := rfl
@[simp] theorem State.modControl_mouse (s : State) (n : Comp) (f : Control → Control) : (s.modControl n f).mouse = s.mouse := rfl
@[simp] theorem State.modControl_keyboard (s : State) (n : Comp) (f : Control → Control) : (s.modControl n f).keyboard = s.keyboard := rfl
@[simp] theorem State.modControl_router (s : State) (n : Comp) (f : Control → Control) : (s.modControl n f).router = s.router := rfl
@[simp] theorem State.modControl_ports (s : State) (n : Comp) (f : Control → Control) : (s.modControl n f).ports = s.ports := rfl
@[simp] theorem State.modControl_hotkeys (s : State) (n : Comp) (f : Control → Control) : (s.modControl n f).hotkeys = s.hotkeys := rfl
@[simp] theorem State.modControl_matcher (s : State) (n : Comp) (f : Control → Control) : (s.modControl n f).matcher = s.matcher := rfl
@[simp] theorem State.modControl_lineTriggers (s : State) (n : Comp) (f : Control → Control) : (s.modControl n f).lineTriggers = s.lineTriggers := rfl
@[simp] theorem State.modControl_inputs (s : State) (n : Comp) (f : Control → Control) : (s.modControl n f).inputs = s.inputs := rfl
@[simp] theorem State.modControl_outputs (s : State) (n : Comp) (f : Control → Control) : (s.modControl n f).outputs = s.outputs := rfl
@[simp] theorem State.modControl_crosspointStart (s : State) (n : Comp) (f : Control → Control) : (s.modControl n f).crosspointStart = s.crosspointStart := rfl
@[simp] theorem State.modControl_scenes (s : State) (n : Comp) (f : Control → Control) : (s.modControl n f).scenes = s.scenes := rfl
@[simp] theorem State.modControl_blank (s : State) (n : Comp) (f : Control → Control) : (s.modControl n f).blank = s.blank := rfl
@[simp] theorem State.modControl_links (s : State) (n : Comp) (f : Control → Control) : (s.modControl n f).links = s.links := rfl
@[simp] theorem State.modControl_wake (s : State) (n : Comp) (f : Control → Control) : (s.modControl n f).wake = s.wake := rfl
@[simp] theorem State.modControl_lines (s : State) (n : Comp) (f : Control → Control) : (s.modControl n f).lines = s.lines := rfl
@[simp] theorem State.modControl_sup (s : State) (n : Comp) (f : Control → Control) : (s.modControl n f).sup = s.sup := rfl
@[simp] theorem State.modControl_pending (s : State) (n : Comp) (f : Control → Control) : (s.modControl n f).pending = s.pending := rfl
@[simp] theorem State.modControl_comp (s : State) (n : Comp) (f : Control → Control) (j : Comp) : (s.modControl n f).comp j = s.comp j := rfl
@[simp] theorem State.modControl_headMap (s : State) (n : Comp) (f : Control → Control) (j : Head) : (s.modControl n f).headMap j = s.headMap j := rfl
@[simp] theorem State.modControl_port (s : State) (n : Comp) (f : Control → Control) (j : Comp) : (s.modControl n f).port j = s.port j := rfl
@[simp] theorem State.modControl_hotkey (s : State) (n : Comp) (f : Control → Control) (j : Fin 32) : (s.modControl n f).hotkey j = s.hotkey j := rfl
@[simp] theorem State.modControl_lineTrigger (s : State) (n : Comp) (f : Control → Control) (j : LineId) : (s.modControl n f).lineTrigger j = s.lineTrigger j := rfl
@[simp] theorem State.modControl_input (s : State) (n : Comp) (f : Control → Control) (j : Input) : (s.modControl n f).input j = s.input j := rfl
@[simp] theorem State.modControl_out (s : State) (n : Comp) (f : Control → Control) (j : OutputId) : (s.modControl n f).out j = s.out j := rfl
@[simp] theorem State.modControl_scene (s : State) (n : Comp) (f : Control → Control) (j : Fin 16) : (s.modControl n f).scene j = s.scene j := rfl
@[simp] theorem State.modControl_link (s : State) (n : Comp) (f : Control → Control) (j : LinkId) : (s.modControl n f).link j = s.link j := rfl
theorem State.modControl_control (s : State) (n j : Comp) (f : Control → Control) :
    (s.modControl n f).control j = if j = n then f (s.control j) else s.control j := by
  simp [State.modControl, State.control, pick_upd]
@[simp] theorem State.modControl_control_same (s : State) (n : Comp) (f : Control → Control) : (s.modControl n f).control n = f (s.control n) := by
  simp [State.modControl_control]
theorem State.modControl_control_ne (s : State) (n j : Comp) (f : Control → Control) (hne : j ≠ n) : (s.modControl n f).control j = s.control j := by
  simp [State.modControl_control, hne]
@[simp] theorem State.modControl_wakeOf (s : State) (n : Comp) (f : Control → Control) (j : Comp) : (s.modControl n f).wakeOf j = s.wakeOf j := rfl
@[simp] theorem State.modControl_line (s : State) (n : Comp) (f : Control → Control) (j : LineId) : (s.modControl n f).line j = s.line j := rfl

/-! ### modWake -/

@[simp] theorem State.modWake_now (s : State) (n : Comp) (f : WakeRecord → WakeRecord) : (s.modWake n f).now = s.now := rfl
@[simp] theorem State.modWake_comps (s : State) (n : Comp) (f : WakeRecord → WakeRecord) : (s.modWake n f).comps = s.comps := rfl
@[simp] theorem State.modWake_heads (s : State) (n : Comp) (f : WakeRecord → WakeRecord) : (s.modWake n f).heads = s.heads := rfl
@[simp] theorem State.modWake_layout (s : State) (n : Comp) (f : WakeRecord → WakeRecord) : (s.modWake n f).layout = s.layout := rfl
@[simp] theorem State.modWake_desk (s : State) (n : Comp) (f : WakeRecord → WakeRecord) : (s.modWake n f).desk = s.desk := rfl
@[simp] theorem State.modWake_lock (s : State) (n : Comp) (f : WakeRecord → WakeRecord) : (s.modWake n f).lock = s.lock := rfl
@[simp] theorem State.modWake_pointer (s : State) (n : Comp) (f : WakeRecord → WakeRecord) : (s.modWake n f).pointer = s.pointer := rfl
@[simp] theorem State.modWake_focus (s : State) (n : Comp) (f : WakeRecord → WakeRecord) : (s.modWake n f).focus = s.focus := rfl
@[simp] theorem State.modWake_mouse (s : State) (n : Comp) (f : WakeRecord → WakeRecord) : (s.modWake n f).mouse = s.mouse := rfl
@[simp] theorem State.modWake_keyboard (s : State) (n : Comp) (f : WakeRecord → WakeRecord) : (s.modWake n f).keyboard = s.keyboard := rfl
@[simp] theorem State.modWake_router (s : State) (n : Comp) (f : WakeRecord → WakeRecord) : (s.modWake n f).router = s.router := rfl
@[simp] theorem State.modWake_ports (s : State) (n : Comp) (f : WakeRecord → WakeRecord) : (s.modWake n f).ports = s.ports := rfl
@[simp] theorem State.modWake_hotkeys (s : State) (n : Comp) (f : WakeRecord → WakeRecord) : (s.modWake n f).hotkeys = s.hotkeys := rfl
@[simp] theorem State.modWake_matcher (s : State) (n : Comp) (f : WakeRecord → WakeRecord) : (s.modWake n f).matcher = s.matcher := rfl
@[simp] theorem State.modWake_lineTriggers (s : State) (n : Comp) (f : WakeRecord → WakeRecord) : (s.modWake n f).lineTriggers = s.lineTriggers := rfl
@[simp] theorem State.modWake_inputs (s : State) (n : Comp) (f : WakeRecord → WakeRecord) : (s.modWake n f).inputs = s.inputs := rfl
@[simp] theorem State.modWake_outputs (s : State) (n : Comp) (f : WakeRecord → WakeRecord) : (s.modWake n f).outputs = s.outputs := rfl
@[simp] theorem State.modWake_crosspointStart (s : State) (n : Comp) (f : WakeRecord → WakeRecord) : (s.modWake n f).crosspointStart = s.crosspointStart := rfl
@[simp] theorem State.modWake_scenes (s : State) (n : Comp) (f : WakeRecord → WakeRecord) : (s.modWake n f).scenes = s.scenes := rfl
@[simp] theorem State.modWake_blank (s : State) (n : Comp) (f : WakeRecord → WakeRecord) : (s.modWake n f).blank = s.blank := rfl
@[simp] theorem State.modWake_links (s : State) (n : Comp) (f : WakeRecord → WakeRecord) : (s.modWake n f).links = s.links := rfl
@[simp] theorem State.modWake_controls (s : State) (n : Comp) (f : WakeRecord → WakeRecord) : (s.modWake n f).controls = s.controls := rfl
@[simp] theorem State.modWake_lines (s : State) (n : Comp) (f : WakeRecord → WakeRecord) : (s.modWake n f).lines = s.lines := rfl
@[simp] theorem State.modWake_sup (s : State) (n : Comp) (f : WakeRecord → WakeRecord) : (s.modWake n f).sup = s.sup := rfl
@[simp] theorem State.modWake_pending (s : State) (n : Comp) (f : WakeRecord → WakeRecord) : (s.modWake n f).pending = s.pending := rfl
@[simp] theorem State.modWake_comp (s : State) (n : Comp) (f : WakeRecord → WakeRecord) (j : Comp) : (s.modWake n f).comp j = s.comp j := rfl
@[simp] theorem State.modWake_headMap (s : State) (n : Comp) (f : WakeRecord → WakeRecord) (j : Head) : (s.modWake n f).headMap j = s.headMap j := rfl
@[simp] theorem State.modWake_port (s : State) (n : Comp) (f : WakeRecord → WakeRecord) (j : Comp) : (s.modWake n f).port j = s.port j := rfl
@[simp] theorem State.modWake_hotkey (s : State) (n : Comp) (f : WakeRecord → WakeRecord) (j : Fin 32) : (s.modWake n f).hotkey j = s.hotkey j := rfl
@[simp] theorem State.modWake_lineTrigger (s : State) (n : Comp) (f : WakeRecord → WakeRecord) (j : LineId) : (s.modWake n f).lineTrigger j = s.lineTrigger j := rfl
@[simp] theorem State.modWake_input (s : State) (n : Comp) (f : WakeRecord → WakeRecord) (j : Input) : (s.modWake n f).input j = s.input j := rfl
@[simp] theorem State.modWake_out (s : State) (n : Comp) (f : WakeRecord → WakeRecord) (j : OutputId) : (s.modWake n f).out j = s.out j := rfl
@[simp] theorem State.modWake_scene (s : State) (n : Comp) (f : WakeRecord → WakeRecord) (j : Fin 16) : (s.modWake n f).scene j = s.scene j := rfl
@[simp] theorem State.modWake_link (s : State) (n : Comp) (f : WakeRecord → WakeRecord) (j : LinkId) : (s.modWake n f).link j = s.link j := rfl
@[simp] theorem State.modWake_control (s : State) (n : Comp) (f : WakeRecord → WakeRecord) (j : Comp) : (s.modWake n f).control j = s.control j := rfl
theorem State.modWake_wakeOf (s : State) (n j : Comp) (f : WakeRecord → WakeRecord) :
    (s.modWake n f).wakeOf j = if j = n then f (s.wakeOf j) else s.wakeOf j := by
  simp [State.modWake, State.wakeOf, pick_upd]
@[simp] theorem State.modWake_wakeOf_same (s : State) (n : Comp) (f : WakeRecord → WakeRecord) : (s.modWake n f).wakeOf n = f (s.wakeOf n) := by
  simp [State.modWake_wakeOf]
theorem State.modWake_wakeOf_ne (s : State) (n j : Comp) (f : WakeRecord → WakeRecord) (hne : j ≠ n) : (s.modWake n f).wakeOf j = s.wakeOf j := by
  simp [State.modWake_wakeOf, hne]
@[simp] theorem State.modWake_line (s : State) (n : Comp) (f : WakeRecord → WakeRecord) (j : LineId) : (s.modWake n f).line j = s.line j := rfl

/-! ### modLine -/

@[simp] theorem State.modLine_now (s : State) (l : LineId) (f : Line → Line) : (s.modLine l f).now = s.now := rfl
@[simp] theorem State.modLine_comps (s : State) (l : LineId) (f : Line → Line) : (s.modLine l f).comps = s.comps := rfl
@[simp] theorem State.modLine_heads (s : State) (l : LineId) (f : Line → Line) : (s.modLine l f).heads = s.heads := rfl
@[simp] theorem State.modLine_layout (s : State) (l : LineId) (f : Line → Line) : (s.modLine l f).layout = s.layout := rfl
@[simp] theorem State.modLine_desk (s : State) (l : LineId) (f : Line → Line) : (s.modLine l f).desk = s.desk := rfl
@[simp] theorem State.modLine_lock (s : State) (l : LineId) (f : Line → Line) : (s.modLine l f).lock = s.lock := rfl
@[simp] theorem State.modLine_pointer (s : State) (l : LineId) (f : Line → Line) : (s.modLine l f).pointer = s.pointer := rfl
@[simp] theorem State.modLine_focus (s : State) (l : LineId) (f : Line → Line) : (s.modLine l f).focus = s.focus := rfl
@[simp] theorem State.modLine_mouse (s : State) (l : LineId) (f : Line → Line) : (s.modLine l f).mouse = s.mouse := rfl
@[simp] theorem State.modLine_keyboard (s : State) (l : LineId) (f : Line → Line) : (s.modLine l f).keyboard = s.keyboard := rfl
@[simp] theorem State.modLine_router (s : State) (l : LineId) (f : Line → Line) : (s.modLine l f).router = s.router := rfl
@[simp] theorem State.modLine_ports (s : State) (l : LineId) (f : Line → Line) : (s.modLine l f).ports = s.ports := rfl
@[simp] theorem State.modLine_hotkeys (s : State) (l : LineId) (f : Line → Line) : (s.modLine l f).hotkeys = s.hotkeys := rfl
@[simp] theorem State.modLine_matcher (s : State) (l : LineId) (f : Line → Line) : (s.modLine l f).matcher = s.matcher := rfl
@[simp] theorem State.modLine_lineTriggers (s : State) (l : LineId) (f : Line → Line) : (s.modLine l f).lineTriggers = s.lineTriggers := rfl
@[simp] theorem State.modLine_inputs (s : State) (l : LineId) (f : Line → Line) : (s.modLine l f).inputs = s.inputs := rfl
@[simp] theorem State.modLine_outputs (s : State) (l : LineId) (f : Line → Line) : (s.modLine l f).outputs = s.outputs := rfl
@[simp] theorem State.modLine_crosspointStart (s : State) (l : LineId) (f : Line → Line) : (s.modLine l f).crosspointStart = s.crosspointStart := rfl
@[simp] theorem State.modLine_scenes (s : State) (l : LineId) (f : Line → Line) : (s.modLine l f).scenes = s.scenes := rfl
@[simp] theorem State.modLine_blank (s : State) (l : LineId) (f : Line → Line) : (s.modLine l f).blank = s.blank := rfl
@[simp] theorem State.modLine_links (s : State) (l : LineId) (f : Line → Line) : (s.modLine l f).links = s.links := rfl
@[simp] theorem State.modLine_controls (s : State) (l : LineId) (f : Line → Line) : (s.modLine l f).controls = s.controls := rfl
@[simp] theorem State.modLine_wake (s : State) (l : LineId) (f : Line → Line) : (s.modLine l f).wake = s.wake := rfl
@[simp] theorem State.modLine_sup (s : State) (l : LineId) (f : Line → Line) : (s.modLine l f).sup = s.sup := rfl
@[simp] theorem State.modLine_pending (s : State) (l : LineId) (f : Line → Line) : (s.modLine l f).pending = s.pending := rfl
@[simp] theorem State.modLine_comp (s : State) (l : LineId) (f : Line → Line) (j : Comp) : (s.modLine l f).comp j = s.comp j := rfl
@[simp] theorem State.modLine_headMap (s : State) (l : LineId) (f : Line → Line) (j : Head) : (s.modLine l f).headMap j = s.headMap j := rfl
@[simp] theorem State.modLine_port (s : State) (l : LineId) (f : Line → Line) (j : Comp) : (s.modLine l f).port j = s.port j := rfl
@[simp] theorem State.modLine_hotkey (s : State) (l : LineId) (f : Line → Line) (j : Fin 32) : (s.modLine l f).hotkey j = s.hotkey j := rfl
@[simp] theorem State.modLine_lineTrigger (s : State) (l : LineId) (f : Line → Line) (j : LineId) : (s.modLine l f).lineTrigger j = s.lineTrigger j := rfl
@[simp] theorem State.modLine_input (s : State) (l : LineId) (f : Line → Line) (j : Input) : (s.modLine l f).input j = s.input j := rfl
@[simp] theorem State.modLine_out (s : State) (l : LineId) (f : Line → Line) (j : OutputId) : (s.modLine l f).out j = s.out j := rfl
@[simp] theorem State.modLine_scene (s : State) (l : LineId) (f : Line → Line) (j : Fin 16) : (s.modLine l f).scene j = s.scene j := rfl
@[simp] theorem State.modLine_link (s : State) (l : LineId) (f : Line → Line) (j : LinkId) : (s.modLine l f).link j = s.link j := rfl
@[simp] theorem State.modLine_control (s : State) (l : LineId) (f : Line → Line) (j : Comp) : (s.modLine l f).control j = s.control j := rfl
@[simp] theorem State.modLine_wakeOf (s : State) (l : LineId) (f : Line → Line) (j : Comp) : (s.modLine l f).wakeOf j = s.wakeOf j := rfl
theorem State.modLine_line (s : State) (l j : LineId) (f : Line → Line) :
    (s.modLine l f).line j = if j = l then f (s.line j) else s.line j := by
  simp [State.modLine, State.line, pick_upd]
@[simp] theorem State.modLine_line_same (s : State) (l : LineId) (f : Line → Line) : (s.modLine l f).line l = f (s.line l) := by
  simp [State.modLine_line]
theorem State.modLine_line_ne (s : State) (l j : LineId) (f : Line → Line) (hne : j ≠ l) : (s.modLine l f).line j = s.line j := by
  simp [State.modLine_line, hne]

end Sys2Proof.Machine
end

