-- ==== Sys2Proof/Laws/Frames.lean ====
section
/-!
SUPPORT. For each shared operation, once, the fields of the state that it may write: all the other fields stay as they
were. Each relation names the fields that one kind of operation writes.
-/

namespace Sys2Proof.Machine

open Sys2Proof

/-! ### What an operation may write -/

/-- `t` differs from `s` only in what notices: a notice is queued, lost or not subscribed to may write. -/
def Notifies (s t : State) : Prop :=
  t = { s with sup := t.sup }

theorem Notifies.refl (s : State) : Notifies s s := rfl

theorem Notifies.trans {a b c : State} (h : Notifies a b) (g : Notifies b c) : Notifies a c := by
  unfold Notifies at *; rw [g, h]

theorem Notifies.foldl {α : Type} (f : State → α → State) (h : ∀ s x, Notifies s (f s x)) (l : List α) :
    ∀ s, Notifies s (l.foldl f s) := by
  induction l with
  | nil => exact fun s => rfl
  | cons x l ih => exact fun s => (h s x).trans (ih (f s x))

theorem Notifies.now {s t : State} (h : Notifies s t) : t.now = s.now := by rw [h]
theorem Notifies.comps {s t : State} (h : Notifies s t) : t.comps = s.comps := by rw [h]
theorem Notifies.heads {s t : State} (h : Notifies s t) : t.heads = s.heads := by rw [h]
theorem Notifies.layout {s t : State} (h : Notifies s t) : t.layout = s.layout := by rw [h]
theorem Notifies.desk {s t : State} (h : Notifies s t) : t.desk = s.desk := by rw [h]
theorem Notifies.lock {s t : State} (h : Notifies s t) : t.lock = s.lock := by rw [h]
theorem Notifies.pointer {s t : State} (h : Notifies s t) : t.pointer = s.pointer := by rw [h]
theorem Notifies.focus {s t : State} (h : Notifies s t) : t.focus = s.focus := by rw [h]
theorem Notifies.mouse {s t : State} (h : Notifies s t) : t.mouse = s.mouse := by rw [h]
theorem Notifies.keyboard {s t : State} (h : Notifies s t) : t.keyboard = s.keyboard := by rw [h]
theorem Notifies.router {s t : State} (h : Notifies s t) : t.router = s.router := by rw [h]
theorem Notifies.ports {s t : State} (h : Notifies s t) : t.ports = s.ports := by rw [h]
theorem Notifies.hotkeys {s t : State} (h : Notifies s t) : t.hotkeys = s.hotkeys := by rw [h]
theorem Notifies.matcher {s t : State} (h : Notifies s t) : t.matcher = s.matcher := by rw [h]
theorem Notifies.lineTriggers {s t : State} (h : Notifies s t) : t.lineTriggers = s.lineTriggers := by rw [h]
theorem Notifies.inputs {s t : State} (h : Notifies s t) : t.inputs = s.inputs := by rw [h]
theorem Notifies.outputs {s t : State} (h : Notifies s t) : t.outputs = s.outputs := by rw [h]
theorem Notifies.crosspointStart {s t : State} (h : Notifies s t) : t.crosspointStart = s.crosspointStart := by rw [h]
theorem Notifies.scenes {s t : State} (h : Notifies s t) : t.scenes = s.scenes := by rw [h]
theorem Notifies.blank {s t : State} (h : Notifies s t) : t.blank = s.blank := by rw [h]
theorem Notifies.links {s t : State} (h : Notifies s t) : t.links = s.links := by rw [h]
theorem Notifies.controls {s t : State} (h : Notifies s t) : t.controls = s.controls := by rw [h]
theorem Notifies.wake {s t : State} (h : Notifies s t) : t.wake = s.wake := by rw [h]
theorem Notifies.lines {s t : State} (h : Notifies s t) : t.lines = s.lines := by rw [h]
theorem Notifies.pending {s t : State} (h : Notifies s t) : t.pending = s.pending := by rw [h]

/-- `t` differs from `s` only in what the delivery of records to the ports may write. -/
def Delivers (s t : State) : Prop :=
  t = { s with ports := t.ports, router := t.router, controls := t.controls, sup := t.sup }

theorem Delivers.refl (s : State) : Delivers s s := rfl

theorem Delivers.trans {a b c : State} (h : Delivers a b) (g : Delivers b c) : Delivers a c := by
  unfold Delivers at *; rw [g, h]

theorem Delivers.foldl {α : Type} (f : State → α → State) (h : ∀ s x, Delivers s (f s x)) (l : List α) :
    ∀ s, Delivers s (l.foldl f s) := by
  induction l with
  | nil => exact fun s => rfl
  | cons x l ih => exact fun s => (h s x).trans (ih (f s x))

theorem Delivers.now {s t : State} (h : Delivers s t) : t.now = s.now := by rw [h]
theorem Delivers.comps {s t : State} (h : Delivers s t) : t.comps = s.comps := by rw [h]
theorem Delivers.heads {s t : State} (h : Delivers s t) : t.heads = s.heads := by rw [h]
theorem Delivers.layout {s t : State} (h : Delivers s t) : t.layout = s.layout := by rw [h]
theorem Delivers.desk {s t : State} (h : Delivers s t) : t.desk = s.desk := by rw [h]
theorem Delivers.lock {s t : State} (h : Delivers s t) : t.lock = s.lock := by rw [h]
theorem Delivers.pointer {s t : State} (h : Delivers s t) : t.pointer = s.pointer := by rw [h]
theorem Delivers.focus {s t : State} (h : Delivers s t) : t.focus = s.focus := by rw [h]
theorem Delivers.mouse {s t : State} (h : Delivers s t) : t.mouse = s.mouse := by rw [h]
theorem Delivers.keyboard {s t : State} (h : Delivers s t) : t.keyboard = s.keyboard := by rw [h]
theorem Delivers.hotkeys {s t : State} (h : Delivers s t) : t.hotkeys = s.hotkeys := by rw [h]
theorem Delivers.matcher {s t : State} (h : Delivers s t) : t.matcher = s.matcher := by rw [h]
theorem Delivers.lineTriggers {s t : State} (h : Delivers s t) : t.lineTriggers = s.lineTriggers := by rw [h]
theorem Delivers.inputs {s t : State} (h : Delivers s t) : t.inputs = s.inputs := by rw [h]
theorem Delivers.outputs {s t : State} (h : Delivers s t) : t.outputs = s.outputs := by rw [h]
theorem Delivers.crosspointStart {s t : State} (h : Delivers s t) : t.crosspointStart = s.crosspointStart := by rw [h]
theorem Delivers.scenes {s t : State} (h : Delivers s t) : t.scenes = s.scenes := by rw [h]
theorem Delivers.blank {s t : State} (h : Delivers s t) : t.blank = s.blank := by rw [h]
theorem Delivers.links {s t : State} (h : Delivers s t) : t.links = s.links := by rw [h]
theorem Delivers.wake {s t : State} (h : Delivers s t) : t.wake = s.wake := by rw [h]
theorem Delivers.lines {s t : State} (h : Delivers s t) : t.lines = s.lines := by rw [h]
theorem Delivers.pending {s t : State} (h : Delivers s t) : t.pending = s.pending := by rw [h]

/-- `t` differs from `s` only in what the release of recipients, computers and links may write. -/
def Releases (s t : State) : Prop :=
  t = { s with ports := t.ports, router := t.router, controls := t.controls, links := t.links, sup := t.sup }

theorem Releases.refl (s : State) : Releases s s := rfl

theorem Releases.trans {a b c : State} (h : Releases a b) (g : Releases b c) : Releases a c := by
  unfold Releases at *; rw [g, h]

theorem Releases.foldl {α : Type} (f : State → α → State) (h : ∀ s x, Releases s (f s x)) (l : List α) :
    ∀ s, Releases s (l.foldl f s) := by
  induction l with
  | nil => exact fun s => rfl
  | cons x l ih => exact fun s => (h s x).trans (ih (f s x))

theorem Releases.now {s t : State} (h : Releases s t) : t.now = s.now := by rw [h]
theorem Releases.comps {s t : State} (h : Releases s t) : t.comps = s.comps := by rw [h]
theorem Releases.heads {s t : State} (h : Releases s t) : t.heads = s.heads := by rw [h]
theorem Releases.layout {s t : State} (h : Releases s t) : t.layout = s.layout := by rw [h]
theorem Releases.desk {s t : State} (h : Releases s t) : t.desk = s.desk := by rw [h]
theorem Releases.lock {s t : State} (h : Releases s t) : t.lock = s.lock := by rw [h]
theorem Releases.pointer {s t : State} (h : Releases s t) : t.pointer = s.pointer := by rw [h]
theorem Releases.focus {s t : State} (h : Releases s t) : t.focus = s.focus := by rw [h]
theorem Releases.mouse {s t : State} (h : Releases s t) : t.mouse = s.mouse := by rw [h]
theorem Releases.keyboard {s t : State} (h : Releases s t) : t.keyboard = s.keyboard := by rw [h]
theorem Releases.hotkeys {s t : State} (h : Releases s t) : t.hotkeys = s.hotkeys := by rw [h]
theorem Releases.matcher {s t : State} (h : Releases s t) : t.matcher = s.matcher := by rw [h]
theorem Releases.lineTriggers {s t : State} (h : Releases s t) : t.lineTriggers = s.lineTriggers := by rw [h]
theorem Releases.inputs {s t : State} (h : Releases s t) : t.inputs = s.inputs := by rw [h]
theorem Releases.outputs {s t : State} (h : Releases s t) : t.outputs = s.outputs := by rw [h]
theorem Releases.crosspointStart {s t : State} (h : Releases s t) : t.crosspointStart = s.crosspointStart := by rw [h]
theorem Releases.scenes {s t : State} (h : Releases s t) : t.scenes = s.scenes := by rw [h]
theorem Releases.blank {s t : State} (h : Releases s t) : t.blank = s.blank := by rw [h]
theorem Releases.wake {s t : State} (h : Releases s t) : t.wake = s.wake := by rw [h]
theorem Releases.lines {s t : State} (h : Releases s t) : t.lines = s.lines := by rw [h]
theorem Releases.pending {s t : State} (h : Releases s t) : t.pending = s.pending := by rw [h]

/-- `t` differs from `s` only in what a change of control may write. -/
def Governs (s t : State) : Prop :=
  t = { s with ports := t.ports, router := t.router, controls := t.controls, links := t.links, pointer := t.pointer, sup := t.sup }

theorem Governs.refl (s : State) : Governs s s := rfl

theorem Governs.trans {a b c : State} (h : Governs a b) (g : Governs b c) : Governs a c := by
  unfold Governs at *; rw [g, h]

theorem Governs.foldl {α : Type} (f : State → α → State) (h : ∀ s x, Governs s (f s x)) (l : List α) :
    ∀ s, Governs s (l.foldl f s) := by
  induction l with
  | nil => exact fun s => rfl
  | cons x l ih => exact fun s => (h s x).trans (ih (f s x))

theorem Governs.now {s t : State} (h : Governs s t) : t.now = s.now := by rw [h]
theorem Governs.comps {s t : State} (h : Governs s t) : t.comps = s.comps := by rw [h]
theorem Governs.heads {s t : State} (h : Governs s t) : t.heads = s.heads := by rw [h]
theorem Governs.layout {s t : State} (h : Governs s t) : t.layout = s.layout := by rw [h]
theorem Governs.desk {s t : State} (h : Governs s t) : t.desk = s.desk := by rw [h]
theorem Governs.lock {s t : State} (h : Governs s t) : t.lock = s.lock := by rw [h]
theorem Governs.focus {s t : State} (h : Governs s t) : t.focus = s.focus := by rw [h]
theorem Governs.mouse {s t : State} (h : Governs s t) : t.mouse = s.mouse := by rw [h]
theorem Governs.keyboard {s t : State} (h : Governs s t) : t.keyboard = s.keyboard := by rw [h]
theorem Governs.hotkeys {s t : State} (h : Governs s t) : t.hotkeys = s.hotkeys := by rw [h]
theorem Governs.matcher {s t : State} (h : Governs s t) : t.matcher = s.matcher := by rw [h]
theorem Governs.lineTriggers {s t : State} (h : Governs s t) : t.lineTriggers = s.lineTriggers := by rw [h]
theorem Governs.inputs {s t : State} (h : Governs s t) : t.inputs = s.inputs := by rw [h]
theorem Governs.outputs {s t : State} (h : Governs s t) : t.outputs = s.outputs := by rw [h]
theorem Governs.crosspointStart {s t : State} (h : Governs s t) : t.crosspointStart = s.crosspointStart := by rw [h]
theorem Governs.scenes {s t : State} (h : Governs s t) : t.scenes = s.scenes := by rw [h]
theorem Governs.blank {s t : State} (h : Governs s t) : t.blank = s.blank := by rw [h]
theorem Governs.wake {s t : State} (h : Governs s t) : t.wake = s.wake := by rw [h]
theorem Governs.lines {s t : State} (h : Governs s t) : t.lines = s.lines := by rw [h]
theorem Governs.pending {s t : State} (h : Governs s t) : t.pending = s.pending := by rw [h]

/-- `t` differs from `s` only in what a write of the focus record may write. -/
def Refocuses (s t : State) : Prop :=
  t = { s with ports := t.ports, router := t.router, controls := t.controls, links := t.links, pointer := t.pointer, focus := t.focus, keyboard := t.keyboard, lines := t.lines, sup := t.sup }

theorem Refocuses.refl (s : State) : Refocuses s s := rfl

theorem Refocuses.trans {a b c : State} (h : Refocuses a b) (g : Refocuses b c) : Refocuses a c := by
  unfold Refocuses at *; rw [g, h]

theorem Refocuses.foldl {α : Type} (f : State → α → State) (h : ∀ s x, Refocuses s (f s x)) (l : List α) :
    ∀ s, Refocuses s (l.foldl f s) := by
  induction l with
  | nil => exact fun s => rfl
  | cons x l ih => exact fun s => (h s x).trans (ih (f s x))

theorem Refocuses.now {s t : State} (h : Refocuses s t) : t.now = s.now := by rw [h]
theorem Refocuses.comps {s t : State} (h : Refocuses s t) : t.comps = s.comps := by rw [h]
theorem Refocuses.heads {s t : State} (h : Refocuses s t) : t.heads = s.heads := by rw [h]
theorem Refocuses.layout {s t : State} (h : Refocuses s t) : t.layout = s.layout := by rw [h]
theorem Refocuses.desk {s t : State} (h : Refocuses s t) : t.desk = s.desk := by rw [h]
theorem Refocuses.lock {s t : State} (h : Refocuses s t) : t.lock = s.lock := by rw [h]
theorem Refocuses.mouse {s t : State} (h : Refocuses s t) : t.mouse = s.mouse := by rw [h]
theorem Refocuses.hotkeys {s t : State} (h : Refocuses s t) : t.hotkeys = s.hotkeys := by rw [h]
theorem Refocuses.matcher {s t : State} (h : Refocuses s t) : t.matcher = s.matcher := by rw [h]
theorem Refocuses.lineTriggers {s t : State} (h : Refocuses s t) : t.lineTriggers = s.lineTriggers := by rw [h]
theorem Refocuses.inputs {s t : State} (h : Refocuses s t) : t.inputs = s.inputs := by rw [h]
theorem Refocuses.outputs {s t : State} (h : Refocuses s t) : t.outputs = s.outputs := by rw [h]
theorem Refocuses.crosspointStart {s t : State} (h : Refocuses s t) : t.crosspointStart = s.crosspointStart := by rw [h]
theorem Refocuses.scenes {s t : State} (h : Refocuses s t) : t.scenes = s.scenes := by rw [h]
theorem Refocuses.blank {s t : State} (h : Refocuses s t) : t.blank = s.blank := by rw [h]
theorem Refocuses.wake {s t : State} (h : Refocuses s t) : t.wake = s.wake := by rw [h]
theorem Refocuses.pending {s t : State} (h : Refocuses s t) : t.pending = s.pending := by rw [h]

/-- `t` differs from `s` only in what the wake controller may write. -/
def Wakes (s t : State) : Prop :=
  t = { s with ports := t.ports, router := t.router, wake := t.wake, lines := t.lines, sup := t.sup }

theorem Wakes.refl (s : State) : Wakes s s := rfl

theorem Wakes.trans {a b c : State} (h : Wakes a b) (g : Wakes b c) : Wakes a c := by
  unfold Wakes at *; rw [g, h]

theorem Wakes.foldl {α : Type} (f : State → α → State) (h : ∀ s x, Wakes s (f s x)) (l : List α) :
    ∀ s, Wakes s (l.foldl f s) := by
  induction l with
  | nil => exact fun s => rfl
  | cons x l ih => exact fun s => (h s x).trans (ih (f s x))

theorem Wakes.now {s t : State} (h : Wakes s t) : t.now = s.now := by rw [h]
theorem Wakes.comps {s t : State} (h : Wakes s t) : t.comps = s.comps := by rw [h]
theorem Wakes.heads {s t : State} (h : Wakes s t) : t.heads = s.heads := by rw [h]
theorem Wakes.layout {s t : State} (h : Wakes s t) : t.layout = s.layout := by rw [h]
theorem Wakes.desk {s t : State} (h : Wakes s t) : t.desk = s.desk := by rw [h]
theorem Wakes.lock {s t : State} (h : Wakes s t) : t.lock = s.lock := by rw [h]
theorem Wakes.pointer {s t : State} (h : Wakes s t) : t.pointer = s.pointer := by rw [h]
theorem Wakes.focus {s t : State} (h : Wakes s t) : t.focus = s.focus := by rw [h]
theorem Wakes.mouse {s t : State} (h : Wakes s t) : t.mouse = s.mouse := by rw [h]
theorem Wakes.keyboard {s t : State} (h : Wakes s t) : t.keyboard = s.keyboard := by rw [h]
theorem Wakes.hotkeys {s t : State} (h : Wakes s t) : t.hotkeys = s.hotkeys := by rw [h]
theorem Wakes.matcher {s t : State} (h : Wakes s t) : t.matcher = s.matcher := by rw [h]
theorem Wakes.lineTriggers {s t : State} (h : Wakes s t) : t.lineTriggers = s.lineTriggers := by rw [h]
theorem Wakes.inputs {s t : State} (h : Wakes s t) : t.inputs = s.inputs := by rw [h]
theorem Wakes.outputs {s t : State} (h : Wakes s t) : t.outputs = s.outputs := by rw [h]
theorem Wakes.crosspointStart {s t : State} (h : Wakes s t) : t.crosspointStart = s.crosspointStart := by rw [h]
theorem Wakes.scenes {s t : State} (h : Wakes s t) : t.scenes = s.scenes := by rw [h]
theorem Wakes.blank {s t : State} (h : Wakes s t) : t.blank = s.blank := by rw [h]
theorem Wakes.links {s t : State} (h : Wakes s t) : t.links = s.links := by rw [h]
theorem Wakes.controls {s t : State} (h : Wakes s t) : t.controls = s.controls := by rw [h]
theorem Wakes.pending {s t : State} (h : Wakes s t) : t.pending = s.pending := by rw [h]

/-- `t` differs from `s` only in what the crosspoint may write. -/
def Switches (s t : State) : Prop :=
  t = { s with ports := t.ports, router := t.router, controls := t.controls, links := t.links, pointer := t.pointer, focus := t.focus, keyboard := t.keyboard, lines := t.lines, inputs := t.inputs, outputs := t.outputs, sup := t.sup }

theorem Switches.refl (s : State) : Switches s s := rfl

theorem Switches.trans {a b c : State} (h : Switches a b) (g : Switches b c) : Switches a c := by
  unfold Switches at *; rw [g, h]

theorem Switches.foldl {α : Type} (f : State → α → State) (h : ∀ s x, Switches s (f s x)) (l : List α) :
    ∀ s, Switches s (l.foldl f s) := by
  induction l with
  | nil => exact fun s => rfl
  | cons x l ih => exact fun s => (h s x).trans (ih (f s x))

theorem Switches.now {s t : State} (h : Switches s t) : t.now = s.now := by rw [h]
theorem Switches.comps {s t : State} (h : Switches s t) : t.comps = s.comps := by rw [h]
theorem Switches.heads {s t : State} (h : Switches s t) : t.heads = s.heads := by rw [h]
theorem Switches.layout {s t : State} (h : Switches s t) : t.layout = s.layout := by rw [h]
theorem Switches.desk {s t : State} (h : Switches s t) : t.desk = s.desk := by rw [h]
theorem Switches.lock {s t : State} (h : Switches s t) : t.lock = s.lock := by rw [h]
theorem Switches.mouse {s t : State} (h : Switches s t) : t.mouse = s.mouse := by rw [h]
theorem Switches.hotkeys {s t : State} (h : Switches s t) : t.hotkeys = s.hotkeys := by rw [h]
theorem Switches.matcher {s t : State} (h : Switches s t) : t.matcher = s.matcher := by rw [h]
theorem Switches.lineTriggers {s t : State} (h : Switches s t) : t.lineTriggers = s.lineTriggers := by rw [h]
theorem Switches.crosspointStart {s t : State} (h : Switches s t) : t.crosspointStart = s.crosspointStart := by rw [h]
theorem Switches.scenes {s t : State} (h : Switches s t) : t.scenes = s.scenes := by rw [h]
theorem Switches.blank {s t : State} (h : Switches s t) : t.blank = s.blank := by rw [h]
theorem Switches.wake {s t : State} (h : Switches s t) : t.wake = s.wake := by rw [h]
theorem Switches.pending {s t : State} (h : Switches s t) : t.pending = s.pending := by rw [h]

/-- `t` differs from `s` only in what an action may write. -/
def Acts (s t : State) : Prop :=
  t = { s with ports := t.ports, router := t.router, controls := t.controls, links := t.links, pointer := t.pointer, focus := t.focus, keyboard := t.keyboard, lines := t.lines, outputs := t.outputs, blank := t.blank, matcher := t.matcher, wake := t.wake, sup := t.sup }

theorem Acts.refl (s : State) : Acts s s := rfl

theorem Acts.trans {a b c : State} (h : Acts a b) (g : Acts b c) : Acts a c := by
  unfold Acts at *; rw [g, h]

theorem Acts.foldl {α : Type} (f : State → α → State) (h : ∀ s x, Acts s (f s x)) (l : List α) :
    ∀ s, Acts s (l.foldl f s) := by
  induction l with
  | nil => exact fun s => rfl
  | cons x l ih => exact fun s => (h s x).trans (ih (f s x))

theorem Acts.now {s t : State} (h : Acts s t) : t.now = s.now := by rw [h]
theorem Acts.comps {s t : State} (h : Acts s t) : t.comps = s.comps := by rw [h]
theorem Acts.heads {s t : State} (h : Acts s t) : t.heads = s.heads := by rw [h]
theorem Acts.layout {s t : State} (h : Acts s t) : t.layout = s.layout := by rw [h]
theorem Acts.desk {s t : State} (h : Acts s t) : t.desk = s.desk := by rw [h]
theorem Acts.lock {s t : State} (h : Acts s t) : t.lock = s.lock := by rw [h]
theorem Acts.mouse {s t : State} (h : Acts s t) : t.mouse = s.mouse := by rw [h]
theorem Acts.hotkeys {s t : State} (h : Acts s t) : t.hotkeys = s.hotkeys := by rw [h]
theorem Acts.lineTriggers {s t : State} (h : Acts s t) : t.lineTriggers = s.lineTriggers := by rw [h]
theorem Acts.inputs {s t : State} (h : Acts s t) : t.inputs = s.inputs := by rw [h]
theorem Acts.crosspointStart {s t : State} (h : Acts s t) : t.crosspointStart = s.crosspointStart := by rw [h]
theorem Acts.scenes {s t : State} (h : Acts s t) : t.scenes = s.scenes := by rw [h]
theorem Acts.pending {s t : State} (h : Acts s t) : t.pending = s.pending := by rw [h]

/-- `t` differs from `s` only in what a desk link or a computer port may write. -/
def Receives (s t : State) : Prop :=
  t = { s with ports := t.ports, router := t.router, controls := t.controls, links := t.links, pointer := t.pointer, focus := t.focus, keyboard := t.keyboard, lines := t.lines, inputs := t.inputs, outputs := t.outputs, wake := t.wake, sup := t.sup }

theorem Receives.refl (s : State) : Receives s s := rfl

theorem Receives.trans {a b c : State} (h : Receives a b) (g : Receives b c) : Receives a c := by
  unfold Receives at *; rw [g, h]

theorem Receives.foldl {α : Type} (f : State → α → State) (h : ∀ s x, Receives s (f s x)) (l : List α) :
    ∀ s, Receives s (l.foldl f s) := by
  induction l with
  | nil => exact fun s => rfl
  | cons x l ih => exact fun s => (h s x).trans (ih (f s x))

theorem Receives.now {s t : State} (h : Receives s t) : t.now = s.now := by rw [h]
theorem Receives.comps {s t : State} (h : Receives s t) : t.comps = s.comps := by rw [h]
theorem Receives.heads {s t : State} (h : Receives s t) : t.heads = s.heads := by rw [h]
theorem Receives.layout {s t : State} (h : Receives s t) : t.layout = s.layout := by rw [h]
theorem Receives.desk {s t : State} (h : Receives s t) : t.desk = s.desk := by rw [h]
theorem Receives.lock {s t : State} (h : Receives s t) : t.lock = s.lock := by rw [h]
theorem Receives.mouse {s t : State} (h : Receives s t) : t.mouse = s.mouse := by rw [h]
theorem Receives.hotkeys {s t : State} (h : Receives s t) : t.hotkeys = s.hotkeys := by rw [h]
theorem Receives.matcher {s t : State} (h : Receives s t) : t.matcher = s.matcher := by rw [h]
theorem Receives.lineTriggers {s t : State} (h : Receives s t) : t.lineTriggers = s.lineTriggers := by rw [h]
theorem Receives.crosspointStart {s t : State} (h : Receives s t) : t.crosspointStart = s.crosspointStart := by rw [h]
theorem Receives.scenes {s t : State} (h : Receives s t) : t.scenes = s.scenes := by rw [h]
theorem Receives.blank {s t : State} (h : Receives s t) : t.blank = s.blank := by rw [h]
theorem Receives.pending {s t : State} (h : Receives s t) : t.pending = s.pending := by rw [h]

/-- `t` differs from `s` only in what a line or the desk keyboard may write. -/
def Senses (s t : State) : Prop :=
  t = { s with ports := t.ports, router := t.router, controls := t.controls, links := t.links, pointer := t.pointer, focus := t.focus, keyboard := t.keyboard, lines := t.lines, outputs := t.outputs, blank := t.blank, matcher := t.matcher, lineTriggers := t.lineTriggers, wake := t.wake, sup := t.sup }

theorem Senses.refl (s : State) : Senses s s := rfl

theorem Senses.trans {a b c : State} (h : Senses a b) (g : Senses b c) : Senses a c := by
  unfold Senses at *; rw [g, h]

theorem Senses.foldl {α : Type} (f : State → α → State) (h : ∀ s x, Senses s (f s x)) (l : List α) :
    ∀ s, Senses s (l.foldl f s) := by
  induction l with
  | nil => exact fun s => rfl
  | cons x l ih => exact fun s => (h s x).trans (ih (f s x))

theorem Senses.now {s t : State} (h : Senses s t) : t.now = s.now := by rw [h]
theorem Senses.comps {s t : State} (h : Senses s t) : t.comps = s.comps := by rw [h]
theorem Senses.heads {s t : State} (h : Senses s t) : t.heads = s.heads := by rw [h]
theorem Senses.layout {s t : State} (h : Senses s t) : t.layout = s.layout := by rw [h]
theorem Senses.desk {s t : State} (h : Senses s t) : t.desk = s.desk := by rw [h]
theorem Senses.lock {s t : State} (h : Senses s t) : t.lock = s.lock := by rw [h]
theorem Senses.mouse {s t : State} (h : Senses s t) : t.mouse = s.mouse := by rw [h]
theorem Senses.hotkeys {s t : State} (h : Senses s t) : t.hotkeys = s.hotkeys := by rw [h]
theorem Senses.inputs {s t : State} (h : Senses s t) : t.inputs = s.inputs := by rw [h]
theorem Senses.crosspointStart {s t : State} (h : Senses s t) : t.crosspointStart = s.crosspointStart := by rw [h]
theorem Senses.scenes {s t : State} (h : Senses s t) : t.scenes = s.scenes := by rw [h]
theorem Senses.pending {s t : State} (h : Senses s t) : t.pending = s.pending := by rw [h]

/-! ### What one may write, another may write too -/

theorem Notifies.toDelivers {s t : State} (h : Notifies s t) : Delivers s t := by
  unfold Notifies at h; unfold Delivers; rw [h]

theorem Notifies.toReleases {s t : State} (h : Notifies s t) : Releases s t := by
  unfold Notifies at h; unfold Releases; rw [h]

theorem Notifies.toGoverns {s t : State} (h : Notifies s t) : Governs s t := by
  unfold Notifies at h; unfold Governs; rw [h]

theorem Notifies.toRefocuses {s t : State} (h : Notifies s t) : Refocuses s t := by
  unfold Notifies at h; unfold Refocuses; rw [h]

theorem Notifies.toWakes {s t : State} (h : Notifies s t) : Wakes s t := by
  unfold Notifies at h; unfold Wakes; rw [h]

theorem Notifies.toSwitches {s t : State} (h : Notifies s t) : Switches s t := by
  unfold Notifies at h; unfold Switches; rw [h]

theorem Notifies.toActs {s t : State} (h : Notifies s t) : Acts s t := by
  unfold Notifies at h; unfold Acts; rw [h]

theorem Notifies.toReceives {s t : State} (h : Notifies s t) : Receives s t := by
  unfold Notifies at h; unfold Receives; rw [h]

theorem Notifies.toSenses {s t : State} (h : Notifies s t) : Senses s t := by
  unfold Notifies at h; unfold Senses; rw [h]

theorem Delivers.toReleases {s t : State} (h : Delivers s t) : Releases s t := by
  unfold Delivers at h; unfold Releases; rw [h]

theorem Delivers.toGoverns {s t : State} (h : Delivers s t) : Governs s t := by
  unfold Delivers at h; unfold Governs; rw [h]

theorem Delivers.toRefocuses {s t : State} (h : Delivers s t) : Refocuses s t := by
  unfold Delivers at h; unfold Refocuses; rw [h]

theorem Delivers.toSwitches {s t : State} (h : Delivers s t) : Switches s t := by
  unfold Delivers at h; unfold Switches; rw [h]

theorem Delivers.toActs {s t : State} (h : Delivers s t) : Acts s t := by
  unfold Delivers at h; unfold Acts; rw [h]

theorem Delivers.toReceives {s t : State} (h : Delivers s t) : Receives s t := by
  unfold Delivers at h; unfold Receives; rw [h]

theorem Delivers.toSenses {s t : State} (h : Delivers s t) : Senses s t := by
  unfold Delivers at h; unfold Senses; rw [h]

theorem Releases.toGoverns {s t : State} (h : Releases s t) : Governs s t := by
  unfold Releases at h; unfold Governs; rw [h]

theorem Releases.toRefocuses {s t : State} (h : Releases s t) : Refocuses s t := by
  unfold Releases at h; unfold Refocuses; rw [h]

theorem Releases.toSwitches {s t : State} (h : Releases s t) : Switches s t := by
  unfold Releases at h; unfold Switches; rw [h]

theorem Releases.toActs {s t : State} (h : Releases s t) : Acts s t := by
  unfold Releases at h; unfold Acts; rw [h]

theorem Releases.toReceives {s t : State} (h : Releases s t) : Receives s t := by
  unfold Releases at h; unfold Receives; rw [h]

theorem Releases.toSenses {s t : State} (h : Releases s t) : Senses s t := by
  unfold Releases at h; unfold Senses; rw [h]

theorem Governs.toRefocuses {s t : State} (h : Governs s t) : Refocuses s t := by
  unfold Governs at h; unfold Refocuses; rw [h]

theorem Governs.toSwitches {s t : State} (h : Governs s t) : Switches s t := by
  unfold Governs at h; unfold Switches; rw [h]

theorem Governs.toActs {s t : State} (h : Governs s t) : Acts s t := by
  unfold Governs at h; unfold Acts; rw [h]

theorem Governs.toReceives {s t : State} (h : Governs s t) : Receives s t := by
  unfold Governs at h; unfold Receives; rw [h]

theorem Governs.toSenses {s t : State} (h : Governs s t) : Senses s t := by
  unfold Governs at h; unfold Senses; rw [h]

theorem Refocuses.toSwitches {s t : State} (h : Refocuses s t) : Switches s t := by
  unfold Refocuses at h; unfold Switches; rw [h]

theorem Refocuses.toActs {s t : State} (h : Refocuses s t) : Acts s t := by
  unfold Refocuses at h; unfold Acts; rw [h]

theorem Refocuses.toReceives {s t : State} (h : Refocuses s t) : Receives s t := by
  unfold Refocuses at h; unfold Receives; rw [h]

theorem Refocuses.toSenses {s t : State} (h : Refocuses s t) : Senses s t := by
  unfold Refocuses at h; unfold Senses; rw [h]

theorem Wakes.toActs {s t : State} (h : Wakes s t) : Acts s t := by
  unfold Wakes at h; unfold Acts; rw [h]

theorem Wakes.toReceives {s t : State} (h : Wakes s t) : Receives s t := by
  unfold Wakes at h; unfold Receives; rw [h]

theorem Wakes.toSenses {s t : State} (h : Wakes s t) : Senses s t := by
  unfold Wakes at h; unfold Senses; rw [h]

theorem Switches.toReceives {s t : State} (h : Switches s t) : Receives s t := by
  unfold Switches at h; unfold Receives; rw [h]

theorem Acts.toSenses {s t : State} (h : Acts s t) : Senses s t := by
  unfold Acts at h; unfold Senses; rw [h]
/-! ### Records and frames handed over -/

theorem notify_notifies (c : NoticeClass) (f : SupFrame) (s : State) : Notifies s (notify c f s) := rfl

theorem portKey_delivers (n : Comp) (r : KeyRecord) (s : State) : Delivers s (portKey n r s) := by
  unfold portKey; dsimp only; split <;> rfl

theorem portPointer_delivers (n : Comp) (r : PointerRecord) (s : State) : Delivers s (portPointer n r s) := by
  unfold portPointer; dsimp only; split <;> rfl

theorem touchDesk_delivers (f : Former) (n : Comp) (s : State) : Delivers s (touchDesk f n s) := by
  cases f <;> rfl

theorem deliverKeys_delivers (f : Former) (n : Comp) (k : KeyState) (s : State) :
    Delivers s (deliverKeys f n k s) := by
  unfold deliverKeys; dsimp only; split
  · exact .refl s
  · exact (portKey_delivers n _ s).trans (Delivers.trans (b := setLastKey _ _ _) rfl (touchDesk_delivers f n _))

theorem deliverPointer_delivers (f : Former) (n : Comp) (r : PointerRecord) (s : State) :
    Delivers s (deliverPointer f n r s) := by
  unfold deliverPointer; split
  · exact (portPointer_delivers n r s).trans (Delivers.trans (b := setLastPointer _ _ _) rfl (touchDesk_delivers f n _))
  · exact .refl s

theorem releaseInput_delivers (f : Former) (n : Comp) (s : State) : Delivers s (releaseInput f n s) := by
  have h := deliverKeys_delivers f n KeyState.empty s
  unfold releaseInput; dsimp only; split
  · split
    · exact h
    · exact h.trans (deliverPointer_delivers f n _ _)
  · exact h

theorem clearCarry_delivers (n : Comp) (s : State) : Delivers s (clearCarry n s) := rfl

theorem flushPort_delivers (n : Comp) (s : State) : Delivers s (flushPort n s) := rfl

theorem flushPort_wakes (n : Comp) (s : State) : Wakes s (flushPort n s) := rfl

theorem deliverMapped_delivers (f : Former) (h : Head) (x y : Nat) (b : Buttons) (w : Int) (s : State) :
    Delivers s (deliverMapped f h x y b w s) :=
  Delivers.trans (b := countClamps _ _ _) rfl (deliverPointer_delivers f _ _ _)

theorem deliverRemote_delivers (h : Head) (f : PointerFrame) (s : State) : Delivers s (deliverRemote h f s) := by
  unfold deliverRemote; split
  · exact deliverMapped_delivers ..
  all_goals exact deliverPointer_delivers ..

theorem sendFrame_releases (k : LinkId) (m : LinkMsg) (s : State) : Releases s (sendFrame k m s) := rfl

theorem sendKeys_releases (k : LinkId) (ks : KeyState) (s : State) : Releases s (sendKeys k ks s) := by
  unfold sendKeys; split <;> rfl

theorem sendPointer_releases (k : LinkId) (f : PointerFrame) (s : State) : Releases s (sendPointer k f s) := rfl

theorem releaseLink_releases (k : LinkId) (s : State) : Releases s (releaseLink k s) := by
  have h := sendKeys_releases k KeyState.empty s
  unfold releaseLink; dsimp only; split
  · split
    · exact h
    · exact h.trans (sendPointer_releases k _ _)
  · exact h

/-! ### The recipient set -/

theorem maskHeld_releases (s : State) : Releases s (maskHeld s) := rfl

theorem releaseLeavers_releases (old s : State) : Releases s (releaseLeavers old s) := by
  refine Releases.trans (Releases.foldl _ (fun s m => ?_) _ _) (Releases.foldl _ (fun s k => ?_) _ _)
  · unfold releaseIfLeft; split
    · exact (releaseInput_delivers .desk m s).toReleases
    · exact .refl s
  · unfold releaseLinkIfLeft; split
    · exact releaseLink_releases k s
    · exact .refl s

theorem rederive_releases (old s : State) : Releases s (rederive old s) := by
  unfold rederive; dsimp only; split
  · exact (releaseLeavers_releases old s).trans (maskHeld_releases _)
  · exact releaseLeavers_releases old s

/-! ### The focus -/

theorem clearCapture_governs (s : State) : Governs s (clearCapture s) := by
  unfold clearCapture; dsimp only; split
  · split <;> rfl
  · exact .refl s

theorem checkLights_refocuses (s : State) : Refocuses s (checkLights s) := by
  unfold checkLights; split <;> rfl

theorem tellTally_refocuses (s : State) : Refocuses s (tellTally s) :=
  Refocuses.foldl _ (fun s l => by unfold setTally; split <;> rfl) _ _

theorem takeGlideZone_refocuses (t : FocusTarget) (s : State) : Refocuses s (takeGlideZone t s) := by
  unfold takeGlideZone; split
  · exact .refl s
  · rfl
  · split <;> rfl

theorem placeAt_refocuses (m : Option Monitor) (s : State) : Refocuses s (placeAt m s) := by
  unfold placeAt; split <;> rfl

theorem noticeFocus_refocuses (old s : State) : Refocuses s (noticeFocus old s) := by
  unfold noticeFocus; split <;> rfl

theorem leaveTarget_refocuses (t : FocusTarget) (s : State) : Refocuses s (leaveTarget t s) := by
  unfold leaveTarget; dsimp only; split <;> rfl

theorem focusChange_refocuses (t : FocusTarget) (o : Origin) (tile : Option Monitor) (place : Bool) (s : State) :
    Refocuses s (focusChange t o tile place s) := by
  have h : Refocuses s ((maskHeld s).setFocus ⟨t, o, tile⟩) := rfl
  have h4 := h.trans (leaveTarget_refocuses s.focus.target _)
  have h5 := h4.trans (releaseLeavers_releases s _).toRefocuses
  have h6 := h5.trans (takeGlideZone_refocuses t _)
  have h7 := ((h6.trans (tellTally_refocuses _)).trans (checkLights_refocuses _)).trans (noticeFocus_refocuses s _)
  unfold focusChange; dsimp only; split
  · exact h7.trans (placeAt_refocuses tile _)
  · exact h7

theorem writePlaced_refocuses (t : FocusTarget) (o : Origin) (m : Option Monitor) (s : State) :
    Refocuses s (writePlaced t o m s) := by
  unfold writePlaced; split
  · have h : Refocuses (clearCapture s) ((clearCapture s).setFocus ⟨t, o, m⟩) := rfl
    exact (((clearCapture_governs s).toRefocuses.trans h).trans (placeAt_refocuses m _)).trans
      (noticeFocus_refocuses s _)
  · exact focusChange_refocuses t o m true s

theorem focusBy_refocuses (t : FocusTarget) (o : Origin) (s : State) : Refocuses s (focusBy t o s) :=
  writePlaced_refocuses t o _ s

theorem reevaluate_refocuses (m : Monitor) (s : State) : Refocuses s (reevaluate m s) := by
  unfold reevaluate; dsimp only; split
  · exact Refocuses.trans (b := s.setFocus _) rfl (noticeFocus_refocuses s _)
  · exact focusChange_refocuses _ _ _ _ s

theorem outputSet_refocuses (o : OutputId) (s : State) : Refocuses s (outputSet o s) := by
  unfold outputSet; split
  · exact .refl s
  · dsimp only
    split <;> split
    · exact (clearCapture_governs s).toRefocuses.trans (reevaluate_refocuses _ _)
    · exact (clearCapture_governs s).toRefocuses
    · exact reevaluate_refocuses _ s
    · exact .refl s

theorem sessionFocusEnd_refocuses (k : LinkId) (s : State) : Refocuses s (sessionFocusEnd k s) := by
  unfold sessionFocusEnd; split
  · exact focusChange_refocuses _ _ _ _ s
  · exact .refl s

theorem focusBlank_refocuses (old s : State) : Refocuses s (focusBlank old s) := by
  unfold focusBlank; dsimp only
  have h : Refocuses s ((maskHeld s).setFocus ⟨s.focus.target, .blank, s.focus.tile⟩) := rfl
  exact ((h.trans (clearCapture_governs _).toRefocuses).trans (releaseLeavers_releases old _).toRefocuses).trans
    (noticeFocus_refocuses s _)

/-! ### The crosspoint -/

theorem takeTarget_switches (o : OutputId) (t : Target) (s : State) : Switches s (takeTarget o t s) := rfl

theorem enterState_switches (o : OutputId) (st : OutputState) (s : State) : Switches s (enterState o st s) := rfl

theorem setCrosspoint_switches (o : OutputId) (t : Target) (s : State) : Switches s (setCrosspoint o t s) := by
  have h : Switches s (outputSet o (s.modOut o fun r => { r with assignment := t })) :=
    Switches.trans (b := s.modOut o _) rfl (outputSet_refocuses o _).toSwitches
  unfold setCrosspoint; dsimp only; split <;> exact h.trans rfl

theorem sendModeFor_releases (h : Head) (s : State) (k : LinkId) : Releases s (sendModeFor h s k) := by
  unfold sendModeFor; split <;> rfl

theorem changeInput_switches (i : Input) (v : InputState) (s : State) : Switches s (changeInput i v s) := by
  have h : Switches s (allOutputs.foldl (followInput i v) (s.setInput i v)) := by
    refine Switches.trans (b := s.setInput i v) rfl (Switches.foldl _ (fun s o => ?_) _ _)
    unfold followInput; split
    · split
      · rfl
      · split <;> rfl
      · split <;> rfl
      · rfl
    · rfl
  unfold changeInput; dsimp only; split
  · exact .refl s
  · split
    · exact (h.trans (Switches.foldl _ (fun s k => (sendModeFor_releases _ s k).toSwitches) _ _)).trans
        (notify_notifies _ _ _).toSwitches
    · exact h.trans (notify_notifies _ _ _).toSwitches

/-! ### Control -/

theorem writeHolder_delivers (n : Comp) (h : Holder) (s : State) : Delivers s (writeHolder n h s) := rfl

theorem endCaptureOn_governs (n : Comp) (s : State) : Governs s (endCaptureOn n s) := by
  unfold endCaptureOn; split
  · exact clearCapture_governs s
  · exact .refl s

theorem grantTo_governs (n : Comp) (k : LinkId) (c : HolderCause) (s : State) : Governs s (grantTo n k c s) := by
  have h2 : Delivers s (releaseInput .table n (s.modControl n fun r => { r with claims := dropClaims k r.claims })) :=
    Delivers.trans (b := s.modControl n _) rfl (releaseInput_delivers .table n _)
  have h3 := (h2.trans (writeHolder_delivers n (.link k) _)).toGoverns
  exact (h3.trans (rederive_releases s _).toGoverns).trans 
    (((endCaptureOn_governs n _).trans (sendFrame_releases k .grant _).toGoverns).trans (notify_notifies _ _ _).toGoverns)

theorem autoGrant_governs (n : Comp) (s : State) : Governs s (autoGrant n s) := by
  unfold autoGrant; split
  · split
    · exact grantTo_governs n _ _ s
    · exact .refl s
  · exact .refl s

theorem afterReturn_governs (n : Comp) (s : State) : Governs s (afterReturn n s) := by
  unfold afterReturn; split
  · split
    · exact grantTo_governs n _ _ s
    · exact Governs.trans (b := s.modControl n _) rfl (autoGrant_governs n _)
  · exact autoGrant_governs n s

theorem returnToDesk_governs (n : Comp) (k : LinkId) (c : HolderCause) (s : State) :
    Governs s (returnToDesk n k c s) := by
  have h2 := ((releaseInput_delivers .table n s).trans (writeHolder_delivers n .desk _)).toGoverns
  have h3 := h2.trans (rederive_releases s _).toGoverns
  exact h3.trans ((notify_notifies _ _ _).toGoverns.trans (afterReturn_governs n _))

theorem endControl_governs (k : LinkId) (c : HolderCause) (s : State) : Governs s (endControl k c s) := by
  refine Governs.trans (Governs.foldl _ (fun s n => ?_) _ _) (Governs.foldl _ (fun s n => ?_) _ _)
  · unfold removeClaim; split <;> rfl
  · unfold returnIfHeld; split
    · exact returnToDesk_governs n k c s
    · exact .refl s

theorem setViewer_governs (k : LinkId) (v : ViewerControl) (c : ViewerCause) (s : State) :
    Governs s (setViewer k v c s) := by
  have h2 (t : State) (p : Prop) [Decidable p] :
      Governs t (if p then setLinkPointer k none (setLinkKeys k KeyState.empty t) else t) := by split <;> rfl
  have h3 (t : State) (p : Prop) [Decidable p] : Governs t (if p then clearCapture t else t) := by
    split
    · exact clearCapture_governs t
    · exact .refl t
  unfold setViewer; dsimp only; split
  · exact .refl s
  · exact (Governs.trans (b := s.modLink k _) rfl ((h2 _ _).trans (h3 _ _))).trans
      ((rederive_releases s _).toGoverns.trans (notify_notifies _ _ _).toGoverns)

theorem denyClaim_governs (k : LinkId) (n : Comp) (r : DenyReason) (s : State) : Governs s (denyClaim k n r s) := rfl

theorem claimOn_governs (k : LinkId) (n : Comp) (v : Bool) (kind : ClaimKind) (s : State) :
    Governs s (claimOn k n v kind s) := by
  unfold claimOn; dsimp only
  split; · rfl
  split; · rfl
  split; · rfl
  split; · rfl
  split; · exact grantTo_governs n k _ s
  split <;> rfl

theorem takeClaim_governs (k : LinkId) (kind : ClaimKind) (s : State) : Governs s (takeClaim k kind s) := by
  unfold takeClaim; split
  · exact claimOn_governs ..
  · unfold denyNoSession; split <;> rfl

theorem takeRelease_governs (k : LinkId) (s : State) : Governs s (takeRelease k s) := by
  unfold takeRelease; split
  · split
    · exact returnToDesk_governs ..
    · dsimp only; split <;> rfl
  · rfl

theorem grantControl_governs (n : Comp) (k : Option LinkId) (s : State) : Governs s (grantControl n k s).state := by
  unfold grantControl; split
  · rfl
  · split
    · rfl
    · split
      · exact grantTo_governs ..
      · rfl

theorem takeBack_governs (n : Comp) (s : State) : Governs s (takeBack n s).state := by
  unfold takeBack; split
  · rfl
  · refine Governs.trans ?_ (returnToDesk_governs ..)
    rfl

theorem claimControl_governs (k : LinkId) (kind : ClaimKind) (s : State) :
    Governs s (claimControl k kind s).state := by
  unfold claimControl; split
  · rfl
  · split
    · rfl
    · split
      · exact Governs.trans (b := sendFrame _ _ _) rfl (setViewer_governs ..)
      · rfl

theorem releaseControl_governs (k : LinkId) (s : State) : Governs s (releaseControl k s).state := by
  unfold releaseControl; split
  · rfl
  · split
    · rfl
    · exact Governs.trans (b := sendFrame _ _ _) rfl (setViewer_governs ..)

/-! ### Wake -/

theorem endPulse_wakes (n : Comp) (s : State) : Wakes s (endPulse n s) := by
  unfold endPulse; split <;> rfl

theorem setAttempt_wakes (n : Comp) (a : Attempt) (s : State) : Wakes s (setAttempt n a s) := rfl

theorem failWake_wakes (n : Comp) (r : WakeFailure) (s : State) : Wakes s (failWake n r s) :=
  (((endPulse_wakes n s).trans (setAttempt_wakes n _ _)).trans (flushPort_wakes n _)).trans
    (notify_notifies _ _ _).toWakes

theorem pulseDue_wakes (n : Comp) (f : Flight) (c : PowerCause) (s : State) : Wakes s (pulseDue n f c s) := by
  unfold pulseDue; split
  · rfl
  · exact failWake_wakes n .noLine s

theorem startAttempt_wakes (n : Comp) (s : State) : Wakes s (startAttempt n s) := by
  unfold startAttempt; dsimp only; split
  · split
    · rfl
    · exact failWake_wakes ..
  · exact pulseDue_wakes ..
  · split
    · rfl
    · exact pulseDue_wakes ..

theorem wakeTrigger_wakes (n : Comp) (s : State) : Wakes s (wakeTrigger n s).state := by
  unfold wakeTrigger; split
  · rfl
  · split
    · rfl
    · exact startAttempt_wakes n s

theorem wakeIfSuspended_wakes (n : Comp) (p : Bool) (s : State) : Wakes s (wakeIfSuspended n p s) := by
  unfold wakeIfSuspended; split
  · unfold autoWake; split
    · exact wakeTrigger_wakes n s
    · exact .refl s
  · exact .refl s

theorem wakeDetach_wakes (n : Comp) (s : State) : Wakes s (wakeDetach n s) := by
  unfold wakeDetach; split
  · split
    · exact pulseDue_wakes ..
    · rfl
  · exact pulseDue_wakes ..
  · rfl

/-! ### Actions -/

theorem engageBy_acts (src : Sources) (c : BlankCause) (s : State) : Acts s (engageBy src c s) := by
  unfold engageBy; split
  · have h : Acts s (s.modBlank fun u => { u with state := .engaged src }) := rfl
    exact (h.trans (focusBlank_refocuses s _).toActs).trans (notify_notifies _ _ _).toActs
  · split <;> rfl
  · rfl

theorem switchTo_acts (o : OutputId) (t : Target) (s : State) : Acts s (switchTo o t s).state := by
  unfold switchTo
  extract_lets a b c d
  split
  · rfl
  · split
    · rfl
    · split <;> rfl

theorem recallScene_acts (c : Scene) (s : State) : Acts s (recallScene c s).state := by
  unfold recallScene; dsimp only
  split
  · exact (Acts.foldl _ (fun s e => by rfl) _ _).trans (writePlaced_refocuses ..).toActs
  · exact Acts.foldl _ (fun s e => by rfl) _ _

theorem runAction_acts (a : Action) (src : FireSource) (s : State) : Acts s (runAction a src s).state := by
  have hf (t o) : Acts s (focusBy t o s) := (focusBy_refocuses t o s).toActs
  cases a with
  | lead => rfl
  | focus n => exact hf _ _
  | focusNext => unfold runAction runStep; dsimp only; split; exact hf _ _; rfl
  | focusPrev => unfold runAction runStep; dsimp only; split; exact hf _ _; rfl
  | switch o t => exact switchTo_acts o t s
  | recallSlot i =>
    unfold runAction Machine.recallSlot; dsimp only; split
    · exact recallScene_acts _ s
    · rfl
  | broadcastToggle => exact Acts.trans (b := s.modRouter _) rfl (rederive_releases s _).toActs
  | blank => unfold runAction runBlank; dsimp only; split <;> exact engageBy_acts ..
  | resumeBlank =>
    unfold runAction runResumeBlank; dsimp only; split
    · rfl
    · show Acts s (resumeEffect s)
      unfold resumeEffect; split <;> rfl
  | wake n =>
    unfold runAction runWake; dsimp only; split
    · exact (hf _ _).trans (wakeTrigger_wakes ..).toActs
    · split
      · exact (wakeTrigger_wakes ..).toActs
      · rfl
  | takeBack =>
    unfold runAction runTakeBack; dsimp only; split
    · exact (takeBack_governs ..).toActs
    · rfl
  | grant =>
    unfold runAction runGrant; dsimp only; split
    · split
      · rfl
      · exact (grantControl_governs ..).toActs
    · rfl
  | claim =>
    unfold runAction runClaim; dsimp only; split
    · split
      · exact (claimControl_governs ..).toActs
      · rfl
    · rfl
  | release =>
    unfold runAction runRelease; dsimp only; split
    · split
      · rfl
      · exact (releaseControl_governs ..).toActs
    · rfl
  | notify => rfl

theorem fire_acts (a : Action) (src : FireSource) (s : State) : Acts s (fire a src s) := by
  unfold fire; dsimp only; split
  · rfl
  · have h : Acts s (runAction a src (countFired s)).state :=
      Acts.trans (b := countFired s) rfl (runAction_acts a src _)
    split
    · exact h
    · exact h.trans rfl

/-! ### Sessions and links -/

theorem sendIf_releases (k : LinkId) (f : Option LinkMsg) (s : State) : Releases s (sendIf k f s) := by
  cases f <;> rfl

theorem notifyIf_notifies (f : Option SupFrame) (s : State) : Notifies s (notifyIf f s) := by
  cases f <;> rfl

theorem outActivate_switches (k : LinkId) (h : Head) (v : Bool) (c : ShareCause) (s : State) :
    Switches s (outActivate k h v c s) := by
  have h1 : Switches s (takeTarget (laneOut k) (some (.head h)) (setOutbound k (.active h v) s)) := rfl
  exact (h1.trans (sendFrame_releases k _ _).toSwitches).trans (notify_notifies _ _ _).toSwitches

theorem outEnd_switches (k : LinkId) (f : Option LinkMsg) (c : Option ShareCause) (s : State) :
    Switches s (outEnd k f c s) := by
  unfold outEnd; split
  · rfl
  · have h1 : Switches s (takeTarget (laneOut k) none (setOutbound k .none s)) := rfl
    exact (h1.trans (sendIf_releases k f _).toSwitches).trans (notifyIf_notifies _ _).toSwitches
  · have h1 : Switches s (setOutbound k .none s) := rfl
    have h2 := h1.trans (endControl_governs k .sessionEnd _).toSwitches
    exact ((h2.trans (takeTarget_switches _ _ _)).trans (sendIf_releases k f _).toSwitches).trans
      (notifyIf_notifies _ _).toSwitches

theorem inActivate_switches (k : LinkId) (o : Offer) (s : State) : Switches s (inActivate k o s) := by
  have h1 : Switches s (sendFrame k .accept (setInbound k (.active o) s)) := rfl
  exact (h1.trans (changeInput_switches _ _ _)).trans (notify_notifies _ _ _).toSwitches

theorem darkenLane_switches (k : LinkId) (s : State) (m : Monitor) : Switches s (darkenLane k s m) := by
  unfold darkenLane; split <;> rfl

theorem inEnd_switches (k : LinkId) (f : Option LinkMsg) (c : Option ShareCause) (s : State) :
    Switches s (inEnd k f c s) := by
  have h1 : Switches s (setInbound k .none s) := rfl
  have h2 : Switches s (match c with
      | some _ => setViewer k .none .sessionEnd (setInbound k .none s)
      | none => rederive (setInbound k .none s)
          (inEnd.clearCaptureOn k ((setInbound k .none s).modLink k fun l => { l with viewer := .none }))) := by
    cases c with
    | some c => exact h1.trans (setViewer_governs k .none .sessionEnd _).toSwitches
    | none =>
      have h3 : Switches s ((setInbound k .none s).modLink k fun l => { l with viewer := .none }) := rfl
      have h4 (t : State) : Switches t (inEnd.clearCaptureOn k t) := by
        unfold inEnd.clearCaptureOn; split
        · exact (clearCapture_governs t).toSwitches
        · exact .refl t
      exact (h3.trans (h4 _)).trans (rederive_releases _ _).toSwitches
  unfold inEnd; split
  · rfl
  · exact (h1.trans (sendIf_releases k f _).toSwitches).trans (notifyIf_notifies _ _).toSwitches
  · exact ((((h2.trans (changeInput_switches _ _ _)).trans (Switches.foldl _ (darkenLane_switches k) _ _)).trans
      (sessionFocusEnd_refocuses k _).toSwitches).trans (sendIf_releases k f _).toSwitches).trans
      (notifyIf_notifies _ _).toSwitches

theorem linkDown_switches (k : LinkId) (c : LinkCause) (s : State) : Switches s (linkDown k c s) := by
  have h1 : Switches s (s.modLink k fun l => { l with up := false, peerZones := 0 }) := rfl
  exact (((h1.trans (outEnd_switches k none _ _)).trans (inEnd_switches k none _ _)).trans
    (endControl_governs k .linkDown _).toSwitches).trans (notify_notifies _ _ _).toSwitches

theorem sendAlive_releases (k : LinkId) (s : State) : Releases s (sendAlive k s) := rfl

theorem reconcile_switches (k : LinkId) (a : Alive) (s : State) : Switches s (reconcile k a s) := by
  have r1 (s) : Switches s (row1 k a s) := by unfold row1; split; exact inEnd_switches ..; rfl
  have r2 (s) : Switches s (row2 k a s) := by unfold row2; split; exact inEnd_switches ..; rfl
  have r3 (s) : Switches s (row3 k a s) := by unfold row3; split <;> rfl
  have r4 (s) : Switches s (row4 k a s) := by unfold row4; split; exact (setViewer_governs ..).toSwitches; rfl
  have r5 (s) : Switches s (row5 k a s) := by unfold row5; split; exact (setViewer_governs ..).toSwitches; rfl
  have r6 (s) : Switches s (row6 k a s) := by unfold row6; split <;> rfl
  have r7 (s) : Switches s (row7 k a s) := by unfold row7; split; exact outActivate_switches ..; rfl
  have r8 (s) : Switches s (row8 k a s) := by unfold row8; split; exact outEnd_switches ..; rfl
  have r9 (s) : Switches s (row9 k a s) := by
    unfold row9; split
    · split
      · exact (returnToDesk_governs ..).toSwitches
      · rfl
    · rfl
  exact ((((((((r1 s).trans (r2 _)).trans (r3 _)).trans (r4 _)).trans (r5 _)).trans (r6 _)).trans (r7 _)).trans
    (r8 _)).trans (r9 _)

theorem takeAlive_switches (k : LinkId) (a : Alive) (s : State) : Switches s (takeAlive k a s) := by
  have h : Switches s (reconcile k a (s.modLink k (learnPeer a))) :=
    Switches.trans (b := s.modLink k _) rfl (reconcile_switches k a _)
  unfold takeAlive; dsimp only; split
  · exact h
  · exact h.trans (notify_notifies _ _ _).toSwitches

theorem takeMode_switches (k : LinkId) (m : Mode) (p : PointerMode) (s : State) :
    Switches s (takeMode k m p s) := by
  unfold takeMode; split
  · rfl
  · rfl
  · have h : Switches s (changeInput (.lane k) (laneState m)
        (setInbound k (.active { ‹Offer› with mode := m, pointerMode := p }) s)) :=
      Switches.trans (b := setInbound k _ s) rfl (changeInput_switches _ _ _)
    dsimp only; split
    · exact h.trans (clearCapture_governs _).toSwitches
    · exact h

theorem takeKeys_receives (k : LinkId) (ks : KeyState) (s : State) : Receives s (takeKeys k ks s) := by
  unfold takeKeys; split
  · rename_i h _
    have h1 : Receives s (s.modControl h.comp fun c => { c with remoteKeys := ks }) := rfl
    exact (h1.trans (deliverKeys_delivers .table _ _ _).toReceives).trans (wakeIfSuspended_wakes _ _ _).toReceives
  · rfl

theorem takePointer_receives (k : LinkId) (f : PointerFrame) (s : State) : Receives s (takePointer k f s) := by
  unfold takePointer; split
  · rename_i h _
    have h1 : Receives s (s.modControl h.comp fun c => { c with remoteButtons := PointerFrame.buttons f }) := rfl
    exact (h1.trans (deliverRemote_delivers _ _ _).toReceives).trans (wakeIfSuspended_wakes _ _ _).toReceives
  · rfl

theorem dispatchFrame_receives (k : LinkId) (m : LinkMsg) (s : State) : Receives s (dispatchFrame k m s) := by
  have hd : Receives s (discardFrame k s) := rfl
  cases m with
  | alive a => exact (takeAlive_switches k a s).toReceives
  | offer o =>
    show Receives s (takeOffer k o s)
    unfold takeOffer; split
    · split <;> rfl
    · rfl
  | accept =>
    show Receives s (takeAccept k s)
    unfold takeAccept; split
    · exact (outActivate_switches ..).toReceives
    · exact hd
  | decline r =>
    show Receives s (takeDecline k r s)
    unfold takeDecline; split
    · exact hd
    · exact (outEnd_switches ..).toReceives
  | endSession d r =>
    show Receives s (takeEnd k d r s)
    unfold takeEnd; split <;> split
    · exact hd
    · exact (inEnd_switches ..).toReceives
    · exact hd
    · exact (outEnd_switches ..).toReceives
  | mode m p => exact (takeMode_switches k m p s).toReceives
  | claim kind => exact (takeClaim_governs k kind s).toReceives
  | grant =>
    show Receives s (takeGrant k s)
    unfold takeGrant; split
    · rfl
    · exact (setViewer_governs ..).toReceives
    · rfl
  | deny r =>
    show Receives s (takeDeny k r s)
    unfold takeDeny; split
    · exact (setViewer_governs ..).toReceives
    · exact hd
  | release => exact (takeRelease_governs k s).toReceives
  | revoke =>
    show Receives s (takeRevoke k s)
    unfold takeRevoke; split
    · exact (setViewer_governs ..).toReceives
    · exact hd
  | keys ks => exact takeKeys_receives k ks s
  | pointer f => exact takePointer_receives k f s

theorem frameIn_receives (k : LinkId) (m : LinkMsg) (s : State) : Receives s (frameIn k m s) := by
  unfold frameIn; split
  · rfl
  · split
    · rfl
    · exact Receives.trans (b := stamp k (received k s)) rfl (dispatchFrame_receives k m _)

theorem wholeFrame_receives (k : LinkId) (m : LinkMsg) (s : State) : Receives s (wholeFrame k m s) := by
  unfold wholeFrame; dsimp only; split
  · exact Receives.trans (b := s.modLink k _) rfl (frameIn_receives k m _)
  · rfl

theorem scanLink_receives (k : LinkId) (fuel : Nat) :
    ∀ (bs : List Byte) (s : State), Receives s (scanLink k fuel bs s) := by
  have hm (s) : Receives s (malformed k s) := rfl
  have hc (s) : Receives s (crcFailed k s) := rfl
  induction fuel with
  | zero => intro bs s; rfl
  | succ fuel ih =>
    intro bs s
    cases bs with
    | nil => rfl
    | cons b rest =>
      unfold scanLink; split
      · exact ih rest s
      · split
        · split
          · exact (hm s).trans (ih _ _)
          · split
            · rfl
            · dsimp only; split
              · exact (hc s).trans (ih _ _)
              · split
                · exact (frameIn_receives k _ s).trans (ih _ _)
                · exact (hm s).trans (ih _ _)
        · rfl

theorem setLink_switches (k : LinkId) (on : Bool) (s : State) : Switches s (setLink k on s) := by
  unfold setLink; dsimp only; split
  · rfl
  · have h : Switches s (s.modLink k fun l => { l with enabled := on }) := rfl
    split
    · exact h.trans (sendAlive_releases k _).toSwitches
    · split
      · exact h.trans (linkDown_switches k _ _)
      · exact h

/-! ### Ports -/

theorem followMode_governs (n : Comp) (old s : State) : Governs s (followMode n old s) := by
  have hf (t : State) : Governs t (allLinks.foldl (sendModeOfComp n) t) := by
    refine Governs.foldl _ (fun s k => ?_) _ _
    unfold sendModeOfComp; split
    · split <;> rfl
    · rfl
  unfold followMode; dsimp only; split
  · exact .refl s
  · split
    · exact (clearCapture_governs s).trans (hf _)
    · exact hf s

theorem lightsChanged_refocuses (n : Comp) (s : State) : Refocuses s (lightsChanged n s) := by
  unfold lightsChanged; split
  · exact checkLights_refocuses s
  · exact .refl s

theorem setBus_releases (n : Comp) (b : BusState) (s : State) : Releases s (setBus n b s) :=
  Releases.trans (b := s.modPort n _) rfl (rederive_releases s _)

theorem enterActive_receives (n : Comp) (s : State) : Receives s (enterActive n s) := by
  have h : Receives s (endPulse n (setBus n .active s)) :=
    (setBus_releases n .active s).toReceives.trans (endPulse_wakes n _).toReceives
  exact (h.trans (setAttempt_wakes n _ _).toReceives).trans (notify_notifies _ _ _).toReceives

theorem resumePort_receives (n : Comp) (s : State) : Receives s (resumePort n s) :=
  Receives.trans (b := s.modPort n trimPort) rfl (enterActive_receives n _)

theorem emptyPort_receives (n : Comp) (s : State) : Receives s (emptyPort n s) := by
  have h : Receives s ((flushPort n s).modPort n Port.fresh) := rfl
  exact (h.trans (lightsChanged_refocuses n _).toReceives).trans (followMode_governs n _ _).toReceives

theorem detachPort_receives (n : Comp) (s : State) : Receives s (detachPort n s) :=
  (((emptyPort_receives n s).trans (setBus_releases n _ _).toReceives).trans (wakeDetach_wakes n _).toReceives).trans
    (notify_notifies _ _ _).toReceives

theorem attachPort_receives (n : Comp) (s : State) : Receives s (attachPort n s) :=
  (Receives.trans (b := s.modPort n _) rfl (setBus_releases n _ _).toReceives).trans (notify_notifies _ _ _).toReceives

theorem resetPort_receives (n : Comp) (s : State) : Receives s (resetPort n s) := by
  have hw (t : State) : Receives t (wakeBusReset n t) := by unfold wakeBusReset; split <;> rfl
  have h := ((emptyPort_receives n s).trans (setBus_releases n .attached _).toReceives).trans (hw _)
  unfold resetPort; dsimp only; split
  · exact h
  · exact h.trans (notify_notifies _ _ _).toReceives

theorem selectFormat_receives (n : Comp) (i : Interface) (f : Format) (s : State) :
    Receives s (selectFormat n i f s) := by
  unfold selectFormat; split <;> split
  · rfl
  · rfl
  · rfl
  · exact Receives.trans (b := (flushPointer n s).modPort n _) rfl (followMode_governs n s _).toReceives

theorem pollKeys_receives (n : Comp) (s : State) : Receives s (pollKeys n s) := by
  have h : Receives s (pollResumes n s) := by
    unfold pollResumes; split
    · exact resumePort_receives n s
    · rfl
  unfold pollKeys; split
  · rfl
  · rfl
  · exact h.trans rfl

theorem pollPointer_receives (n : Comp) (s : State) : Receives s (pollPointer n s) := by
  have h : Receives s (pollResumes n s) := by
    unfold pollResumes; split
    · exact resumePort_receives n s
    · rfl
  unfold pollPointer; split
  · rfl
  · rfl
  · exact h.trans rfl

/-! ### The desk keyboard and the lines -/

theorem sendRecords_releases (s : State) : Releases s (sendRecords s) := by
  refine Releases.trans (Releases.foldl _ (fun s m => ?_) _ _) (Releases.foldl _ (fun s k => ?_) _ _)
  · unfold recordFor; split
    · exact (deliverKeys_delivers ..).toReleases
    · exact .refl s
  · unfold keysFor; split
    · exact sendKeys_releases ..
    · exact .refl s

theorem matchKey_acts (e : KeyEvent) (s : State) : Acts s (matchKey e s) := by
  have hm (t : State) : Acts t (if e.press then (if (judgeKey s e).withheld then maskCode e.code t else t)
      else modMask (KeyState.drop · e.code) t) := by
    split
    · split
      · unfold maskCode; split <;> rfl
      · rfl
    · rfl
  have h : Acts s (s.modMatcher fun m => { m with state := (judgeKey s e).state }) := rfl
  unfold matchKey; dsimp only; split
  · split
    · exact (h.trans (hm _)).trans (fire_acts ..)
    · exact h.trans (hm _)
  · exact h.trans (hm _)

theorem handleKey_acts (e : KeyEvent) (s : State) : Acts s (handleKey e s) := by
  have hc (b : Bool) (t : State) : Acts t (countAndWake b t) := by
    unfold countAndWake; split
    · split
      · split
        · exact (wakeIfSuspended_wakes ..).toActs
        · rfl
      · rfl
    · rfl
  exact ((matchKey_acts e s).trans (sendRecords_releases _).toActs).trans (hc _ _)

theorem raiseKey_acts (s : State) (e : KeyEvent) : Acts s (raiseKey s e) := by
  have h (k : KeyState) : Acts s (handleKey e (setHeld k s)) := Acts.trans (b := setHeld k s) rfl (handleKey_acts e _)
  unfold raiseKey; dsimp only; split
  · split
    · rfl
    · split
      · rfl
      · exact h _
  · split
    · exact h _
    · rfl

theorem keyboardReport_acts (mods : Mods) (codes : List Byte) (s : State) : Acts s (keyboardReport mods codes s) := by
  unfold keyboardReport; split
  · rfl
  · exact Acts.foldl _ raiseKey_acts _ _

theorem qualifyingEdge_senses (l : LineId) (s : State) : Senses s (qualifyingEdge l s) := by
  unfold qualifyingEdge; split
  · rfl
  · dsimp only; split
    · exact Senses.trans (b := resetTrigger l s) rfl (fire_acts ..).toSenses
    · rfl

theorem releaseLine_acts (l : LineId) (s : State) : Acts s (releaseLine l s) := by
  have hl (t : State) : Acts t (linesReleased t) := by
    unfold linesReleased; split
    · split
      · rfl
      · split <;> rfl
    · rfl
  unfold releaseLine; dsimp only; split
  · split
    · exact Acts.trans (b := s.modBlank _) rfl (hl _)
    · rfl
  · rfl

theorem assertLine_acts (l : LineId) (s : State) : Acts s (assertLine l s) := by
  unfold assertLine; dsimp only; split
  · exact engageBy_acts ..
  · exact Acts.trans (b := s.modBlank _) rfl (engageBy_acts ..)

theorem setPowered_wakes (n : Comp) (p : Powered) (s : State) : Wakes s (setPowered n p s) := by
  unfold setPowered; split <;> rfl

theorem handLevel_senses (l : LineId) (level first : Bool) (s : State) : Senses s (handLevel l level first s) := by
  unfold handLevel; split
  · split
    · exact (assertLine_acts l s).toSenses
    · split
      · rfl
      · exact (releaseLine_acts l s).toSenses
  · exact (setPowered_wakes ..).toSenses
  · split
    · exact qualifyingEdge_senses l s
    · rfl
  · rfl

theorem acceptLevel_senses (l : LineId) (level : Bool) (s : State) : Senses s (acceptLevel l level s) := by
  unfold acceptLevel; dsimp only; split
  · rfl
  · exact (Senses.trans (b := s.modLine l _) rfl (handLevel_senses l level _ _)).trans
      (notify_notifies _ _ _).toSenses

theorem refilter_senses (l : LineId) (s : State) : Senses s (refilter l s) := by
  have hp (b : Bool) (t : State) : Senses t (propose l b t) := by
    unfold propose; split
    · exact acceptLevel_senses l b t
    · rfl
  unfold refilter; dsimp only; split
  · split
    · split
      · rfl
      · exact hp _ _
    · split <;> rfl
    · exact hp _ _
    · split
      · rfl
      · exact hp _ _
  · rfl

theorem leaveConfig_senses (l : LineId) (s : State) : Senses s (leaveConfig l s) := by
  unfold leaveConfig; split
  · exact (releaseLine_acts l s).toSenses
  · exact (setPowered_wakes ..).toSenses
  · rfl
  · unfold pulseLineChanged; split
    · exact (failWake_wakes ..).toSenses
    · rfl
  · rfl

theorem setLine_senses (l : LineId) (c : LineConfig) (s : State) : Senses s (setLine l c s).state := by
  unfold setLine; split
  · rfl
  · split
    · rfl
    · split
      · exact Senses.trans (b := s.modLine l _) rfl (refilter_senses l _)
      · exact (leaveConfig_senses l s).trans (Senses.trans (b := State.modLine _ l _) rfl (refilter_senses l _))

/-! ### The desk pointer -/

theorem walk_refocuses (a : Axis) (m : Int) (s : State) : Refocuses s (walk a m s) := by
  have hp (b : Bool) (t : Tile) (o : Nat) (s : State) : Refocuses s (pushOut a b t o s) := by
    unfold pushOut; dsimp only; split
    · split <;> rfl
    · rfl
  unfold walk; dsimp only; split
  · rfl
  · split
    · rfl
    · split
      · exact Refocuses.trans (b := s.modPointer (relieve a m)) rfl (hp ..)
      · split
        · exact Refocuses.trans (b := s.modPointer (relieve a m)) rfl (hp ..)
        · rfl

theorem motion_acts (e : Motion) (s : State) : Acts s (motion e s) := by
  have hr (t : State) : Acts t (emitRelative e t) := by
    unfold emitRelative; split
    · split
      · split
        · exact (deliverPointer_delivers ..).toActs
        · rfl
      · split
        · split
          · exact (sendPointer_releases ..).toActs
          · rfl
        · rfl
      · rfl
    · rfl
  have hc : Acts s (captured e s) := by
    unfold captured; split
    · exact hr s
    · exact Acts.trans (b := s.modPointer _) rfl (hr _)
  have hg (t : State) : Acts t (emitGlided e t) := by
    unfold emitGlided; split
    · rfl
    · split
      · rfl
      · split
        · split
          · exact (deliverMapped_delivers ..).toActs
          · rfl
        · split
          · split
            · exact (sendPointer_releases ..).toActs
            · rfl
          · rfl
        · rfl
  have hm : Acts s (moveAndWalk e s) :=
    (Refocuses.trans (b := s.modPointer _) rfl ((walk_refocuses ..).trans (walk_refocuses ..))).toActs
  have hv (m : Option Monitor) (t : State) : Acts t (reevaluateIfMoved m t) := by
    unfold reevaluateIfMoved; split
    · split
      · rfl
      · exact (reevaluate_refocuses ..).toActs
    · rfl
  have hw (t : State) : Acts t (wakeByButton e t) := by
    unfold wakeByButton; split
    · split
      · exact (wakeIfSuspended_wakes ..).toActs
      · rfl
    · rfl
  unfold motion; split
  · rfl
  · split
    · exact hc.trans (hw _)
    · exact ((hm.trans (hv _ _)).trans (hg _)).trans (hw _)

end Sys2Proof.Machine
end

