-- ==== Sys2Proof/Laws/Release.lean ====
section
/-!
SUPPORT. What the delivery of a record and the release of a computer leave in its port, its last records and its
control record, in the terms of the statements.
-/

namespace Sys2Proof.Machine

open Sys2Proof

@[simp] theorem notify_port (c : NoticeClass) (f : SupFrame) (s : State) (m : Comp) : (notify c f s).port m = s.port m := rfl
@[simp] theorem notify_control (c : NoticeClass) (f : SupFrame) (s : State) (m : Comp) :
    (notify c f s).control m = s.control m := rfl
@[simp] theorem notify_router (c : NoticeClass) (f : SupFrame) (s : State) : (notify c f s).router = s.router := rfl

/-! ### A record handed to a port -/

theorem portKey_port (n m : Comp) (r : KeyRecord) (s : State) :
    (portKey n r s).port m = if m = n then pushKey r (s.port m) else s.port m := by
  unfold portKey; dsimp only; split <;> simp [State.modPort_port]

theorem portPointer_port (n m : Comp) (r : PointerRecord) (s : State) :
    (portPointer n r s).port m = if m = n then pushPointer r (s.port m) else s.port m := by
  unfold portPointer; dsimp only; split <;> simp [State.modPort_port]

@[simp] theorem portKey_control (n m : Comp) (r : KeyRecord) (s : State) : (portKey n r s).control m = s.control m := by
  unfold portKey; dsimp only; split <;> simp

@[simp] theorem portPointer_control (n m : Comp) (r : PointerRecord) (s : State) :
    (portPointer n r s).control m = s.control m := by
  unfold portPointer; dsimp only; split <;> simp

@[simp] theorem portKey_router (n : Comp) (r : KeyRecord) (s : State) : (portKey n r s).router = s.router := by
  unfold portKey; dsimp only; split <;> simp

@[simp] theorem portPointer_router (n : Comp) (r : PointerRecord) (s : State) : (portPointer n r s).router = s.router := by
  unfold portPointer; dsimp only; split <;> simp

@[simp] theorem touchDesk_port (f : Former) (n m : Comp) (s : State) : (touchDesk f n s).port m = s.port m := by
  cases f <;> simp [touchDesk]

@[simp] theorem touchDesk_router (f : Former) (n : Comp) (s : State) : (touchDesk f n s).router = s.router := by
  cases f <;> simp [touchDesk]

theorem touchDesk_control (f : Former) (n m : Comp) (s : State) :
    (touchDesk f n s).control m =
      if f = .desk ∧ m = n then { s.control m with lastDesk := some s.now } else s.control m := by
  cases f <;> simp [touchDesk, State.modControl_control]

/-! ### The router's last records -/

theorem setLastKey_lastKey (n m : Comp) (r : Option KeyRecord) (s : State) :
    (setLastKey n r s).lastKey m = if m = n then r else s.lastKey m := by
  simp [setLastKey, State.lastKey, pick_upd]

theorem setLastPointer_lastPointer (n m : Comp) (r : Option PointerRecord) (s : State) :
    (setLastPointer n r s).lastPointer m = if m = n then r else s.lastPointer m := by
  simp [setLastPointer, State.lastPointer, pick_upd]

@[simp] theorem setLastKey_lastPointer (n m : Comp) (r : Option KeyRecord) (s : State) :
    (setLastKey n r s).lastPointer m = s.lastPointer m := rfl

@[simp] theorem setLastPointer_lastKey (n m : Comp) (r : Option PointerRecord) (s : State) :
    (setLastPointer n r s).lastKey m = s.lastKey m := rfl

@[simp] theorem setLastKey_port (n m : Comp) (r : Option KeyRecord) (s : State) :
    (setLastKey n r s).port m = s.port m := rfl

@[simp] theorem setLastPointer_port (n m : Comp) (r : Option PointerRecord) (s : State) :
    (setLastPointer n r s).port m = s.port m := rfl

@[simp] theorem setLastKey_now (n : Comp) (r : Option KeyRecord) (s : State) : (setLastKey n r s).now = s.now := rfl

@[simp] theorem setLastPointer_now (n : Comp) (r : Option PointerRecord) (s : State) :
    (setLastPointer n r s).now = s.now := rfl

@[simp] theorem setLastKey_control (n m : Comp) (r : Option KeyRecord) (s : State) :
    (setLastKey n r s).control m = s.control m := rfl

@[simp] theorem setLastPointer_control (n m : Comp) (r : Option PointerRecord) (s : State) :
    (setLastPointer n r s).control m = s.control m := rfl

theorem State.lastKey_congr {s t : State} (h : t.router = s.router) (m : Comp) : t.lastKey m = s.lastKey m := by
  unfold State.lastKey; rw [h]

theorem State.lastPointer_congr {s t : State} (h : t.router = s.router) (m : Comp) :
    t.lastPointer m = s.lastPointer m := by
  unfold State.lastPointer; rw [h]

/-! ### Deliveries -/

/-- Whether a key-state record of a computer is queued: it differs from the last one, and its port is not DETACHED. -/
def keysPass (n : Comp) (k : KeyState) (s : State) : Bool :=
  !(sameRecord (s.lastKey n) (shapeKeys (s.port n).keyFormat k) || !BusState.present (s.port n).bus)

/-- Everything that the delivery of a key-state record does to the ports and the records of the computers. -/
theorem deliverKeys_effect (f : Former) (n m : Comp) (k : KeyState) (s : State) :
    let r := shapeKeys (s.port n).keyFormat k
    let here : Prop := m = n ∧ keysPass n k s = true
    (here → (deliverKeys f n k s).port m = pushKey r (s.port m) ∧ (deliverKeys f n k s).lastKey m = some r ∧
      (deliverKeys f n k s).control m =
        if f = .desk then { s.control m with lastDesk := some s.now } else s.control m) ∧
    (¬ here → (deliverKeys f n k s).port m = s.port m ∧ (deliverKeys f n k s).lastKey m = s.lastKey m ∧
      (deliverKeys f n k s).control m = s.control m) ∧
    (deliverKeys f n k s).lastPointer m = s.lastPointer m := by
  have hr : ∀ x : State, (touchDesk f n x).lastKey m = x.lastKey m := fun x => State.lastKey_congr (by simp) m
  have hp : ∀ x : State, (touchDesk f n x).lastPointer m = x.lastPointer m := fun x => State.lastPointer_congr (by simp) m
  have hk : ∀ r, (portKey n r s).lastKey m = s.lastKey m := fun r => State.lastKey_congr (by simp) m
  have hq : ∀ r, (portKey n r s).lastPointer m = s.lastPointer m := fun r => State.lastPointer_congr (by simp) m
  have hn : ∀ r, (portKey n r s).now = s.now := fun r => by unfold portKey; dsimp only; split <;> rfl
  by_cases hpass : keysPass n k s = true
  · have hd : deliverKeys f n k s = touchDesk f n (setLastKey n (some (shapeKeys (s.port n).keyFormat k))
        (portKey n (shapeKeys (s.port n).keyFormat k) s)) := by
      unfold deliverKeys; simp only [keysPass, Bool.not_eq_true'] at hpass; simp [hpass]
    by_cases hm : m = n
    · subst hm
      cases f <;>
        simp [hd, hr, hp, hq, hpass, setLastKey_lastKey, portKey_port, touchDesk_control, hn]
    · cases f <;>
        simp [hd, hr, hp, hq, hk, hm, setLastKey_lastKey, portKey_port, touchDesk_control]
  · have hd : deliverKeys f n k s = s := by
      unfold deliverKeys; simp only [keysPass, Bool.not_eq_true', Bool.not_eq_false] at hpass; simp [hpass]
    simp [hd, hpass]

/-- Everything that the delivery of a pointer record does to the ports and the records of the computers. -/
theorem deliverPointer_effect (f : Former) (n m : Comp) (r : PointerRecord) (s : State) :
    let here : Prop := m = n ∧ (s.port n).bus ≠ .detached
    (here → (deliverPointer f n r s).port m = pushPointer r (s.port m) ∧
      (deliverPointer f n r s).lastPointer m = some r ∧
      (deliverPointer f n r s).control m =
        if f = .desk then { s.control m with lastDesk := some s.now } else s.control m) ∧
    (¬ here → (deliverPointer f n r s).port m = s.port m ∧ (deliverPointer f n r s).lastPointer m = s.lastPointer m ∧
      (deliverPointer f n r s).control m = s.control m) ∧
    (deliverPointer f n r s).lastKey m = s.lastKey m := by
  have hr : ∀ x : State, (touchDesk f n x).lastKey m = x.lastKey m := fun x => State.lastKey_congr (by simp) m
  have hp : ∀ x : State, (touchDesk f n x).lastPointer m = x.lastPointer m := fun x => State.lastPointer_congr (by simp) m
  have hk : (portPointer n r s).lastKey m = s.lastKey m := State.lastKey_congr (by simp) m
  have hq : (portPointer n r s).lastPointer m = s.lastPointer m := State.lastPointer_congr (by simp) m
  have hn : (portPointer n r s).now = s.now := by unfold portPointer; dsimp only; split <;> rfl
  by_cases hb : (s.port n).bus = .detached
  · have hd : deliverPointer f n r s = s := by simp [deliverPointer, BusState.present, hb]
    simp [hd, hb]
  · have hd : deliverPointer f n r s = touchDesk f n (setLastPointer n (some r) (portPointer n r s)) := by
      simp [deliverPointer, BusState.present, hb]
    by_cases hm : m = n
    · subst hm
      cases f <;>
        simp [hd, hr, hp, hk, hb, setLastPointer_lastPointer, portPointer_port, touchDesk_control, hn]
    · cases f <;>
        simp [hd, hr, hp, hk, hq, hm, setLastPointer_lastPointer, portPointer_port, touchDesk_control]

/-! ### The release of a computer -/

/-- The empty record is due exactly when it would be queued. -/
theorem emptyRecordDue_eq (n : Comp) (s : State) :
    emptyRecordDue s n =
      if keysPass n KeyState.empty s = true then some (shapeKeys (s.port n).keyFormat KeyState.empty) else none := by
  unfold emptyRecordDue keysPass sameRecord
  cases hf : (s.port n).keyFormat <;> cases hl : s.lastKey n with
  | none => simp [shapeKeys, KeyState.empty]
  | some l => by_cases hb : (s.port n).bus = .detached <;> by_cases hm : l.mods = 0 <;> by_cases hk : l.keys = [] <;>
      simp [shapeKeys, KeyState.empty, BusState.present, hb, hm, hk]

@[simp] theorem pushKey_bus (r : KeyRecord) (p : Port) : (pushKey r p).bus = p.bus := by
  unfold pushKey; dsimp only; split <;> rfl

/-- The delivery of the empty key state, in the terms of `emptyRecordDue`. -/
theorem deliverEmpty_effect (f : Former) (n m : Comp) (s : State) :
    let t := deliverKeys f n KeyState.empty s
    t.port m = (if m = n then (emptyRecordDue s n).elim (s.port n) fun r => pushKey r (s.port n) else s.port m) ∧
    t.lastKey m = (if m = n then (emptyRecordDue s n).or (s.lastKey n) else s.lastKey m) ∧
    t.lastPointer m = s.lastPointer m ∧
    t.control m =
      if f = .desk ∧ m = n ∧ emptyRecordDue s n ≠ none then { s.control m with lastDesk := some s.now }
      else s.control m := by
  have h := deliverKeys_effect f n m KeyState.empty s
  dsimp only at h ⊢
  rw [emptyRecordDue_eq]
  by_cases hm : m = n
  · subst hm
    by_cases hk : keysPass m KeyState.empty s = true
    · obtain ⟨h1, h2, h3⟩ := h.1 ⟨rfl, hk⟩
      simp [h1, h2, h3, hk, h.2.2]
    · obtain ⟨h1, h2, h3⟩ := h.2.1 fun g => hk g.2
      simp [h1, h2, h3, hk, h.2.2]
  · obtain ⟨h1, h2, h3⟩ := h.2.1 fun g => hm g.1
    simp [h1, h2, h3, hm, h.2.2]

theorem deliverKeys_now (f : Former) (n : Comp) (k : KeyState) (s : State) : (deliverKeys f n k s).now = s.now := by
  unfold deliverKeys portKey; dsimp only; split
  · rfl
  · cases f <;> split <;> rfl

/-- Everything that a release leaves in the ports, the last records and the control records of the computers. -/
theorem releaseInput_effect (f : Former) (n m : Comp) (s : State) :
    (releaseInput f n s).port m = (if m = n then releasedPort s n (s.port n) else s.port m) ∧
    (releaseInput f n s).lastKey m = (if m = n then (emptyRecordDue s n).or (s.lastKey n) else s.lastKey m) ∧
    (releaseInput f n s).lastPointer m = (if m = n then (noButtonsDue s n).or (s.lastPointer n) else s.lastPointer m) ∧
    (releaseInput f n s).control m =
      if f = .desk ∧ m = n ∧ (emptyRecordDue s n ≠ none ∨ noButtonsDue s n ≠ none) then
        { s.control m with lastDesk := some s.now }
      else s.control m := by
  obtain ⟨hport, hkey, hptr, hctl⟩ := deliverEmpty_effect f n m s
  obtain ⟨hportn, -, hptrn, -⟩ := deliverEmpty_effect f n n s
  have hnow := deliverKeys_now f n KeyState.empty s
  have hbus : ((deliverKeys f n KeyState.empty s).port n).bus = (s.port n).bus := by
    rw [hportn, if_pos rfl]; cases emptyRecordDue s n <;> simp
  have key : ∀ r : PointerRecord, PointerRecord.buttons r ≠ 0 → s.lastPointer n = some r → (s.port n).bus ≠ .detached →
      releaseInput f n s = deliverPointer f n (PointerRecord.letGo r) (deliverKeys f n KeyState.empty s) ∧
        noButtonsDue s n = some (PointerRecord.letGo r) := by
    intro r hr hl hb
    constructor
    · simp only [releaseInput, hptrn, hl, if_neg hr]
    · cases r <;> simp_all [noButtonsDue, PointerRecord.letGo, PointerRecord.buttons]
  have rest : noButtonsDue s n = none → releaseInput f n s = deliverKeys f n KeyState.empty s := by
    intro hd
    simp only [releaseInput, hptrn]
    cases hl : s.lastPointer n with
    | none => rfl
    | some r =>
      by_cases hr : PointerRecord.buttons r = 0
      · simp [hr]
      · have hb : (s.port n).bus = .detached := by
          by_contra hb
          exact absurd ((key r hr hl hb).2.symm.trans hd) (by simp)
        simp [deliverPointer, hbus, hb, BusState.present]
  cases hd : noButtonsDue s n with
  | none =>
    rw [rest hd]
    refine ⟨?_, hkey, ?_, ?_⟩
    · rw [hport]; simp [releasedPort, hd]
    · rw [hptr]; by_cases hm : m = n <;> simp [hm]
    · rw [hctl]; simp
  | some q =>
    obtain ⟨r, hr, hl, hb⟩ : ∃ r, PointerRecord.buttons r ≠ 0 ∧ s.lastPointer n = some r ∧ (s.port n).bus ≠ .detached := by
      unfold noButtonsDue at hd
      cases hl : s.lastPointer n with
      | none => simp [hl] at hd
      | some r => refine ⟨r, ?_⟩; cases r <;> simp_all [PointerRecord.buttons]
    obtain ⟨he, hq⟩ := key r hr hl hb
    have hq' : PointerRecord.letGo r = q := by rw [hd] at hq; exact (Option.some.inj hq).symm
    rw [he, hq']
    obtain ⟨h1, h2, h3⟩ := deliverPointer_effect f n m q (deliverKeys f n KeyState.empty s)
    by_cases hm : m = n
    · subst hm
      obtain ⟨g1, g2, g3⟩ := h1 ⟨rfl, by rw [hbus]; exact hb⟩
      refine ⟨?_, ?_, ?_, ?_⟩
      · rw [g1, hport]; simp [releasedPort, hd]
      · rw [h3, hkey]
      · rw [g2]; simp
      · rw [g3, hctl, hnow]; cases f <;> simp
        split <;> exact ⟨rfl, rfl, rfl, rfl⟩
    · obtain ⟨g1, g2, g3⟩ := h2 fun h => hm h.1
      refine ⟨?_, ?_, ?_, ?_⟩
      · rw [g1, hport]; simp [hm]
      · rw [h3, hkey]
      · rw [g2, hptr]; simp [hm]
      · rw [g3, hctl]; simp [hm]

end Sys2Proof.Machine
end

