-- ==== Sys2Proof/Laws/Notices.lean ====
section
/-!
SUPPORT. What the release of computers and links, a fresh derivation of the recipients and a focus write leave, in the
terms of the statements: the PORT and FOCUS notices among them.
-/

namespace Sys2Proof.Machine

open Sys2Proof

/-! ### The notices of a delivery -/

@[simp] theorem notify_sup (c : NoticeClass) (f : SupFrame) (s : State) : (notify c f s).sup = queueNotice c f s.sup := rfl

theorem portKey_sup (n : Comp) (r : KeyRecord) (s : State) : (portKey n r s).sup = toldKey n (s.port n) s.sup := by
  unfold portKey toldKey
  dsimp only
  by_cases h : 32 ≤ (s.port n).keyQueue.length <;> cases g : (s.port n).noticed
  all_goals simp only [Config.keyQueue, h, decide_true, decide_false, Bool.not_true, Bool.not_false, Bool.and_true,
    Bool.and_false, if_true, and_true, and_false, if_false, reduceCtorEq, Bool.false_eq_true]
  all_goals rfl

theorem replaces_iff (r : PointerRecord) (p : Port) :
    pointerIntake r p = .replace ↔
      16 ≤ p.pointerQueue.length ∧ p.pointerQueue.getLast?.map (mergeable · r) = some false := by
  unfold pointerIntake
  simp only [Config.pointerQueue]
  by_cases h : 16 ≤ p.pointerQueue.length
  · have h' : ¬ p.pointerQueue.length < 16 := by omega
    cases hl : p.pointerQueue.getLast? with
    | none => simp [h, h']
    | some t => cases hm : mergeable t r <;> simp [h', h, hm]
  · have h' : p.pointerQueue.length < 16 := by omega
    cases hl : p.pointerQueue.getLast? with
    | none => simp [h, h']
    | some t => cases hm : mergeable t r <;> by_cases hf : p.pointerQueue.length < p.flow <;> simp [h, h', hm, hf]

theorem portPointer_sup (n : Comp) (r : PointerRecord) (s : State) :
    (portPointer n r s).sup = toldPointer n r (s.port n) s.sup := by
  have h := replaces_iff r (s.port n)
  unfold portPointer toldPointer
  dsimp only
  by_cases g : pointerIntake r (s.port n) = .replace
  · obtain ⟨g1, g2⟩ := h.1 g
    cases hn : (s.port n).noticed <;> (simp [g, g1, g2]; try rfl)
  · rw [if_neg, if_neg]
    · rfl
    · exact fun k => g (h.2 ⟨k.1, k.2.2⟩)
    · simp [g]

@[simp] theorem touchDesk_sup (f : Former) (n : Comp) (s : State) : (touchDesk f n s).sup = s.sup := by
  cases f <;> rfl

@[simp] theorem setLastKey_sup (n : Comp) (r : Option KeyRecord) (s : State) : (setLastKey n r s).sup = s.sup := rfl
@[simp] theorem setLastPointer_sup (n : Comp) (r : Option PointerRecord) (s : State) :
    (setLastPointer n r s).sup = s.sup := rfl

theorem deliverKeys_sup (f : Former) (n : Comp) (k : KeyState) (s : State) :
    (deliverKeys f n k s).sup = if keysPass n k s then toldKey n (s.port n) s.sup else s.sup := by
  unfold deliverKeys keysPass
  dsimp only
  cases sameRecord (s.lastKey n) (shapeKeys (s.port n).keyFormat k) || !BusState.present (s.port n).bus <;>
    simp [portKey_sup]

theorem deliverPointer_sup (f : Former) (n : Comp) (r : PointerRecord) (s : State) :
    (deliverPointer f n r s).sup =
      if (s.port n).bus = .detached then s.sup else toldPointer n r (s.port n) s.sup := by
  unfold deliverPointer
  by_cases h : (s.port n).bus = .detached <;> simp [BusState.present, h, portPointer_sup]

/-! ### The release of one computer -/

/-- The two records of a release, in their order. -/
theorem releaseInput_eq (f : Former) (n : Comp) (s : State) :
    releaseInput f n s =
      (noButtonsDue s n).elim (deliverKeys f n KeyState.empty s) fun r =>
        deliverPointer f n r (deliverKeys f n KeyState.empty s) := by
  obtain ⟨hport, -, hptr, -⟩ := deliverEmpty_effect f n n s
  have hbus : ((deliverKeys f n KeyState.empty s).port n).bus = (s.port n).bus := by
    rw [hport, if_pos rfl]; cases emptyRecordDue s n <;> simp
  unfold releaseInput
  simp only [hptr]
  cases hl : s.lastPointer n with
  | none => simp [noButtonsDue, hl]
  | some r =>
    by_cases hb : (s.port n).bus = .detached
    · cases r <;> simp [noButtonsDue, hl, hb, deliverPointer, BusState.present, hbus]
    · cases r <;> simp only [noButtonsDue, hl, hb, PointerRecord.buttons, PointerRecord.letGo, false_or] <;>
        split <;> simp_all

theorem releaseInput_sup (f : Former) (n : Comp) (s : State) : (releaseInput f n s).sup = toldRelease s n s.sup := by
  obtain ⟨hport, -, -, -⟩ := deliverEmpty_effect f n n s
  have hbus : ((deliverKeys f n KeyState.empty s).port n).bus = (s.port n).bus := by
    rw [hport, if_pos rfl]; cases emptyRecordDue s n <;> simp
  have hk : (deliverKeys f n KeyState.empty s).sup = (emptyRecordDue s n).elim s.sup fun _ => toldKey n (s.port n) s.sup := by
    rw [deliverKeys_sup, emptyRecordDue_eq]; split <;> simp_all
  rw [releaseInput_eq]
  unfold toldRelease
  dsimp only
  cases hd : noButtonsDue s n with
  | none => exact hk
  | some r =>
    have hb : (s.port n).bus ≠ .detached := by
      intro hb; unfold noButtonsDue at hd; cases hl : s.lastPointer n with
      | none => simp [hl] at hd
      | some q => cases q <;> simp [hl, hb] at hd
    simp only [Option.elim_some, deliverPointer_sup, hbus, if_neg hb, hk]
    rw [hport, if_pos rfl]

/-! ### What decides who is a recipient -/

@[simp] theorem pushPointer_bus (r : PointerRecord) (p : Port) : (pushPointer r p).bus = p.bus := by
  unfold pushPointer; dsimp only; split <;> rfl

@[simp] theorem releasedPort_bus (s : State) (n : Comp) (p : Port) : (releasedPort s n p).bus = p.bus := by
  unfold releasedPort; cases emptyRecordDue s n <;> cases noButtonsDue s n <;> simp

/-- The recipients follow from the focus target, the blank unit, the records, broadcast, the bus states and the
holders. -/
theorem isRecipient_target {s t : State} (hf : t.focus.target = s.focus.target) (hb : t.blank = s.blank)
    (hc : t.comps = s.comps) (hr : t.router.broadcast = s.router.broadcast)
    (hp : ∀ m, (t.port m).bus = (s.port m).bus) (hh : ∀ m, (t.control m).holder = (s.control m).holder) (m : Comp) :
    isRecipient t m = isRecipient s m := by
  unfold isRecipient blanked State.comp; rw [hf, hb, hc, hr]
  cases s.focus.target <;> simp [hp, hh]

theorem isRecipient_congr {s t : State} (hf : t.focus = s.focus) (hb : t.blank = s.blank) (hc : t.comps = s.comps)
    (hr : t.router.broadcast = s.router.broadcast) (hp : ∀ m, (t.port m).bus = (s.port m).bus)
    (hh : ∀ m, (t.control m).holder = (s.control m).holder) (m : Comp) : isRecipient t m = isRecipient s m :=
  isRecipient_target (congrArg _ hf) hb hc hr hp hh m

theorem linkIsRecipient_congr {s t : State} (hf : t.focus = s.focus) (hb : t.blank = s.blank)
    (hv : ∀ k, (t.link k).viewer = (s.link k).viewer) (k : LinkId) : linkIsRecipient t k = linkIsRecipient s k := by
  unfold linkIsRecipient blanked; rw [hf, hb, hv]

/-- The router fields that a release leaves alone. -/
def routerKept (s t : State) : Prop :=
  t.router = { s.router with lastKey := t.router.lastKey, lastPointer := t.router.lastPointer }

theorem routerKept.trans {a b c : State} (h : routerKept a b) (g : routerKept b c) : routerKept a c := by
  unfold routerKept at *; rw [g, h]

theorem deliverKeys_routerKept (f : Former) (n : Comp) (k : KeyState) (s : State) : routerKept s (deliverKeys f n k s) := by
  unfold routerKept deliverKeys; dsimp only; split
  · rfl
  · rw [touchDesk_router]
    simp [setLastKey, State.modRouter]

theorem deliverPointer_routerKept (f : Former) (n : Comp) (r : PointerRecord) (s : State) :
    routerKept s (deliverPointer f n r s) := by
  unfold routerKept deliverPointer; split
  · rw [touchDesk_router]
    simp [setLastPointer, State.modRouter]
  · rfl

theorem releaseInput_routerKept (f : Former) (n : Comp) (s : State) : routerKept s (releaseInput f n s) := by
  rw [releaseInput_eq]
  cases noButtonsDue s n with
  | none => exact deliverKeys_routerKept f n _ s
  | some r => exact (deliverKeys_routerKept f n _ s).trans (deliverPointer_routerKept f n r _)

theorem releaseInput_recipient (f : Former) (n : Comp) (s : State) (m : Comp) :
    isRecipient (releaseInput f n s) m = isRecipient s m := by
  have hd := releaseInput_delivers f n s
  refine isRecipient_congr hd.focus hd.blank hd.comps ?_ ?_ ?_ m
  · rw [releaseInput_routerKept f n s]
  · intro j; rw [(releaseInput_effect f n j s).1]; split <;> simp_all
  · intro j; rw [(releaseInput_effect f n j s).2.2.2]; split <;> rfl

/-! ### The release of several computers -/

theorem emptyRecordDue_congr {s t : State} {n : Comp} (hp : (t.port n).bus = (s.port n).bus)
    (hf : (t.port n).keyFormat = (s.port n).keyFormat) (hk : t.lastKey n = s.lastKey n) :
    emptyRecordDue t n = emptyRecordDue s n := by
  unfold emptyRecordDue; rw [hk, hp, hf]

theorem noButtonsDue_congr {s t : State} {n : Comp} (hp : (t.port n).bus = (s.port n).bus)
    (hl : t.lastPointer n = s.lastPointer n) : noButtonsDue t n = noButtonsDue s n := by
  unfold noButtonsDue; rw [hl, hp]

theorem toldRelease_congr {s t : State} {n : Comp} (hp : t.port n = s.port n) (hk : t.lastKey n = s.lastKey n)
    (hl : t.lastPointer n = s.lastPointer n) (u : Supervisor) : toldRelease t n u = toldRelease s n u := by
  unfold toldRelease
  rw [emptyRecordDue_congr (by rw [hp]) (by rw [hp]) hk, noButtonsDue_congr (by rw [hp]) hl, hp]

/-- What the release of each computer of a list that has left the recipients leaves. -/
structure CompsReleased (gone : Comp → Bool) (l : List Comp) (s t : State) : Prop where
  delivers : Delivers s t
  router : routerKept s t
  recipients : ∀ m, isRecipient t m = isRecipient s m
  letGo : ∀ m, computerLetGo (decide (m ∈ l) && gone m) s t (s.port m) m
  touches : ∀ m, releaseTouches (decide (m ∈ l) && gone m) s t m
  sup : t.sup = l.foldl (fun p m => if gone m then toldRelease s m p else p) s.sup

theorem foldl_told_congr {s t : State} (gone : Comp → Bool) (l : List Comp)
    (h : ∀ m ∈ l, ∀ u, toldRelease t m u = toldRelease s m u) (p : Supervisor) :
    l.foldl (fun p m => if gone m then toldRelease t m p else p) p =
      l.foldl (fun p m => if gone m then toldRelease s m p else p) p := by
  induction l generalizing p with
  | nil => rfl
  | cons x l ih =>
    simp only [List.foldl_cons]
    rw [ih fun m hm => h m (List.mem_cons_of_mem _ hm), h x List.mem_cons_self]

theorem releaseComps_effect (old : State) (l : List Comp) (hl : l.Nodup) (s : State) :
    CompsReleased (fun m => isRecipient old m && !isRecipient s m) l s (l.foldl (releaseIfLeft old) s) := by
  induction l generalizing s with
  | nil =>
    exact ⟨rfl, rfl, fun _ => rfl, fun m => by simp [computerLetGo], fun m => by simp [releaseTouches], rfl⟩
  | cons x l ih =>
    obtain ⟨hx, hl'⟩ := List.nodup_cons.1 hl
    let gone : Comp → Bool := fun m => isRecipient old m && !isRecipient s m
    have hs1 : ∀ m, isRecipient (releaseIfLeft old s x) m = isRecipient s m := by
      intro m; unfold releaseIfLeft; split
      · exact releaseInput_recipient _ _ _ _
      · rfl
    have hg : (fun m => isRecipient old m && !isRecipient (releaseIfLeft old s x) m) = gone := by
      funext m; simp only [hs1, gone]
    have h := ih hl' (releaseIfLeft old s x)
    rw [hg] at h
    rw [List.foldl_cons]
    have same : ∀ m, m ≠ x → (releaseIfLeft old s x).port m = s.port m ∧
        (releaseIfLeft old s x).lastKey m = s.lastKey m ∧
        (releaseIfLeft old s x).lastPointer m = s.lastPointer m ∧
        (releaseIfLeft old s x).control m = s.control m := by
      intro m hm
      unfold releaseIfLeft; split
      · obtain ⟨h1, h2, h3, h4⟩ := releaseInput_effect .desk x m s
        simp [h1, h2, h3, h4, hm]
      · simp
    have here : (releaseIfLeft old s x).port x = (if gone x then releasedPort s x (s.port x) else s.port x) ∧
        (releaseIfLeft old s x).lastKey x = (if gone x then (emptyRecordDue s x).or (s.lastKey x) else s.lastKey x) ∧
        (releaseIfLeft old s x).lastPointer x =
          (if gone x then (noButtonsDue s x).or (s.lastPointer x) else s.lastPointer x) ∧
        (releaseIfLeft old s x).control x =
          (if gone x = true ∧ (emptyRecordDue s x ≠ none ∨ noButtonsDue s x ≠ none) then
            { s.control x with lastDesk := some s.now } else s.control x) ∧
        (releaseIfLeft old s x).sup = (if gone x then toldRelease s x s.sup else s.sup) := by
      obtain ⟨h1, h2, h3, h4⟩ := releaseInput_effect .desk x x s
      unfold releaseIfLeft
      by_cases hgx : gone x = true
      · have hgx' : (isRecipient old x && !isRecipient s x) = true := hgx
        simp [hgx, hgx', h1, h2, h3, h4, releaseInput_sup]
      · have hgx' : ¬ (isRecipient old x && !isRecipient s x) = true := hgx
        rw [if_neg hgx']; simp [hgx]
    have hd1 : Delivers s (releaseIfLeft old s x) := by
      unfold releaseIfLeft; split
      · exact releaseInput_delivers _ _ _
      · rfl
    have hr1 : routerKept s (releaseIfLeft old s x) := by
      unfold releaseIfLeft; split
      · exact releaseInput_routerKept _ _ _
      · rfl
    have hnow := (hd1.trans h.delivers).now
    refine ⟨hd1.trans h.delivers, hr1.trans h.router, fun m => (h.recipients m).trans (hs1 m), fun m => ?_, fun m => ?_, ?_⟩
    · by_cases hm : m = x
      · subst hm
        have := h.letGo m
        simp only [computerLetGo, hx, decide_false, Bool.false_and, Bool.false_eq_true, if_false] at this
        simp only [computerLetGo, List.mem_cons, true_or, decide_true, Bool.true_and]
        exact ⟨this.1.trans here.1, this.2.1.trans here.2.1, this.2.2.trans here.2.2.1⟩
      · have := h.letGo m
        obtain ⟨g1, g2, g3, g4⟩ := same m hm
        have e1 := emptyRecordDue_congr (s := s) (t := releaseIfLeft old s x) (n := m) (by rw [g1]) (by rw [g1]) g2
        have e2 := noButtonsDue_congr (s := s) (t := releaseIfLeft old s x) (n := m) (by rw [g1]) g3
        simpa only [computerLetGo, releasedPort, e1, e2, g1, g2, g3, List.mem_cons, hm, false_or] using this
    · by_cases hm : m = x
      · subst hm
        have := h.touches m
        simp only [releaseTouches, hx, decide_false, Bool.false_and, Bool.false_eq_true, false_and, if_false] at this
        simp only [releaseTouches, List.mem_cons, true_or, decide_true, Bool.true_and, hnow]
        exact this.trans here.2.2.2.1
      · have := h.touches m
        obtain ⟨g1, g2, g3, g4⟩ := same m hm
        have e1 := emptyRecordDue_congr (s := s) (t := releaseIfLeft old s x) (n := m) (by rw [g1]) (by rw [g1]) g2
        have e2 := noButtonsDue_congr (s := s) (t := releaseIfLeft old s x) (n := m) (by rw [g1]) g3
        simpa only [releaseTouches, e1, e2, g4, List.mem_cons, hm, false_or] using this
    · rw [h.sup, foldl_told_congr (s := s), here.2.2.2.2]
      · rfl
      · intro m hm u
        have hne : m ≠ x := fun e => hx (e ▸ hm)
        obtain ⟨g1, g2, g3, -⟩ := same m hne
        exact toldRelease_congr g1 g2 g3 u

/-! ### The release of the links -/

theorem setLinkKeys_linkKeys (k j : LinkId) (ks : KeyState) (s : State) :
    (setLinkKeys k ks s).linkKeys j = if j = k then ks else s.linkKeys j := by
  simp [setLinkKeys, State.linkKeys, pick_upd]

theorem setLinkPointer_linkPointer (k j : LinkId) (f : Option PointerFrame) (s : State) :
    (setLinkPointer k f s).linkPointer j = if j = k then f else s.linkPointer j := by
  simp [setLinkPointer, State.linkPointer, pick_upd]

@[simp] theorem setLinkKeys_linkPointer (k j : LinkId) (ks : KeyState) (s : State) :
    (setLinkKeys k ks s).linkPointer j = s.linkPointer j := rfl
@[simp] theorem setLinkPointer_linkKeys (k j : LinkId) (f : Option PointerFrame) (s : State) :
    (setLinkPointer k f s).linkKeys j = s.linkKeys j := rfl
@[simp] theorem setLinkKeys_link (k j : LinkId) (ks : KeyState) (s : State) : (setLinkKeys k ks s).link j = s.link j := rfl
@[simp] theorem setLinkPointer_link (k j : LinkId) (f : Option PointerFrame) (s : State) :
    (setLinkPointer k f s).link j = s.link j := rfl
@[simp] theorem sendFrame_linkKeys (k j : LinkId) (m : LinkMsg) (s : State) : (sendFrame k m s).linkKeys j = s.linkKeys j := rfl
@[simp] theorem sendFrame_linkPointer (k j : LinkId) (m : LinkMsg) (s : State) :
    (sendFrame k m s).linkPointer j = s.linkPointer j := rfl

theorem sendFrame_link (k j : LinkId) (m : LinkMsg) (s : State) :
    (sendFrame k m s).link j = if j = k then enqueueFrame m (s.link j) else s.link j := by
  simp [sendFrame, State.modLink_link]

@[simp] theorem enqueueFrame_viewer (m : LinkMsg) (l : Link) : (enqueueFrame m l).viewer = l.viewer := by
  unfold enqueueFrame; split
  · rfl
  · split <;> rfl

/-- The last POINTER frame of a link that has been released (R56). -/
def letGoFrame (f : Option PointerFrame) : Option PointerFrame :=
  match f with
  | some (.absolute b x y w) => some (if b = 0 then .absolute b x y w else .absolute 0 x y 0)
  | some (.relative b x y w) => some (if b = 0 then .relative b x y w else .relative 0 0 0 0)
  | none => none

/-- What the release of a link leaves: its frames, its last frames, and the fields that nothing writes. -/
theorem releaseLink_effect (k j : LinkId) (s : State) :
    (releaseLink k s).link j = (if j = k then releasedLink s k else s.link j) ∧
    (releaseLink k s).linkKeys j = (if j = k then ⟨0, []⟩ else s.linkKeys j) ∧
    (releaseLink k s).linkPointer j = (if j = k then letGoFrame (s.linkPointer k) else s.linkPointer j) := by
  have hk : (sendKeys k KeyState.empty s).linkPointer k = s.linkPointer k := by unfold sendKeys; split <;> simp
  have he : KeyState.empty = ⟨0, []⟩ := rfl
  unfold releaseLink
  simp only [hk]
  unfold releasedLink sendKeys sendPointer letGoFrame PointerFrame.buttons PointerFrame.letGo
  rw [he]
  generalize (⟨0, []⟩ : KeyState) = e
  generalize (0 : Buttons) = z
  by_cases hj : j = k
  · subst hj
    cases hf : s.linkPointer j with
    | none => by_cases h : s.linkKeys j = e <;> simp [h, hf, setLinkKeys_linkKeys, sendFrame_link]
    | some f =>
      cases f <;> rename_i b _ _ _ <;> by_cases hb : b = z <;> by_cases h : s.linkKeys j = e <;>
        simp [h, hf, hb, setLinkKeys_linkKeys, setLinkPointer_linkPointer,
          sendFrame_link]
  · cases hf : s.linkPointer k with
    | none => by_cases h : s.linkKeys k = e <;> simp [h, hj, setLinkKeys_linkKeys, sendFrame_link]
    | some f =>
      cases f <;> rename_i b _ _ _ <;> by_cases hb : b = z <;> by_cases h : s.linkKeys k = e <;>
        simp [h, hb, hj, setLinkKeys_linkKeys, setLinkPointer_linkPointer,
          sendFrame_link]

/-- The release of a link writes its frames and the router's last frames. -/
theorem releaseLink_frame (k : LinkId) (s : State) :
    releaseLink k s = { s with
      links := (releaseLink k s).links
      router := { s.router with
        linkKeys := (releaseLink k s).router.linkKeys, linkPointer := (releaseLink k s).router.linkPointer } } := by
  have hs : sendKeys k KeyState.empty s = { s with
      links := (sendKeys k KeyState.empty s).links
      router := { s.router with linkKeys := (sendKeys k KeyState.empty s).router.linkKeys } } := by
    unfold sendKeys; split <;> rfl
  unfold releaseLink
  dsimp only
  split
  · split
    · rw [hs]
    · generalize sendKeys k KeyState.empty s = x at hs ⊢
      rw [hs]; rfl
  · rw [hs]

/-! ### The release of all that have left the recipients -/

theorem releaseLink_same (k : LinkId) (s : State) :
    Releases s (releaseLink k s) ∧ (releaseLink k s).ports = s.ports ∧ (releaseLink k s).controls = s.controls ∧
      (releaseLink k s).sup = s.sup ∧
      (releaseLink k s).router = { s.router with
        linkKeys := (releaseLink k s).router.linkKeys, linkPointer := (releaseLink k s).router.linkPointer } := by
  refine ⟨releaseLink_releases k s, ?_, ?_, ?_, ?_⟩ <;> rw [releaseLink_frame k s]

@[simp] theorem enqueueFrame_fields (m : LinkMsg) (l : Link) :
    (enqueueFrame m l).enabled = l.enabled ∧ (enqueueFrame m l).up = l.up ∧ (enqueueFrame m l).inbound = l.inbound ∧
      (enqueueFrame m l).outbound = l.outbound ∧ (enqueueFrame m l).peerZones = l.peerZones := by
  unfold enqueueFrame; split
  · exact ⟨rfl, rfl, rfl, rfl, rfl⟩
  · split <;> exact ⟨rfl, rfl, rfl, rfl, rfl⟩

@[simp] theorem releasedLink_viewer (s : State) (k : LinkId) : (releasedLink s k).viewer = (s.link k).viewer := by
  unfold releasedLink
  cases s.linkPointer k with
  | none => dsimp only; split <;> simp
  | some f => cases f <;> dsimp only <;> split <;> split <;> simp

/-- Whether link `k` is released at a derivation of the recipients: it was one in `old`, is none in `s`, and its viewer
control is still HELD (R56). -/
def linkGone (old s : State) (k : LinkId) : Bool :=
  linkIsRecipient old k && !linkIsRecipient s k && (s.link k).viewer == .held

theorem releasedLink_congr {s t : State} {k : LinkId} (hl : t.link k = s.link k) (hk : t.linkKeys k = s.linkKeys k)
    (hp : t.linkPointer k = s.linkPointer k) : releasedLink t k = releasedLink s k := by
  unfold releasedLink; rw [hl, hk, hp]

/-- What the release of the links of a list leaves. -/
structure LinksLetGo (old : State) (l : List LinkId) (s t : State) : Prop where
  same : Releases s t ∧ t.ports = s.ports ∧ t.controls = s.controls ∧ t.sup = s.sup ∧
    t.router = { s.router with linkKeys := t.router.linkKeys, linkPointer := t.router.linkPointer }
  link : ∀ k, t.link k = if (decide (k ∈ l) && linkGone old s k) then releasedLink s k else s.link k
  keys : ∀ k, t.linkKeys k = if (decide (k ∈ l) && linkGone old s k) then ⟨0, []⟩ else s.linkKeys k
  pointer : ∀ k, t.linkPointer k =
    if (decide (k ∈ l) && linkGone old s k) then letGoFrame (s.linkPointer k) else s.linkPointer k

theorem releaseLinks_effect (old : State) (l : List LinkId) (hl : l.Nodup) (s : State) :
    LinksLetGo old l s (l.foldl (releaseLinkIfLeft old) s) := by
  induction l generalizing s with
  | nil => exact ⟨⟨rfl, rfl, rfl, rfl, rfl⟩, fun _ => by simp, fun _ => by simp, fun _ => by simp⟩
  | cons x l ih =>
    obtain ⟨hx, hl'⟩ := List.nodup_cons.1 hl
    have step : ∀ k, (releaseLinkIfLeft old s x).link k =
          (if k = x ∧ linkGone old s x = true then releasedLink s k else s.link k) ∧
        (releaseLinkIfLeft old s x).linkKeys k = (if k = x ∧ linkGone old s x = true then ⟨0, []⟩ else s.linkKeys k) ∧
        (releaseLinkIfLeft old s x).linkPointer k =
          (if k = x ∧ linkGone old s x = true then letGoFrame (s.linkPointer k) else s.linkPointer k) := by
      intro k
      unfold releaseLinkIfLeft
      by_cases hg : linkGone old s x = true
      · have hg' : (linkIsRecipient old x && !linkIsRecipient s x && (s.link x).viewer == .held) = true := hg
        obtain ⟨h1, h2, h3⟩ := releaseLink_effect x k s
        rw [if_pos hg', h1, h2, h3]
        by_cases hk : k = x
        · subst hk; simp [hg]
        · simp [hk]
      · have hg' : ¬ (linkIsRecipient old x && !linkIsRecipient s x && (s.link x).viewer == .held) = true := hg
        rw [if_neg hg']; simp [hg]
    have hsame : Releases s (releaseLinkIfLeft old s x) ∧ (releaseLinkIfLeft old s x).ports = s.ports ∧
        (releaseLinkIfLeft old s x).controls = s.controls ∧ (releaseLinkIfLeft old s x).sup = s.sup ∧
        (releaseLinkIfLeft old s x).router = { s.router with
          linkKeys := (releaseLinkIfLeft old s x).router.linkKeys
          linkPointer := (releaseLinkIfLeft old s x).router.linkPointer } := by
      unfold releaseLinkIfLeft; split
      · exact releaseLink_same x s
      · exact ⟨rfl, rfl, rfl, rfl, rfl⟩
    have hg : ∀ k, linkGone old (releaseLinkIfLeft old s x) k = linkGone old s k := by
      intro k
      have hv : ∀ j, ((releaseLinkIfLeft old s x).link j).viewer = (s.link j).viewer := by
        intro j; rw [(step j).1]; split <;> simp
      have h := linkIsRecipient_congr hsame.1.focus hsame.1.blank hv k
      unfold linkGone; rw [h, hv]
    have h := ih hl' (releaseLinkIfLeft old s x)
    rw [List.foldl_cons]
    refine ⟨⟨hsame.1.trans h.same.1, h.same.2.1.trans hsame.2.1, h.same.2.2.1.trans hsame.2.2.1,
      h.same.2.2.2.1.trans hsame.2.2.2.1, ?_⟩, fun k => ?_, fun k => ?_, fun k => ?_⟩
    · rw [h.same.2.2.2.2, hsame.2.2.2.2]
    all_goals
      obtain ⟨s1, s2, s3⟩ := step k
      by_cases hk : k = x
      · subst hk
        simp only [h.link, h.keys, h.pointer, hx, decide_false, Bool.false_and, Bool.false_eq_true, if_false,
          List.mem_cons, true_or, decide_true, Bool.true_and, s1, s2, s3, true_and]
      · have e : releasedLink (releaseLinkIfLeft old s x) k = releasedLink s k := by
          refine releasedLink_congr ?_ ?_ ?_
          · rw [s1]; simp [hk]
          · rw [s2]; simp [hk]
          · rw [s3]; simp [hk]
        simp only [h.link, h.keys, h.pointer, hg, e, s1, s2, s3, hk, false_and, if_false, List.mem_cons, false_or]

/-- What the release of all that have left the recipients leaves: the computers' ports and records with their PORT
notices, the links' frames, and nothing else (R53, R55, R56). -/
structure LeaversReleased (old s t : State) : Prop where
  releases : Releases s t
  router : t.router = { s.router with
    lastKey := t.router.lastKey, lastPointer := t.router.lastPointer
    linkKeys := t.router.linkKeys, linkPointer := t.router.linkPointer }
  recipients : ∀ m, isRecipient t m = isRecipient s m
  linkRecipients : ∀ k, linkIsRecipient t k = linkIsRecipient s k
  letGo : ∀ m, computerLetGo (isRecipient old m && !isRecipient s m) s t (s.port m) m
  touches : ∀ m, releaseTouches (isRecipient old m && !isRecipient s m) s t m
  link : ∀ k, t.link k = if linkGone old s k then releasedLink s k else s.link k
  keys : ∀ k, t.linkKeys k = if linkGone old s k then ⟨0, []⟩ else s.linkKeys k
  pointer : ∀ k, t.linkPointer k = if linkGone old s k then letGoFrame (s.linkPointer k) else s.linkPointer k
  sup : t.sup = toldOf (fun m => isRecipient old m && !isRecipient s m) s s.sup

theorem mem_allComps (n : Comp) : n ∈ allComps := by revert n; decide
theorem mem_allLinks (k : LinkId) : k ∈ allLinks := by revert k; decide

theorem releaseLeavers_effect (old s : State) : LeaversReleased old s (releaseLeavers old s) := by
  have c := releaseComps_effect old allComps (by decide) s
  have d := releaseLinks_effect old allLinks (by decide) (allComps.foldl (releaseIfLeft old) s)
  generalize hx : allComps.foldl (releaseIfLeft old) s = x at c d
  have ht : releaseLeavers old s = allLinks.foldl (releaseLinkIfLeft old) x := by unfold releaseLeavers; rw [hx]
  rw [ht]
  generalize allLinks.foldl (releaseLinkIfLeft old) x = t at d
  obtain ⟨d1, d2, d3, d4, d5⟩ := d.same
  have hlink : ∀ k, x.link k = s.link k := fun k => by unfold State.link; rw [c.delivers.links]
  have hkeys : ∀ k, x.linkKeys k = s.linkKeys k := fun k => by unfold State.linkKeys; rw [c.router]
  have hptr : ∀ k, x.linkPointer k = s.linkPointer k := fun k => by unfold State.linkPointer; rw [c.router]
  have hg : ∀ k, linkGone old x k = linkGone old s k := fun k => by
    have h := linkIsRecipient_congr c.delivers.focus c.delivers.blank (fun j => by rw [hlink j]) k
    unfold linkGone; rw [h, hlink]
  have hr : ∀ k, releasedLink x k = releasedLink s k := fun k => releasedLink_congr (hlink k) (hkeys k) (hptr k)
  have hl : ∀ k, t.link k = if linkGone old s k then releasedLink s k else s.link k := fun k => by
    rw [d.link, hg, hr, hlink]; simp only [mem_allLinks, decide_true, Bool.true_and]
  have hport : ∀ m, t.port m = x.port m := fun m => by unfold State.port; rw [d2]
  have hctl : ∀ m, t.control m = x.control m := fun m => by unfold State.control; rw [d3]
  have hlk : ∀ m, t.lastKey m = x.lastKey m := fun m => by unfold State.lastKey; rw [d5]
  have hlp : ∀ m, t.lastPointer m = x.lastPointer m := fun m => by unfold State.lastPointer; rw [d5]
  refine ⟨c.delivers.toReleases.trans d1, by rw [d5, c.router], fun m => ?_, fun k => ?_, fun m => ?_, fun m => ?_, hl,
    fun k => ?_, fun k => ?_, ?_⟩
  · rw [← c.recipients m]
    refine isRecipient_congr d1.focus d1.blank d1.comps (by rw [d5]) (fun j => by rw [hport]) (fun j => by rw [hctl]) m
  · refine linkIsRecipient_congr (c.delivers.toReleases.trans d1).focus (c.delivers.toReleases.trans d1).blank
      (fun j => ?_) k
    rw [hl]; split <;> simp
  · have := c.letGo m
    simpa only [computerLetGo, mem_allComps, decide_true, Bool.true_and, hport, hlk, hlp] using this
  · have := c.touches m
    simpa only [releaseTouches, mem_allComps, decide_true, Bool.true_and, hctl, d1.now] using this
  · rw [d.keys, hg, hkeys]; simp only [mem_allLinks, decide_true, Bool.true_and]
  · rw [d.pointer, hg, hptr]; simp only [mem_allLinks, decide_true, Bool.true_and]
  · rw [d4, c.sup]; rfl

end Sys2Proof.Machine
end

