-- ==== Sys2Proof/Laws/Focus.lean ====
section
/-!
SUPPORT. What a fresh derivation of the recipients and a write of the focus record leave in the supervisor link, in the
terms of the statements.
-/

namespace Sys2Proof.Machine

open Sys2Proof

/-! ### Operations that tell the host nothing -/

@[simp] theorem maskHeld_sup (s : State) : (maskHeld s).sup = s.sup := rfl
@[simp] theorem clearCarry_sup (n : Comp) (s : State) : (clearCarry n s).sup = s.sup := rfl
@[simp] theorem clearCapture_sup (s : State) : (clearCapture s).sup = s.sup := by
  unfold clearCapture; split
  · dsimp only; split <;> rfl
  · rfl
@[simp] theorem leaveTarget_sup (t : FocusTarget) (s : State) : (leaveTarget t s).sup = s.sup := by
  unfold leaveTarget; dsimp only; split <;> rfl
@[simp] theorem checkLights_sup (s : State) : (checkLights s).sup = s.sup := by unfold checkLights; split <;> rfl
@[simp] theorem takeGlideZone_sup (t : FocusTarget) (s : State) : (takeGlideZone t s).sup = s.sup := by
  unfold takeGlideZone; split
  · rfl
  · rfl
  · split <;> rfl
@[simp] theorem placeAt_sup (m : Option Monitor) (s : State) : (placeAt m s).sup = s.sup := by
  unfold placeAt; split <;> rfl

/-! ### What leaves the recipients as they are -/

/-- `t` has the recipients of `s`, its focus and blank unit, and what a release of a computer looks at. -/
structure Alike (s t : State) : Prop where
  focus : t.focus = s.focus
  blank : t.blank = s.blank
  comps : t.comps = s.comps
  broadcast : t.router.broadcast = s.router.broadcast
  ports : t.ports = s.ports
  controls : t.controls = s.controls

theorem Alike.trans {a b c : State} (h : Alike a b) (g : Alike b c) : Alike a c :=
  ⟨g.focus.trans h.focus, g.blank.trans h.blank, g.comps.trans h.comps, g.broadcast.trans h.broadcast,
    g.ports.trans h.ports, g.controls.trans h.controls⟩

theorem Alike.recipient {s t : State} (h : Alike s t) (m : Comp) : isRecipient t m = isRecipient s m :=
  isRecipient_congr h.focus h.blank h.comps h.broadcast (fun j => by unfold State.port; rw [h.ports])
    (fun j => by unfold State.control; rw [h.controls]) m

theorem setTally_alike (s : State) (l : LineId) : Alike s (setTally s l) := by
  unfold setTally; split <;> exact ⟨rfl, rfl, rfl, rfl, rfl, rfl⟩

@[simp] theorem setTally_sup (s : State) (l : LineId) : (setTally s l).sup = s.sup := by
  unfold setTally; split <;> rfl

theorem tellTally_alike (s : State) : Alike s (tellTally s) := by
  unfold tellTally
  generalize allLines = ls
  induction ls generalizing s with
  | nil => exact ⟨rfl, rfl, rfl, rfl, rfl, rfl⟩
  | cons l ls ih => exact (setTally_alike s l).trans (ih _)

@[simp] theorem tellTally_sup (s : State) : (tellTally s).sup = s.sup := by
  unfold tellTally
  generalize allLines = ls
  induction ls generalizing s with
  | nil => rfl
  | cons l ls ih => exact (ih _).trans (setTally_sup s l)

theorem checkLights_alike (s : State) : Alike s (checkLights s) := by
  unfold checkLights; split <;> exact ⟨rfl, rfl, rfl, rfl, rfl, rfl⟩
theorem takeGlideZone_alike (t : FocusTarget) (s : State) : Alike s (takeGlideZone t s) := by
  unfold takeGlideZone; split
  · exact ⟨rfl, rfl, rfl, rfl, rfl, rfl⟩
  · exact ⟨rfl, rfl, rfl, rfl, rfl, rfl⟩
  · split <;> exact ⟨rfl, rfl, rfl, rfl, rfl, rfl⟩
theorem placeAt_alike (m : Option Monitor) (s : State) : Alike s (placeAt m s) := by
  unfold placeAt; split <;> exact ⟨rfl, rfl, rfl, rfl, rfl, rfl⟩
theorem noticeFocus_alike (old s : State) : Alike s (noticeFocus old s) := by
  unfold noticeFocus; split <;> exact ⟨rfl, rfl, rfl, rfl, rfl, rfl⟩
theorem notify_alike (c : NoticeClass) (f : SupFrame) (s : State) : Alike s (notify c f s) := ⟨rfl, rfl, rfl, rfl, rfl, rfl⟩

theorem noticeFocus_sup (old s : State) : (noticeFocus old s).sup = toldFocus old s s.sup := by
  unfold noticeFocus toldFocus; split <;> simp_all

theorem toldFocus_congr {s t u : State} (h : u.focus = t.focus) (p : Supervisor) : toldFocus s u p = toldFocus s t p := by
  unfold toldFocus; rw [h]

/-! ### The notices of a release, from the state before -/

/-- A release looks at the queues, the flags and the last records alone, not at the carry. -/
theorem toldRelease_carry {s t : State} {n : Comp} (hp : t.port n = s.port n ∨ t.port n = carryCleared (s.port n))
    (hk : t.lastKey n = s.lastKey n) (hl : t.lastPointer n = s.lastPointer n) (u : Supervisor) :
    toldRelease t n u = toldRelease s n u := by
  rcases hp with hp | hp
  · exact toldRelease_congr hp hk hl u
  · have hb : (t.port n).bus = (s.port n).bus := by rw [hp]; rfl
    have hf : (t.port n).keyFormat = (s.port n).keyFormat := by rw [hp]; rfl
    unfold toldRelease
    rw [emptyRecordDue_congr hb hf hk, noButtonsDue_congr hb hl, hp]
    cases emptyRecordDue s n <;> cases noButtonsDue s n <;> try rfl
    unfold pushKey carryCleared toldPointer toldKey
    dsimp only [Option.elim_some]
    split <;> rfl

theorem toldOf_congr {gone gone' : Comp → Bool} {s t : State} (hg : ∀ m, gone' m = gone m)
    (h : ∀ m, gone m = true → ∀ u, toldRelease t m u = toldRelease s m u) (p : Supervisor) :
    toldOf gone' t p = toldOf gone s p := by
  have hg' : gone' = gone := funext hg
  subst hg'
  unfold toldOf
  generalize allComps = l
  induction l generalizing p with
  | nil => rfl
  | cons x l ih =>
    simp only [List.foldl_cons]
    rw [ih]
    congr 1
    split
    · next hx => exact h x hx p
    · rfl

/-! ### A focus change -/

theorem leaveTarget_port (old : FocusTarget) (s : State) (m : Comp) :
    (leaveTarget old s).port m = if old = .loc m then carryCleared (s.port m) else s.port m := by
  unfold leaveTarget
  cases old with
  | loc n =>
    by_cases h : m = n
    · subst h; simp [clearCarry, carryCleared]
    · have h' : ¬ n = m := fun e => h e.symm
      simp [clearCarry, State.modPort_port, h, h']
  | rem k => simp
  | none => simp

/-- A focus change tells the host of the replacements that its releases make, and then of the record written (R38, R40,
R55, R75). -/
theorem focusChange_sup (t : FocusTarget) (o : Origin) (tile : Option Monitor) (place : Bool) (s : State) :
    (focusChange t o tile place s).sup = toldWrite s (focusChange t o tile place s) s.sup ∧
      (focusChange t o tile place s).focus = ⟨t, o, tile⟩ := by
  let s4 := leaveTarget s.focus.target ((maskHeld s).setFocus ⟨t, o, tile⟩)
  let s6 := takeGlideZone t (releaseLeavers s s4)
  let x := checkLights (tellTally s6)
  have hl := releaseLeavers_effect s s4
  have ha : Alike (releaseLeavers s s4) x :=
    (takeGlideZone_alike t _).trans ((tellTally_alike _).trans (checkLights_alike _))
  have hfocus : s4.focus = ⟨t, o, tile⟩ := by
    simp only [s4, leaveTarget]; split <;> rfl
  have hx : x.focus = ⟨t, o, tile⟩ := by rw [ha.focus, hl.releases.focus, hfocus]
  have hxs : x.sup = toldOf (fun m => isRecipient s m && !isRecipient s4 m) s4 s4.sup := by
    simp only [x, s6, checkLights_sup, tellTally_sup, takeGlideZone_sup, hl.sup]
  have hs4 : s4.sup = s.sup := by simp [s4]
  have hr4 : s4.router.lastKey = s.router.lastKey ∧ s4.router.lastPointer = s.router.lastPointer := by
    simp only [s4, leaveTarget]; split <;> exact ⟨rfl, rfl⟩
  have hp4 : ∀ m, s4.port m = s.port m ∨ s4.port m = carryCleared (s.port m) := by
    intro m
    simp only [s4, leaveTarget_port]
    split
    · right; rfl
    · left; rfl
  have heq : focusChange t o tile place s = if place then placeAt tile (noticeFocus s x) else noticeFocus s x := rfl
  rw [heq]
  clear_value x s6 s4
  have key : ∀ u : State, Alike (noticeFocus s x) u → u.sup = (noticeFocus s x).sup →
      u.sup = toldWrite s u s.sup ∧ u.focus = ⟨t, o, tile⟩ := by
    intro u hu hs
    have hu' := ha.trans ((noticeFocus_alike s x).trans hu)
    have hf : u.focus = x.focus := by rw [hu.focus, (noticeFocus_alike s x).focus]
    refine ⟨?_, hf.trans hx⟩
    have ht : toldOf (fun m => isRecipient s m && !isRecipient s4 m) s4 s.sup = toldLeavers s u s.sup := by
      refine toldOf_congr (fun m => ?_) (fun m _ q => toldRelease_carry (hp4 m) ?_ ?_ q) _
      · rw [hu'.recipient, hl.recipients]
      · unfold State.lastKey; rw [hr4.1]
      · unfold State.lastPointer; rw [hr4.2]
    rw [hs, noticeFocus_sup, hxs, hs4, ht, toldWrite, toldFocus_congr hf]
  cases place with
  | false => exact key _ ⟨rfl, rfl, rfl, rfl, rfl, rfl⟩ rfl
  | true => exact key _ (placeAt_alike tile _) (placeAt_sup tile _)

/-! ### Writes that leave the target, and the other focus writes -/

theorem toldOf_none {gone : Comp → Bool} (h : ∀ m, gone m = false) (s : State) (p : Supervisor) : toldOf gone s p = p := by
  unfold toldOf
  generalize allComps = l
  induction l generalizing p with
  | nil => rfl
  | cons x l ih => rw [List.foldl_cons, h x]; exact ih p

theorem toldLeavers_same {s u : State} (h : ∀ m, isRecipient u m = isRecipient s m) (p : Supervisor) :
    toldLeavers s u p = p :=
  toldOf_none (fun m => by rw [h m]; cases isRecipient s m <;> rfl) s p

/-- `t` has the recipients of `s` but for the target of the focus. -/
structure Near (s t : State) : Prop where
  blank : t.blank = s.blank
  comps : t.comps = s.comps
  broadcast : t.router.broadcast = s.router.broadcast
  bus : ∀ m, (t.port m).bus = (s.port m).bus
  holder : ∀ m, (t.control m).holder = (s.control m).holder

theorem Near.trans {a b c : State} (h : Near a b) (g : Near b c) : Near a c :=
  ⟨g.blank.trans h.blank, g.comps.trans h.comps, g.broadcast.trans h.broadcast, fun m => (g.bus m).trans (h.bus m),
    fun m => (g.holder m).trans (h.holder m)⟩

theorem Alike.near {s t : State} (h : Alike s t) : Near s t :=
  ⟨h.blank, h.comps, h.broadcast, fun m => by unfold State.port; rw [h.ports],
    fun m => by unfold State.control; rw [h.controls]⟩

theorem Near.recipient {s t : State} (h : Near s t) (hf : t.focus.target = s.focus.target) (m : Comp) :
    isRecipient t m = isRecipient s m :=
  isRecipient_target hf h.blank h.comps h.broadcast h.bus h.holder m

theorem clearCarry_near (n : Comp) (s : State) : Near s (clearCarry n s) :=
  ⟨rfl, rfl, rfl, fun m => by unfold clearCarry; rw [State.modPort_port]; split <;> rfl, fun _ => rfl⟩

theorem clearCapture_near (s : State) : Near s (clearCapture s) := by
  unfold clearCapture; split
  · dsimp only; split
    · exact ⟨rfl, rfl, rfl, (clearCarry_near _ _).bus, fun _ => rfl⟩
    · exact ⟨rfl, rfl, rfl, fun _ => rfl, fun _ => rfl⟩
  · exact ⟨rfl, rfl, rfl, fun _ => rfl, fun _ => rfl⟩

@[simp] theorem clearCapture_focus (s : State) : (clearCapture s).focus = s.focus := by
  unfold clearCapture; split
  · dsimp only; split <;> rfl
  · rfl

/-- A write that leaves the target tells the host of a changed record alone (R38, R39). -/
theorem targetWrite_sup {s x : State} (h : Near s x) (hf : x.focus.target = s.focus.target) (hs : x.sup = s.sup) :
    (noticeFocus s x).sup = toldWrite s (noticeFocus s x) s.sup := by
  have hn := noticeFocus_alike s x
  rw [noticeFocus_sup, toldWrite, toldFocus_congr hn.focus, hs, toldLeavers_same]
  exact (h.trans hn.near).recipient (by rw [hn.focus]; exact hf)

theorem setFocus_near (s : State) (r : FocusRecord) : Near s (s.setFocus r) := ⟨rfl, rfl, rfl, fun _ => rfl, fun _ => rfl⟩

/-- Each write whose cause places the pointer (R38, R39, R40). -/
theorem writePlaced_sup (t : FocusTarget) (o : Origin) (m : Option Monitor) (s : State) :
    (writePlaced t o m s).sup = toldWrite s (writePlaced t o m s) s.sup ∧ (writePlaced t o m s).focus = ⟨t, o, m⟩ := by
  unfold writePlaced
  split
  · next ht =>
    have hp := placeAt_alike m ((clearCapture s).setFocus ⟨t, o, m⟩)
    refine ⟨targetWrite_sup (((clearCapture_near s).trans (setFocus_near _ _)).trans hp.near) ?_ ?_, ?_⟩
    · rw [hp.focus]; exact ht
    · rw [placeAt_sup]; exact clearCapture_sup s
    · rw [(noticeFocus_alike s _).focus, hp.focus]; rfl
  · exact focusChange_sup t o m true s

theorem focusBy_sup (t : FocusTarget) (o : Origin) (s : State) :
    (focusBy t o s).sup = toldWrite s (focusBy t o s) s.sup := (writePlaced_sup t o _ s).1

/-- Each re-evaluation of the focus (R26, R38). -/
theorem reevaluate_sup (m : Monitor) (s : State) :
    (reevaluate m s).sup = toldWrite s (reevaluate m s) s.sup ∧
      (reevaluate m s).focus = ⟨formedTarget s (assignmentOf s m), .glide, some m⟩ := by
  unfold reevaluate
  dsimp only
  split
  · next ht =>
    refine ⟨targetWrite_sup (setFocus_near _ _) ht rfl, ?_⟩
    rw [(noticeFocus_alike s _).focus]; rfl
  · exact focusChange_sup _ _ _ false s

/-! ### A fresh derivation of the recipients -/

theorem rederive_alike (old s : State) : Alike (releaseLeavers old s) (rederive old s) ∧
    (rederive old s).sup = (releaseLeavers old s).sup := by
  unfold rederive; dsimp only; split <;> exact ⟨⟨rfl, rfl, rfl, rfl, rfl, rfl⟩, rfl⟩

/-- A fresh derivation tells the host of the replacements that its releases make (R53, R55, R75). -/
theorem rederive_sup (old s : State) :
    (rederive old s).sup = toldOf (fun m => isRecipient old m && !isRecipient s m) s s.sup ∧
      ∀ m, isRecipient (rederive old s) m = isRecipient s m := by
  obtain ⟨ha, hs⟩ := rederive_alike old s
  have hl := releaseLeavers_effect old s
  exact ⟨by rw [hs, hl.sup], fun m => (ha.recipient m).trans (hl.recipients m)⟩

/-- A fresh derivation after a change that leaves the ports and the last records, in the terms of the statements. -/
theorem rederive_told {old s : State} (hp : ∀ m, s.port m = old.port m ∨ s.port m = carryCleared (old.port m))
    (hk : ∀ m, s.lastKey m = old.lastKey m) (hl : ∀ m, s.lastPointer m = old.lastPointer m) :
    (rederive old s).sup = toldLeavers old (rederive old s) s.sup := by
  obtain ⟨h, hr⟩ := rederive_sup old s
  rw [h]
  exact toldOf_congr (fun m => by rw [hr]) (fun m _ q => toldRelease_carry (hp m) (hk m) (hl m) q) _

/-! ### The privacy blank -/

/-- The router's part of a blank tells the host of the replacements, and then of the record (R38, R44). -/
theorem focusBlank_sup {old s : State} (hb : s = old.modBlank fun u => { u with state := s.blank.state }) :
    (focusBlank old s).sup = toldWrite old (focusBlank old s) s.sup ∧ (focusBlank old s).blank = s.blank := by
  let y := clearCapture ((maskHeld s).setFocus ⟨s.focus.target, .blank, s.focus.tile⟩)
  have hl := releaseLeavers_effect old y
  have hn := noticeFocus_alike s (releaseLeavers old y)
  have heq : focusBlank old s = noticeFocus s (releaseLeavers old y) := rfl
  have hsup : y.sup = s.sup := by simp [y]
  have hport : ∀ m, y.port m = old.port m ∨ y.port m = carryCleared (old.port m) := by
    intro m
    have hs : s.port m = old.port m := by rw [hb]; rfl
    simp only [y, clearCapture]
    split
    · split
      · simp only [clearCarry, State.modPort_port]
        split
        · right; rw [← hs]; rfl
        · left; rw [← hs]; rfl
      · left; exact hs
    · left; exact hs
  have hrouter : y.router.lastKey = old.router.lastKey ∧ y.router.lastPointer = old.router.lastPointer := by
    have hs : s.router = old.router := by rw [hb]; rfl
    have : y.router = (maskHeld s).router := by
      simp only [y, clearCapture]; split
      · split <;> rfl
      · rfl
    rw [this, ← hs]; exact ⟨rfl, rfl⟩
  have hblank : y.blank = s.blank := by
    simp only [y, clearCapture]; split
    · split <;> rfl
    · rfl
  rw [heq]
  clear_value y
  refine ⟨?_, by rw [hn.blank, hl.releases.blank, hblank]⟩
  have ht : toldOf (fun m => isRecipient old m && !isRecipient y m) y s.sup =
      toldLeavers old (noticeFocus s (releaseLeavers old y)) s.sup := by
    refine toldOf_congr (fun m => ?_) (fun m _ q => toldRelease_carry (hport m) ?_ ?_ q) _
    · rw [hn.recipient, hl.recipients]
    · unfold State.lastKey; rw [hrouter.1]
    · unfold State.lastPointer; rw [hrouter.2]
  have hf : s.focus = old.focus := by rw [hb]; rfl
  rw [noticeFocus_sup, hl.sup, hsup, ht, toldWrite, toldFocus_congr hn.focus]
  unfold toldFocus; rw [hf]

end Sys2Proof.Machine
end

