-- ==== Sys2Proof/Laws/Holders.lean ====
section
/-!
SUPPORT. What a change of holder, the end of control on a link and a change of the viewer control state leave, in the
terms of the statements.
-/

namespace Sys2Proof.Machine

open Sys2Proof

/-! ### Recipients and holders -/

/-- A computer stays a recipient where each computer that the desk held is still held by the desk. -/
theorem isRecipient_mono {s t : State} (hf : t.focus.target = s.focus.target) (hb : t.blank = s.blank)
    (hc : t.comps = s.comps) (hr : t.router.broadcast = s.router.broadcast)
    (hp : ∀ m, (t.port m).bus = (s.port m).bus)
    (hh : ∀ m, (s.control m).holder = .desk → (t.control m).holder = .desk) (m : Comp)
    (h : isRecipient s m = true) : isRecipient t m = true := by
  unfold isRecipient blanked State.comp at h ⊢
  rw [hf, hb, hc, hr]
  cases hs : s.focus.target with
  | loc n =>
    simp only [hs, Bool.and_eq_true, Bool.or_eq_true, beq_iff_eq, hp] at h ⊢
    obtain ⟨⟨h1, h2⟩, h3⟩ := h
    refine ⟨⟨h1, hh n h2⟩, ?_⟩
    rcases h3 with h3 | ⟨h3, h4⟩
    · exact .inl h3
    · exact .inr ⟨h3, hh m h4⟩
  | rem k => simp [hs] at h
  | none => simp [hs] at h

/-- A state in which nobody has become a recipient. -/
theorem someoneJoined_false {old s : State} (hc : ∀ m, isRecipient s m = true → isRecipient old m = true)
    (hl : ∀ k, linkIsRecipient s k = true → linkIsRecipient old k = true) : someoneJoined old s = false := by
  unfold someoneJoined
  rw [Bool.or_eq_false_iff, List.any_eq_false, List.any_eq_false]
  refine ⟨fun m _ h => ?_, fun k _ h => ?_⟩
  · rw [Bool.and_eq_true] at h; simp [hc m h.1] at h
  · rw [Bool.and_eq_true] at h; simp [hl k h.1] at h

theorem someoneJoined_comps {old s : State} (hl : ∀ k, linkIsRecipient s k = linkIsRecipient old k) :
    someoneJoined old s = true ↔ ∃ m, isRecipient s m = true ∧ isRecipient old m = false := by
  unfold someoneJoined
  rw [Bool.or_eq_true, List.any_eq_true, List.any_eq_true]
  constructor
  · rintro (⟨m, -, h⟩ | ⟨k, -, h⟩)
    · exact ⟨m, by simpa using h⟩
    · rw [hl k] at h; simp at h
  · rintro ⟨m, h1, h2⟩
    exact .inl ⟨m, mem_allComps m, by simp [h1, h2]⟩

theorem vector_ext {α : Type} {n : Nat} {v w : Vector α n} (h : ∀ i : Fin n, pick v i = pick w i) : v = w := by
  apply Vector.ext
  intro i hi
  exact h ⟨i, hi⟩

/-! ### A computer released twice -/

/-- After a release nothing more is due. -/
theorem released_nothing_due {s t : State} {n : Comp} (hb : (t.port n).bus = (s.port n).bus)
    (hf : (t.port n).keyFormat = (s.port n).keyFormat) (hk : t.lastKey n = (emptyRecordDue s n).or (s.lastKey n))
    (hl : t.lastPointer n = (noButtonsDue s n).or (s.lastPointer n)) :
    emptyRecordDue t n = none ∧ noButtonsDue t n = none := by
  constructor
  · unfold emptyRecordDue
    rw [hk, hb, hf]
    unfold emptyRecordDue
    cases hs : s.lastKey n with
    | none => rfl
    | some l =>
      dsimp only
      by_cases h : (s.port n).bus = .detached ∨ l.mods = 0 ∧ l.keys = []
      · rw [if_pos h, Option.none_or]; exact if_pos h
      · rw [if_neg h, Option.some_or]
        cases (s.port n).keyFormat <;> exact if_pos (Or.inr ⟨rfl, rfl⟩)
  · unfold noButtonsDue
    rw [hl, hb]
    unfold noButtonsDue
    cases hs : s.lastPointer n with
    | none => rfl
    | some r =>
      cases r <;> rename_i b _ _ _ <;> dsimp only <;> by_cases h : (s.port n).bus = .detached ∨ b = 0
      · rw [if_pos h, Option.none_or]; exact if_pos h
      · rw [if_neg h, Option.some_or]; exact if_pos (Or.inr rfl)
      · rw [if_pos h, Option.none_or]; exact if_pos h
      · rw [if_neg h, Option.some_or]; exact if_pos (Or.inr rfl)

theorem upd_self {α : Type} {n : Nat} (v : Vector α n) (i : Fin n) (f : α → α) (h : f (pick v i) = pick v i) :
    upd v i f = v := by
  unfold upd; rw [h]; unfold pick; simp

theorem modPort_self (s : State) (n : Comp) (f : Port → Port) (h : f (s.port n) = s.port n) : s.modPort n f = s := by
  unfold State.modPort; rw [upd_self _ _ _ h]

@[simp] theorem pushKey_format (r : KeyRecord) (p : Port) : (pushKey r p).keyFormat = p.keyFormat := by
  unfold pushKey; dsimp only; split <;> rfl

@[simp] theorem pushPointer_format (r : PointerRecord) (p : Port) : (pushPointer r p).keyFormat = p.keyFormat := by
  unfold pushPointer; dsimp only; split <;> rfl

@[simp] theorem releasedPort_format (s : State) (n : Comp) (p : Port) : (releasedPort s n p).keyFormat = p.keyFormat := by
  unfold releasedPort; cases emptyRecordDue s n <;> cases noButtonsDue s n <;> simp

/-! ### What a change of holder does first -/

/-- The state after a computer has been released and its holder written (R152 steps 1 to 3, R153 steps 1 and 2). -/
theorem heldBy_effect (n : Comp) (h : Holder) (s : State) :
    let t := writeHolder n h (releaseInput .table n s)
    Delivers s t ∧ routerKept s t ∧ t.sup = toldRelease s n s.sup ∧
    (∀ m, t.port m = if m = n then carryCleared (releasedPort s n (s.port n)) else s.port m) ∧
    (∀ m, t.lastKey m = if m = n then (emptyRecordDue s n).or (s.lastKey n) else s.lastKey m) ∧
    (∀ m, t.lastPointer m = if m = n then (noButtonsDue s n).or (s.lastPointer n) else s.lastPointer m) ∧
    (∀ m, t.control m =
      if m = n then { s.control n with holder := h, remoteKeys := ⟨0, []⟩, remoteButtons := 0 } else s.control m) ∧
    (∀ m, (t.port m).bus = (s.port m).bus) := by
  have hd := releaseInput_delivers .table n s
  have hr := releaseInput_routerKept .table n s
  have hs := releaseInput_sup .table n s
  have he := fun m => releaseInput_effect .table n m s
  generalize releaseInput .table n s = x at hd hr hs he
  have hport : ∀ m, (writeHolder n h x).port m =
      if m = n then carryCleared (releasedPort s n (s.port n)) else s.port m := by
    intro m
    unfold writeHolder clearCarry
    rw [State.modPort_port]
    split
    · next hm =>
      subst hm
      have := (he m).1
      rw [if_pos rfl] at this
      simp only [State.modControl_port, this]; rfl
    · next hm =>
      have := (he m).1
      rw [if_neg hm] at this
      simpa using this
  refine ⟨hd.trans rfl, hr.trans rfl, hs, hport, fun m => (he m).2.1, fun m => (he m).2.2.1, fun m => ?_, fun m => ?_⟩
  · have := (he m).2.2.2
    simp only [reduceCtorEq, false_and, if_false] at this
    unfold writeHolder clearCarry
    rw [State.modPort_control, State.modControl_control]
    split
    · next hm => subst hm; rw [this]; rfl
    · exact this
  · rw [hport]
    split
    · next hm => subst hm; simp [carryCleared]
    · rfl

/-! ### A grant -/

/-- A grant does what R152 says, and nothing else. -/
theorem grantTo_made (n : Comp) (k : LinkId) (c : HolderCause) (s : State) : grantMade n k c s (grantTo n k c s) := by
  let s1 := s.modControl n fun r => { r with claims := dropClaims k r.claims }
  obtain ⟨hd, hr, hsup, hport, hkey, hptr, hctl, hbus⟩ := heldBy_effect n (.link k) s1
  generalize hw : writeHolder n (.link k) (releaseInput .table n s1) = w at hd hr hsup hport hkey hptr hctl hbus
  have hd' : Delivers s w := Delivers.trans (b := s1) (show Delivers s s1 from rfl) hd
  have e1 : emptyRecordDue s1 n = emptyRecordDue s n := rfl
  have e2 : noButtonsDue s1 n = noButtonsDue s n := rfl
  have hrec : ∀ m, isRecipient w m = true → isRecipient s m = true := by
    intro m h
    refine isRecipient_mono (s := w) (by rw [hd'.focus]) hd'.blank.symm hd'.comps.symm (by rw [hr]; rfl)
      (fun j => (hbus j).symm) (fun j hj => ?_) m h
    rw [hctl] at hj
    split at hj
    · simp at hj
    · next hne =>
      have : s1.control j = s.control j := by simp [s1, State.modControl_control, hne]
      rw [← this]; exact hj
  have hlinkRec : ∀ j, linkIsRecipient w j = linkIsRecipient s j :=
    linkIsRecipient_congr hd'.focus hd'.blank fun j => by unfold State.link; rw [hd'.links]
  have hre : rederive s w = releaseLeavers s w := by
    unfold rederive
    rw [someoneJoined_false hrec fun j h => by rw [← hlinkRec j]; exact h]
    rfl
  have hl := releaseLeavers_effect s w
  rw [← hre] at hl
  have hgone : ∀ j, linkGone s w j = false := by
    intro j; unfold linkGone; rw [hlinkRec j]; cases linkIsRecipient s j <;> simp
  obtain ⟨due1, due2⟩ := released_nothing_due (s := s) (t := w) (n := n) (hbus n)
    (by rw [hport, if_pos rfl]; simp [carryCleared, releasedPort, s1]; cases emptyRecordDue s1 n <;> cases noButtonsDue s1 n <;> simp)
    (by rw [hkey, if_pos rfl]; rfl) (by rw [hptr, if_pos rfl]; rfl)
  generalize hy : rederive s w = y at hl
  have hyport : ∀ m, y.port m = if isRecipient s m && !isRecipient w m then releasedPort w m (w.port m) else w.port m :=
    fun m => (hl.letGo m).1
  have hyn : y.port n = carryCleared (releasedPort s n (s.port n)) := by
    rw [hyport, hport, if_pos rfl]
    unfold releasedPort at *
    rw [due1, due2]
    simp only [Option.elim_none, ite_self]
    rfl
  have hycn : y.control n = w.control n := by
    have := hl.touches n
    unfold releaseTouches at this
    simpa [due1, due2] using this
  have hsame : ∀ m, m ≠ n → w.port m = s.port m ∧ w.lastKey m = s.lastKey m ∧ w.lastPointer m = s.lastPointer m ∧
      w.control m = s.control m := by
    intro m hm
    refine ⟨?_, ?_, ?_, ?_⟩
    · rw [hport, if_neg hm]; rfl
    · rw [hkey, if_neg hm]; rfl
    · rw [hptr, if_neg hm]; rfl
    · rw [hctl, if_neg hm]; simp [s1, State.modControl_control, hm]
  have hend : endCaptureOn n y = { y with pointer :=
      { y.pointer with capture := y.pointer.capture && !(y.focus.target == .loc n) } } := by
    unfold endCaptureOn
    by_cases hf : y.focus.target = .loc n
    · rw [if_pos hf]
      unfold clearCapture
      by_cases hc : y.pointer.capture = true
      · rw [if_pos hc]
        simp only [hf]
        unfold clearCarry
        rw [modPort_self]
        · simp [State.modPointer]
        · rw [State.modPointer_port, hyn]; rfl
      · rw [if_neg hc]
        have : y.pointer.capture = false := by simpa using hc
        rw [this, Bool.false_and, ← this]
    · rw [if_neg hf]
      have : (y.focus.target == .loc n) = false := by simpa using hf
      rw [this, Bool.not_false, Bool.and_true]
  have hyf : Releases s y := (hd'.toReleases).trans hl.releases
  have hgt : grantTo n k c s = notify .share (holderNotice n .desk (.link k) c (y.control n).claims)
      (sendFrame k .grant (endCaptureOn n y)) := by
    have hy' : rederive s (writeHolder n (.link k) (releaseInput .table n s1)) = y := by rw [hw, hy]
    unfold grantTo
    simp only [s1] at hy'
    simp only [hy']
    congr 2
    rw [hend]; rfl
  rw [hgt, hend]
  have hrecT : ∀ m, isRecipient y m = isRecipient w m := hl.recipients
  have hgo : ∀ m, m ≠ n → computerLetGo (isRecipient s m && !isRecipient y m) s y (s.port m) m ∧
      releaseTouches (isRecipient s m && !isRecipient y m) s y m := by
    intro m hm
    obtain ⟨g1, g2, g3, g4⟩ := hsame m hm
    have e1 := emptyRecordDue_congr (s := s) (t := w) (n := m) (by rw [g1]) (by rw [g1]) g2
    have e2 := noButtonsDue_congr (s := s) (t := w) (n := m) (by rw [g1]) g3
    have a := hl.letGo m
    have b := hl.touches m
    rw [hrecT]
    exact ⟨by simpa only [computerLetGo, releasedPort, e1, e2, g1, g2, g3] using a,
      by simpa only [releaseTouches, e1, e2, g4] using b⟩
  have hkeyn : y.lastKey n = (emptyRecordDue s n).or (s.lastKey n) := by
    have := (hl.letGo n).2.1
    rw [due1, Option.none_or, ite_self, hkey, if_pos rfl] at this
    exact this
  have hptrn : y.lastPointer n = (noButtonsDue s n).or (s.lastPointer n) := by
    have := (hl.letGo n).2.2
    rw [due2, Option.none_or, ite_self, hptr, if_pos rfl] at this
    exact this
  have hlk : y.router.linkKeys = s.router.linkKeys := by
    refine vector_ext fun j => ?_
    have := hl.keys j
    rw [hgone j, if_neg (by simp)] at this
    exact this.trans (by unfold State.linkKeys; rw [hr]; rfl)
  have hlp : y.router.linkPointer = s.router.linkPointer := by
    refine vector_ext fun j => ?_
    have := hl.pointer j
    rw [hgone j, if_neg (by simp)] at this
    exact this.trans (by unfold State.linkPointer; rw [hr]; rfl)
  have hylinks : y.links = s.links := by
    refine vector_ext fun j => ?_
    have := hl.link j
    rw [hgone j, if_neg (by simp)] at this
    exact this.trans (by unfold State.link; rw [hd'.links])
  have hys : y.sup = toldOf (fun m => m != n && isRecipient s m && !isRecipient y m) s (toldRelease s n s.sup) := by
    rw [hl.sup, hsup]
    have e3 : toldRelease s1 n s1.sup = toldRelease s n s.sup := rfl
    rw [e3]
    unfold toldOf
    congr 1
    funext p m
    simp only [hrecT]
    by_cases hm : m = n
    · subst hm
      have : toldRelease w m p = p := by unfold toldRelease; rw [due1, due2]; rfl
      simp [this]
    · obtain ⟨g1, g2, g3, -⟩ := hsame m hm
      rw [toldRelease_congr g1 g2 g3]
      simp [hm]
  have hmask : y.router.mask = s.router.mask := by rw [hl.router, hr]; rfl
  have hbc : y.router.broadcast = s.router.broadcast := by rw [hl.router, hr]; rfl
  have hcn : y.control n = { holder := .link k, claims := (s.control n).claims.filter fun d => d.link != k, lastDesk := (s.control n).lastDesk, remoteKeys := ⟨0, []⟩, remoteButtons := 0 } := by
    rw [hycn, hctl, if_pos rfl]
    simp [s1, dropClaims]
  refine ⟨hcn, ⟨hyn, hkeyn, hptrn, hgo, ?_, fun _ => hmask, hbc, hlk, hlp⟩, ?_, ?_, ?_⟩
  · rintro ⟨m, h1, h2⟩
    rw [h1] at h2; simp at h2
  · have : y.link k = s.link k := by unfold State.link; rw [hylinks]
    rw [← this]; simp [notify, sendFrame_link]; rfl
  · intro j hj
    have : y.link j = s.link j := by unfold State.link; rw [hylinks]
    rw [← this]; simp [notify, sendFrame_link, hj]; rfl
  · have hfin : ∀ v : State, v = y → notify .share (holderNotice n .desk (.link k) c (y.control n).claims)
        (sendFrame k .grant { v with pointer :=
          { v.pointer with capture := v.pointer.capture && !(v.focus.target == .loc n) } }) =
        { s with
          controls := y.controls, ports := y.ports, router := y.router
          links := upd y.links k (enqueueFrame .grant)
          pointer := { s.pointer with capture := s.pointer.capture && !(s.focus.target == .loc n) }
          sup := queueNotice .share (holderNotice n .desk (.link k) c (y.control n).claims) y.sup } := by
      intro v hv
      rw [hv.trans hyf]; rfl
    have hu := hfin y rfl
    generalize hg : notify .share (holderNotice n .desk (.link k) c (y.control n).claims)
        (sendFrame k .grant { y with pointer :=
          { y.pointer with capture := y.pointer.capture && !(y.focus.target == .loc n) } }) = u at hu ⊢
    have hrec' : ∀ m, isRecipient u m = isRecipient y m := by subst hg; exact fun m => rfl
    have hcu : u.control n = y.control n := by subst hg; rfl
    have h1 : u.controls = y.controls := by subst hg; rfl
    have h2 : u.ports = y.ports := by subst hg; rfl
    have h3 : u.router = y.router := by subst hg; rfl
    have h4 : u.links = upd y.links k (enqueueFrame .grant) := by subst hg; rfl
    simp only [hrec', hcu, h1, h2, h3, h4, ← hys]
    exact hu

/-! ### A return -/

theorem maskHeld_heldMasked {s x : State} (hm : x.router.mask = s.router.mask) (hk : x.keyboard = s.keyboard) :
    heldMasked s (maskHeld x) := by
  intro c
  unfold maskHeld KeyState.has
  simp only [State.modRouter_router, hm, hk]
  split
  · simp
  · rw [Bool.eq_iff_iff]
    simp only [List.contains_eq_mem, List.mem_append, List.mem_filter, decide_eq_true_eq, Bool.or_eq_true,
      Bool.not_eq_true', decide_eq_false_iff_not]
    by_cases h : c ∈ s.router.mask.keys <;> simp [h]

theorem foldl_same {α : Type} {f : State → α → State} {s : State} (h : ∀ x, f s x = s) (l : List α) :
    l.foldl f s = s := by
  induction l with
  | nil => rfl
  | cons x l ih => rw [List.foldl_cons, h x]; exact ih

/-- Nobody is released where nobody has left. -/
theorem releaseLeavers_none {old s : State} (hc : ∀ m, isRecipient old m = true → isRecipient s m = true)
    (hl : ∀ k, linkGone old s k = false) : releaseLeavers old s = s := by
  unfold releaseLeavers
  rw [foldl_same (f := releaseIfLeft old), foldl_same]
  · intro k
    exact if_neg (by rw [show (linkIsRecipient old k && !linkIsRecipient s k && (s.link k).viewer == .held) = false from hl k]; simp)
  · intro m
    unfold releaseIfLeft
    cases h : isRecipient old m with
    | true => simp [hc m h]
    | false => simp

/-- The end of a return (R153, step 5). -/
theorem afterReturn_made (n : Comp) (x : State) (hh : (x.control n).holder = .desk) :
    match (x.control n).claims.find? Claim.approved with
    | some d =>
      if (x.comp n).policy = .ask ∨ (x.comp n).policy = .auto then grantMade n d.link .granted x (afterReturn n x)
      else
        afterReturn n x =
          x.modControl n fun r => { r with claims := r.claims.map fun d => { d with approved := false } }
    | none =>
      if (x.comp n).policy = .auto ∧ ∀ d, (x.control n).lastDesk = some d → (x.comp n).quietTime ≤ x.now - d then
        match (x.control n).claims with
        | d :: _ => grantMade n d.link .auto x (afterReturn n x)
        | [] => afterReturn n x = x
      else afterReturn n x = x := by
  have hg : SharePolicy.grants (x.comp n).policy = true ↔ ((x.comp n).policy = .ask ∨ (x.comp n).policy = .auto) := by
    cases (x.comp n).policy <;> simp [SharePolicy.grants]
  unfold afterReturn
  have he : (x.control n).claims.find? (fun c => c.approved) = (x.control n).claims.find? Claim.approved := rfl
  rw [he]
  cases (x.control n).claims.find? Claim.approved with
  | some d =>
    dsimp only
    by_cases h : SharePolicy.grants (x.comp n).policy = true
    · rw [if_pos h, if_pos (hg.1 h)]; exact grantTo_made n d.link .granted x
    · rw [if_neg h, if_neg (fun h' => h (hg.2 h'))]
      unfold autoGrant autoGrantDue
      rw [if_neg]
      simp only [State.modControl_comp]
      cases hp : (x.comp n).policy <;> simp [hp, SharePolicy.grants] at h ⊢
  | none =>
    dsimp only
    unfold autoGrant
    by_cases h : (x.comp n).policy = .auto ∧
        ∀ d, (x.control n).lastDesk = some d → (x.comp n).quietTime ≤ x.now - d
    · rw [if_pos h]
      obtain ⟨h1, h2⟩ := h
      have hq : quietMet x n = true := by
        unfold quietMet
        cases hd : (x.control n).lastDesk with
        | none => rfl
        | some d => simpa using h2 d hd
      cases hc : (x.control n).claims with
      | nil => simp [autoGrantDue, hc]
      | cons d l =>
        have : autoGrantDue x n = true := by simp [autoGrantDue, hc, hh, h1, hq]
        rw [if_pos this]
        exact grantTo_made n d.link .auto x
    · rw [if_neg h, if_neg]
      intro hd
      apply h
      simp only [autoGrantDue, Bool.and_eq_true, beq_iff_eq] at hd
      refine ⟨hd.1.1.2, fun d hd' => ?_⟩
      have := hd.2
      unfold quietMet at this
      rw [hd'] at this
      simpa using this

/-- A return does what R153 says, and nothing else. -/
theorem returnToDesk_made (n : Comp) (k : LinkId) (c : HolderCause) (s : State) :
    controlReturned n k c s (returnToDesk n k c s) := by
  obtain ⟨hd, hr, hsup, hport, hkey, hptr, hctl, hbus⟩ := heldBy_effect n .desk s
  generalize hw : writeHolder n .desk (releaseInput .table n s) = w at hd hr hsup hport hkey hptr hctl hbus
  have hrec : ∀ m, isRecipient s m = true → isRecipient w m = true := by
    intro m h
    refine isRecipient_mono (s := s) (by rw [hd.focus]) hd.blank hd.comps (by rw [hr]) hbus (fun j hj => ?_) m h
    rw [hctl]
    split
    · rfl
    · exact hj
  have hlinkRec : ∀ j, linkIsRecipient w j = linkIsRecipient s j :=
    linkIsRecipient_congr hd.focus hd.blank fun j => by unfold State.link; rw [hd.links]
  have hre : rederive s w = if someoneJoined s w then maskHeld w else w := by
    unfold rederive
    rw [releaseLeavers_none hrec fun j => by unfold linkGone; rw [hlinkRec j]; cases linkIsRecipient s j <;> rfl]
  have hjoin := someoneJoined_comps (old := s) (s := w) hlinkRec
  generalize hy : rederive s w = y at hre
  let x := notify .share (holderNotice n (.link k) .desk c (s.control n).claims) y
  have hyw : y = { w with router := { w.router with mask := y.router.mask } } := by
    rw [hre]; split <;> rfl
  have hyn : y.control n = { s.control n with holder := .desk, remoteKeys := ⟨0, []⟩, remoteButtons := 0 } := by
    have : y.control n = w.control n := by rw [hyw]; rfl
    rw [this, hctl, if_pos rfl]
  have hrecX : ∀ m, isRecipient x m = isRecipient w m := by
    intro m
    have : isRecipient y m = isRecipient w m := by rw [hyw]; rfl
    exact this
  have hx : returnToDesk n k c s = afterReturn n x := by
    unfold returnToDesk
    simp only [hw, hy]
    rw [hyn]
  have hxn : x.control n = { s.control n with holder := .desk, remoteKeys := ⟨0, []⟩, remoteButtons := 0 } := hyn
  have hyr : y.router = { w.router with mask := y.router.mask } := by rw [hyw]
  have hlast : y.router.lastKey = w.router.lastKey ∧ y.router.lastPointer = w.router.lastPointer := by
    rw [hyr]; exact ⟨rfl, rfl⟩
  have hports : y.ports = w.ports := by rw [hyw]
  have hcontrols : y.controls = w.controls := by rw [hyw]
  refine ⟨x, hxn, ⟨?_, ?_, ?_, fun m hm => ⟨?_, ?_⟩, ?_, ?_, ?_, ?_, ?_⟩, ?_, ?_⟩
  · show y.port n = _
    unfold State.port at hport ⊢
    rw [hports, hport, if_pos rfl]
  · show y.lastKey n = _
    unfold State.lastKey at hkey ⊢
    rw [hlast.1, hkey, if_pos rfl]
  · show y.lastPointer n = _
    unfold State.lastPointer at hptr ⊢
    rw [hlast.2, hptr, if_pos rfl]
  · have e1 : y.port m = s.port m := by
      unfold State.port at hport ⊢; rw [hports, hport, if_neg hm]
    have e2 : y.lastKey m = s.lastKey m := by
      unfold State.lastKey at hkey ⊢; rw [hlast.1, hkey, if_neg hm]
    have e3 : y.lastPointer m = s.lastPointer m := by
      unfold State.lastPointer at hptr ⊢; rw [hlast.2, hptr, if_neg hm]
    unfold computerLetGo
    cases isRecipient x m <;> exact ⟨e1, e2, e3⟩
  · have e : x.control m = s.control m := by
      show y.control m = _
      unfold State.control at hctl ⊢; rw [hcontrols, hctl, if_neg hm]
    unfold releaseTouches
    cases isRecipient x m <;> simpa using e
  · rintro ⟨m, h1, h2⟩
    rw [hrecX] at h1
    have : someoneJoined s w = true := hjoin.2 ⟨m, h1, h2⟩
    rw [if_pos this] at hre
    have hm : heldMasked s (maskHeld w) := maskHeld_heldMasked (by rw [hr]) hd.keyboard
    rw [← hre] at hm
    exact hm
  · intro h
    have : ¬ someoneJoined s w = true := by
      intro hj
      obtain ⟨m, h1, h2⟩ := hjoin.1 hj
      rw [h m (by rw [hrecX]; exact h1)] at h2
      simp at h2
    rw [if_neg this] at hre
    show y.router.mask = _
    rw [hre, hr]
  · show y.router.broadcast = _
    rw [hyr, hr]
  · show y.router.linkKeys = _
    rw [hyr, hr]
  · show y.router.linkPointer = _
    rw [hyr, hr]
  · have hfin : ∀ v : State, v = y → notify .share (holderNotice n (.link k) .desk c (s.control n).claims) v =
        { s with
          controls := y.controls, ports := y.ports, router := y.router
          sup := queueNotice .share (holderNotice n (.link k) .desk c (s.control n).claims) y.sup } := by
      intro v hv
      rw [hv, hyw, show w = _ from hd]; rfl
    have hs : y.sup = toldRelease s n s.sup := by rw [hyw]; exact hsup
    have := hfin y rfl
    rw [hs] at this
    exact this
  · have h := afterReturn_made n x (by rw [hxn])
    have hc : x.comp n = s.comp n := by
      have : y.comps = s.comps := by rw [hyw]; exact hd.comps
      show pick y.comps n = _
      rw [this]; rfl
    have hn : x.now = s.now := by
      show y.now = _
      rw [hyw]; exact hd.now
    rw [← hx, hxn, hc, hn] at h
    exact h

/-! ### The end of control on a link -/

theorem returnsInTurn_made (k : LinkId) (c : HolderCause) (l : List Comp) (s : State) :
    returnsInTurn k c l s (l.foldl (returnIfHeld k c) s) := by
  induction l generalizing s with
  | nil => rfl
  | cons n l ih =>
    refine ⟨returnIfHeld k c s n, ?_, ih _⟩
    unfold returnIfHeld
    split
    · exact returnToDesk_made n k c s
    · rfl

theorem filter_keeps {k : LinkId} {cs : List Claim} (h : cs.any (fun d => d.link == k) = false) :
    cs.filter (fun d => d.link != k) = cs := by
  rw [List.filter_eq_self]
  intro d hd
  have := List.any_eq_false.1 h d hd
  simpa using this

/-- The removal of the claims of a link from the lists of some computers. -/
theorem removeClaims_effect (k : LinkId) (l : List Comp) (hl : l.Nodup) (s : State) :
    (∀ n, (l.foldl (removeClaim k) s).control n =
      if n ∈ l then { s.control n with claims := (s.control n).claims.filter fun d => d.link != k } else s.control n) ∧
    l.foldl (removeClaim k) s = { s with
      controls := (l.foldl (removeClaim k) s).controls
      sup := l.foldl
        (fun p n =>
          if (s.control n).claims.any (fun d => d.link == k) then
            queueNotice .share (claimNotice (compByte n) k .removed ((s.control n).claims.filter fun d => d.link != k)) p
          else p) s.sup } := by
  induction l generalizing s with
  | nil => exact ⟨fun n => by simp, rfl⟩
  | cons x l ih =>
    obtain ⟨hx, hl'⟩ := List.nodup_cons.1 hl
    have step : ∀ n, (removeClaim k s x).control n =
        if n = x then { s.control n with claims := (s.control n).claims.filter fun d => d.link != k } else s.control n := by
      intro n
      unfold removeClaim
      by_cases hc : (s.control x).claims.any (fun d => d.link == k) = true
      · rw [if_pos hc]
        by_cases hn : n = x
        · subst hn; simp [notify, dropClaims]
        · simp [notify, State.modControl_control, hn]
      · rw [if_neg hc]
        by_cases hn : n = x
        · subst hn; rw [if_pos rfl, filter_keeps (by simpa using hc)]
        · rw [if_neg hn]
    have frame : removeClaim k s x = { s with
        controls := (removeClaim k s x).controls
        sup := if (s.control x).claims.any (fun d => d.link == k) then
          queueNotice .share (claimNotice (compByte x) k .removed ((s.control x).claims.filter fun d => d.link != k)) s.sup
          else s.sup } := by
      unfold removeClaim
      split
      · simp [notify, State.modSup, dropClaims]
      · rfl
    obtain ⟨h1, h2⟩ := ih hl' (removeClaim k s x)
    rw [List.foldl_cons]
    refine ⟨fun n => ?_, ?_⟩
    · rw [h1, step]
      by_cases hn : n = x
      · subst hn; simp [hx]
      · simp [hn]
    · rw [h2]
      generalize hq : removeClaim k s x = q at step frame
      have hf : ∀ n ∈ l, q.control n = s.control n := by
        intro n hn
        rw [step, if_neg (fun e : n = x => hx (e ▸ hn))]
      have he : l.foldl (fun p n =>
            if (q.control n).claims.any (fun d => d.link == k) then
              queueNotice .share (claimNotice (compByte n) k .removed ((q.control n).claims.filter fun d => d.link != k)) p
            else p) q.sup =
          l.foldl (fun p n =>
            if (s.control n).claims.any (fun d => d.link == k) then
              queueNotice .share (claimNotice (compByte n) k .removed ((s.control n).claims.filter fun d => d.link != k)) p
            else p) q.sup :=
        List.foldl_ext _ _ _ fun p n hn => by rw [hf n hn]
      rw [he]
      generalize (l.foldl (removeClaim k) q).controls = cs
      rw [List.foldl_cons, frame]

theorem removeClaims_dropped (k : LinkId) (s : State) : claimsDropped k s (allComps.foldl (removeClaim k) s) := by
  obtain ⟨h1, h2⟩ := removeClaims_effect k allComps (by decide) s
  exact ⟨fun n => by rw [h1, if_pos (mem_allComps n)], h2⟩

/-- The end of control on a link does what R160 says, and nothing else. -/
theorem endControl_ended (k : LinkId) (c : HolderCause) (s : State) : controlEnded k c s (endControl k c s) :=
  ⟨_, removeClaims_dropped k s, returnsInTurn_made k c allComps _⟩

/-! ### A change of the viewer control state -/

/-- A change of the viewer control state does what R56 and R161 say, and nothing else. -/
theorem setViewer_moved (k : LinkId) (v : ViewerControl) (c : ViewerCause) (s : State) (hv : (s.link k).viewer ≠ v) :
    viewerMoved k v c s (setViewer k v c s) := by
  let s1 := s.modLink k fun l => { l with viewer := v }
  let s2 := if v = .held then setLinkPointer k none (setLinkKeys k KeyState.empty s1) else s1
  let s3 := if s2.focus.target = .rem k ∧ v ≠ .held then clearCapture s2 else s2
  have e2 : s2 = { s1 with router := s2.router } := by simp only [s2]; split <;> rfl
  have e3 : s3 = { s with
      links := s1.links, router := s2.router
      pointer := { s.pointer with capture := s.pointer.capture && !(!(v == .held) && s.focus.target == .rem k) } } := by
    have hf2 : s2.focus = s.focus := by rw [e2]; rfl
    have hp2 : s2.pointer = s.pointer := by rw [e2]; rfl
    have hb : s2 = { s with links := s1.links, router := s2.router } := by rw [e2]; rfl
    simp only [s3]
    clear_value s2 s1
    by_cases h : s2.focus.target = .rem k ∧ v ≠ .held
    · rw [if_pos h]
      obtain ⟨h1, h2⟩ := h
      have h1' : s.focus.target = .rem k := by rw [← hf2]; exact h1
      have g1 : (s.focus.target == .rem k) = true := by rw [h1']; simp
      have g2 : (v == .held) = false := by simpa using h2
      rw [g1, g2]
      unfold clearCapture
      by_cases hc : s2.pointer.capture = true
      · rw [if_pos hc]
        simp only [h1]
        rw [hb]; simp [State.modPointer]
      · rw [if_neg hc]
        have : s.pointer.capture = false := by rw [← hp2]; simpa using hc
        rw [this, Bool.false_and, ← this]
        exact hb
    · rw [if_neg h]
      have : (!(v == .held) && s.focus.target == .rem k) = false := by
        rw [← hf2]
        by_cases g : v = .held
        · subst g; rfl
        · have : ¬ s2.focus.target = .rem k := fun hh => h ⟨hh, g⟩
          have : (s2.focus.target == .rem k) = false := by simpa using this
          rw [this, Bool.and_false]
      rw [this, Bool.not_false, Bool.and_true]
      exact hb
  have hset : setViewer k v c s = notify .share (viewerNotice k v c) (rederive s s3) := if_neg hv
  have hlink : ∀ j, s3.link j = if j = k then { s.link k with viewer := v } else s.link j := by
    intro j
    have : s3.link j = s1.link j := by rw [e3]; rfl
    rw [this]
    simp only [s1, State.modLink_link]
    by_cases h : j = k
    · subst h; simp
    · simp [h]
  have hkeys : ∀ j, s3.linkKeys j = if j = k ∧ v = .held then ⟨0, []⟩ else s.linkKeys j := by
    intro j
    have : s3.linkKeys j = s2.linkKeys j := by rw [e3]; rfl
    rw [this]
    simp only [s2]
    split
    · next h =>
      simp only [setLinkPointer_linkKeys, setLinkKeys_linkKeys, h, and_true]
      rfl
    · next h => simp only [h, and_false, if_false]; rfl
  have hptr : ∀ j, s3.linkPointer j = if j = k ∧ v = .held then none else s.linkPointer j := by
    intro j
    have : s3.linkPointer j = s2.linkPointer j := by rw [e3]; rfl
    rw [this]
    simp only [s2]
    split
    · next h =>
      simp only [setLinkPointer_linkPointer, setLinkKeys_linkPointer, h, and_true]
      rfl
    · next h => simp only [h, and_false, if_false]; rfl
  have hr2 : s2.router = { s.router with linkKeys := s2.router.linkKeys, linkPointer := s2.router.linkPointer } := by
    simp only [s2]; split <;> rfl
  clear_value s3 s2 s1
  have hr3 : s3.router = { s.router with linkKeys := s3.router.linkKeys, linkPointer := s3.router.linkPointer } := by
    have : s3.router = s2.router := by rw [e3]
    rw [this]; exact hr2
  have hfocus : s3.focus = s.focus := by rw [e3]
  have hblank : s3.blank = s.blank := by rw [e3]
  have hrec : ∀ m, isRecipient s3 m = isRecipient s m :=
    isRecipient_congr hfocus hblank (by rw [e3]) (by rw [hr3]) (fun j => by rw [e3]; rfl) (fun j => by rw [e3]; rfl)
  have hother : ∀ j, j ≠ k → linkIsRecipient s3 j = linkIsRecipient s j := by
    intro j hj
    unfold linkIsRecipient blanked
    rw [hfocus, hblank, hlink, if_neg hj]
  have hself : linkIsRecipient s3 k = (!blanked s && s.focus.target == .rem k && v == .held) := by
    unfold linkIsRecipient blanked
    rw [hfocus, hblank, hlink, if_pos rfl]
  have hgone : ∀ j, linkGone s s3 j = false := by
    intro j
    unfold linkGone
    by_cases hj : j = k
    · subst hj
      rw [hlink, if_pos rfl]
      by_cases g : v = .held
      · have : ((s.link j).viewer == .held) = false := by
          have : (s.link j).viewer ≠ .held := by rw [← g]; exact hv
          simpa using this
        unfold linkIsRecipient
        rw [this]; simp
      · have : (v == ViewerControl.held) = false := by simpa using g
        dsimp only
        rw [this, Bool.and_false]
    · rw [hother j hj]; cases linkIsRecipient s j <;> rfl
  have hre : rederive s s3 = if someoneJoined s s3 then maskHeld s3 else s3 := by
    unfold rederive
    rw [releaseLeavers_none (fun m h => by rw [hrec]; exact h) hgone]
  have hj : someoneJoined s s3 = (v == .held && s.focus.target == .rem k && s.blank.state == .clear) := by
    have hbl : (!blanked s) = (s.blank.state == .clear) := by
      unfold blanked; cases s.blank.state <;> rfl
    have hk0 : v = .held → linkIsRecipient s k = false := by
      intro g
      have : ((s.link k).viewer == .held) = false := by
        have : (s.link k).viewer ≠ .held := by rw [← g]; exact hv
        simpa using this
      unfold linkIsRecipient; rw [this, Bool.and_false]
    cases hz : (v == ViewerControl.held && s.focus.target == .rem k && s.blank.state == .clear) with
    | true =>
      simp only [Bool.and_eq_true] at hz
      obtain ⟨⟨z1, z2⟩, z3⟩ := hz
      unfold someoneJoined
      rw [Bool.or_eq_true, List.any_eq_true, List.any_eq_true]
      refine .inr ⟨k, mem_allLinks k, ?_⟩
      rw [hself, hbl, z1, z2, z3, hk0 (by simpa using z1)]; rfl
    | false =>
      refine someoneJoined_false (fun m h => by rw [hrec] at h; exact h) fun j h => ?_
      by_cases e : j = k
      · subst e
        rw [hself, hbl] at h
        simp only [Bool.and_eq_true] at h
        rw [h.1.1, h.1.2, h.2] at hz
        simp at hz
      · rw [hother j e] at h; exact h
  rw [hj] at hre
  rw [hset]
  generalize hx : rederive s s3 = x at hre
  have hxw : x = { s3 with router := { s3.router with mask := x.router.mask } } := by
    rw [hre]; split <;> rfl
  have hxr : x.router = { s3.router with mask := x.router.mask } := by rw [hxw]
  have hxl : x.links = s3.links := by rw [hxw]
  refine ⟨?_, fun j hj => ?_, fun h => ?_, fun h => ?_, ?_, ?_, fun j hj => ⟨?_, ?_⟩, ?_⟩
  · show pick x.links k = _
    rw [hxl]; exact (hlink k).trans (if_pos rfl)
  · show pick x.links j = _
    rw [hxl]; exact (hlink j).trans (if_neg hj)
  · rw [if_pos h] at hre
    have hm : heldMasked s (maskHeld s3) := maskHeld_heldMasked (by rw [hr3]) (by rw [e3])
    rw [← hre] at hm
    exact hm
  · rw [if_neg (by rw [h]; simp)] at hre
    show x.router.mask = _
    rw [hre, hr3]
  · show pick x.router.linkKeys k = _
    rw [hxr]
    refine (hkeys k).trans ?_
    by_cases g : v = .held <;> simp [g]
  · show pick x.router.linkPointer k = _
    rw [hxr]
    refine (hptr k).trans ?_
    by_cases g : v = .held <;> simp [g]
  · show pick x.router.linkKeys j = _
    rw [hxr]; exact (hkeys j).trans (if_neg fun h => hj h.1)
  · show pick x.router.linkPointer j = _
    rw [hxr]; exact (hptr j).trans (if_neg fun h => hj h.1)
  · have hrx : x.router = { s.router with
        mask := x.router.mask, linkKeys := x.router.linkKeys, linkPointer := x.router.linkPointer } := by
      rw [hxr, hr3]
    have hxs : x = { s with
        links := x.links, router := x.router
        pointer := { s.pointer with
          capture := s.pointer.capture && !(!(v == .held) && s.focus.target == .rem k) } } := by
      rw [hxw, e3]
    have hfin : ∀ y : State, y = x → notify .share (viewerNotice k v c) y =
        { s with
          links := x.links
          router := { s.router with
            mask := x.router.mask, linkKeys := x.router.linkKeys, linkPointer := x.router.linkPointer }
          pointer := { s.pointer with
            capture := s.pointer.capture && !(!(v == .held) && s.focus.target == .rem k) }
          sup := queueNotice .share (viewerNotice k v c) s.sup } := by
      intro y hy
      rw [hy.trans hxs, ← hrx]; rfl
    exact hfin x rfl

end Sys2Proof.Machine
end

