-- ==== Sys2Proof/Laws/Requests.lean ====
section
/-!
SUPPORT. How a request runs, once for all requests: with its turn its own rule judges it and its reply is placed; and
otherwise it waits or is turned away. What the transmitter and the request queue leave alone.
-/

namespace Sys2Proof.Machine

open Sys2Proof

/-! ### Running a request -/

/-- A request whose turn has come runs whole by its own rule (R189). -/
theorem runRequest_turn (r : Request) (judge : List Byte → State → Judged) (s : State) (h : takesTurn r s) :
    runRequest r judge s =
      (judge r.body (begun r s)).state.modSup (finishRequest
        ⟨replyKind r.kind, r.tag, (judge r.body (begun r s)).code.code :: (judge r.body (begun r s)).body⟩) := by
  obtain ⟨hw, hq⟩ := h
  have ht : hasTurn r (begun r s).sup = true := by
    rcases hq with hq | hq
    · simp [hasTurn, begun, State.modSup, enterQueue, hq, hw]
    · have hne : s.sup.requests ≠ [] := by intro e; simp [e] at hq
      simp [hasTurn, begun, State.modSup, enterQueue, hne, hw, hq]
  unfold runRequest
  exact if_pos ht

/-- What a request command answers once its own rule is known. -/
theorem exec_request (r : Request) (judge : List Byte → State → Judged) (s : State) (h : takesTurn r s)
    (c : ResultCode) (f : List Byte) (u : State) (hj : judge r.body (begun r s) = ⟨c, f, u⟩) :
    done (runRequest r judge s) = .next (replied r c f u) := by
  rw [runRequest_turn r judge s h, hj]; rfl

/-- A request that has not its turn is received behind the others (R188). -/
theorem runRequest_waits (r : Request) (judge : List Byte → State → Judged) (s : State) (h : ¬ takesTurn r s) :
    runRequest r judge s = s.modSup (receiveRequest r) := by
  have ht : ¬ hasTurn r (s.modSup (enterQueue r)).sup = true := by
    intro e
    apply h
    simp only [hasTurn, Bool.and_eq_true, beq_iff_eq, Option.isNone_iff_eq_none] at e
    by_cases hq : s.sup.requests = []
    · exact ⟨by simpa [State.modSup, enterQueue, hq] using e.1, Or.inl hq⟩
    · simp only [State.modSup, enterQueue, if_neg hq] at e
      exact ⟨e.1, Or.inr e.2⟩
  unfold runRequest
  exact if_neg ht

/-! ### The queues of the supervisor link -/

/-- All that a notice can do (R191, R192). -/
theorem queueNotice_cases (c : NoticeClass) (f : SupFrame) (p : Supervisor) :
    (p.classes.getLsbD c.bit = false ∧ queueNotice c f p = p) ∨
      (p.classes.getLsbD c.bit = true ∧ p.notices.length < 16 ∧
        queueNotice c f p = { p with notices := p.notices ++ [f] }) ∨
      (p.classes.getLsbD c.bit = true ∧ 16 ≤ p.notices.length ∧
        queueNotice c f p = { p with lost := min (p.lost + 1) 255 }) := by
  unfold queueNotice
  by_cases hc : p.classes.getLsbD c.bit = true
  · by_cases hn : p.notices.length < 16
    · exact Or.inr (Or.inl ⟨hc, hn, by simp [hc, hn, Config.noticeQueue]⟩)
    · exact Or.inr (Or.inr ⟨hc, by omega, by simp [hc, hn, Config.noticeQueue, Config.lostMax]⟩)
  · exact Or.inl ⟨by simpa using hc, by simp [hc]⟩

/-- All that a valid frame received as a request can do (R188). -/
theorem receiveRequest_cases (r : Request) (p : Supervisor) :
    (p.requests.length < 4 ∧ receiveRequest r p = { p with requests := p.requests ++ [r] }) ∨
      (4 ≤ p.requests.length ∧ p.replies.length < 8 ∧
        receiveRequest r p = { p with replies := p.replies ++ [⟨replyKind r.kind, r.tag, [2]⟩] }) ∨
      (4 ≤ p.requests.length ∧ 8 ≤ p.replies.length ∧ receiveRequest r p = { p with overruns := count p.overruns }) := by
  unfold receiveRequest
  by_cases hq : p.requests.length < 4
  · exact Or.inl ⟨hq, by simp [hq, Config.requestQueue]⟩
  · by_cases hr : p.replies.length < 8
    · exact Or.inr (Or.inl ⟨by omega, hr, by simp [hq, hr, Config.requestQueue, Config.replyQueue, ResultCode.code]⟩)
    · exact Or.inr (Or.inr ⟨by omega, by omega, by simp [hq, hr, Config.requestQueue, Config.replyQueue]⟩)

/-- All that the end of a run can do (R189). -/
theorem finishRequest_cases (f : SupFrame) (p : Supervisor) :
    (p.replies.length < 8 ∧ finishRequest f p = { p with replies := p.replies ++ [f], requests := p.requests.tail }) ∨
      (8 ≤ p.replies.length ∧ finishRequest f p = { p with waiting := some f }) := by
  unfold finishRequest
  by_cases hr : p.replies.length < 8
  · exact Or.inl ⟨hr, by simp [hr, Config.replyQueue]⟩
  · exact Or.inr ⟨by omega, by simp [hr, Config.replyQueue]⟩

/-- A busy transmitter takes nothing (R190). -/
theorem transmitNext_busy (p : Supervisor) (f : SupFrame) (h : p.sending = some f) : transmitNext p = p := by
  simp [transmitNext, h]

/-- A free transmitter with nothing waiting takes nothing (R190). -/
theorem transmitNext_idle (p : Supervisor) (hr : p.replies = []) (hn : p.notices = []) : transmitNext p = p := by
  simp [transmitNext, hr, hn]

/-- All that a free transmitter can do (R190): it takes the oldest reply, or else the oldest notice. -/
theorem transmitNext_cases (p : Supervisor) :
    transmitNext p = p ∨
      (∃ r rest, p.replies = r :: rest ∧ transmitNext p = placeWaiting { p with sending := some r, replies := rest }) ∨
      ∃ f rest, p.replies = [] ∧ p.notices = f :: rest ∧ transmitNext p = { p with sending := some f, notices := rest } := by
  unfold transmitNext
  split
  · exact Or.inl rfl
  · split
    · rename_i r rest hr; exact Or.inr (Or.inl ⟨r, rest, hr, rfl⟩)
    · rename_i hr
      split
      · rename_i f rest hn; exact Or.inr (Or.inr ⟨f, rest, hr, hn, rfl⟩)
      · exact Or.inl rfl


/-! ### begun: nothing but the supervisor link -/

@[simp] theorem begun_now (r : Request) (s : State) : (begun r s).now = s.now := rfl
@[simp] theorem begun_comps (r : Request) (s : State) : (begun r s).comps = s.comps := rfl
@[simp] theorem begun_heads (r : Request) (s : State) : (begun r s).heads = s.heads := rfl
@[simp] theorem begun_layout (r : Request) (s : State) : (begun r s).layout = s.layout := rfl
@[simp] theorem begun_desk (r : Request) (s : State) : (begun r s).desk = s.desk := rfl
@[simp] theorem begun_lock (r : Request) (s : State) : (begun r s).lock = s.lock := rfl
@[simp] theorem begun_pointer (r : Request) (s : State) : (begun r s).pointer = s.pointer := rfl
@[simp] theorem begun_focus (r : Request) (s : State) : (begun r s).focus = s.focus := rfl
@[simp] theorem begun_mouse (r : Request) (s : State) : (begun r s).mouse = s.mouse := rfl
@[simp] theorem begun_keyboard (r : Request) (s : State) : (begun r s).keyboard = s.keyboard := rfl
@[simp] theorem begun_router (r : Request) (s : State) : (begun r s).router = s.router := rfl
@[simp] theorem begun_ports (r : Request) (s : State) : (begun r s).ports = s.ports := rfl
@[simp] theorem begun_hotkeys (r : Request) (s : State) : (begun r s).hotkeys = s.hotkeys := rfl
@[simp] theorem begun_matcher (r : Request) (s : State) : (begun r s).matcher = s.matcher := rfl
@[simp] theorem begun_lineTriggers (r : Request) (s : State) : (begun r s).lineTriggers = s.lineTriggers := rfl
@[simp] theorem begun_inputs (r : Request) (s : State) : (begun r s).inputs = s.inputs := rfl
@[simp] theorem begun_outputs (r : Request) (s : State) : (begun r s).outputs = s.outputs := rfl
@[simp] theorem begun_crosspointStart (r : Request) (s : State) : (begun r s).crosspointStart = s.crosspointStart := rfl
@[simp] theorem begun_scenes (r : Request) (s : State) : (begun r s).scenes = s.scenes := rfl
@[simp] theorem begun_blank (r : Request) (s : State) : (begun r s).blank = s.blank := rfl
@[simp] theorem begun_links (r : Request) (s : State) : (begun r s).links = s.links := rfl
@[simp] theorem begun_controls (r : Request) (s : State) : (begun r s).controls = s.controls := rfl
@[simp] theorem begun_wake (r : Request) (s : State) : (begun r s).wake = s.wake := rfl
@[simp] theorem begun_lines (r : Request) (s : State) : (begun r s).lines = s.lines := rfl
@[simp] theorem begun_pending (r : Request) (s : State) : (begun r s).pending = s.pending := rfl
@[simp] theorem begun_comp (r : Request) (s : State) (n : Comp) : (begun r s).comp n = s.comp n := rfl
@[simp] theorem begun_headMap (r : Request) (s : State) (h : Head) : (begun r s).headMap h = s.headMap h := rfl
@[simp] theorem begun_port (r : Request) (s : State) (n : Comp) : (begun r s).port n = s.port n := rfl
@[simp] theorem begun_hotkey (r : Request) (s : State) (i : Fin 32) : (begun r s).hotkey i = s.hotkey i := rfl
@[simp] theorem begun_lineTrigger (r : Request) (s : State) (l : LineId) : (begun r s).lineTrigger l = s.lineTrigger l := rfl
@[simp] theorem begun_input (r : Request) (s : State) (i : Input) : (begun r s).input i = s.input i := rfl
@[simp] theorem begun_out (r : Request) (s : State) (o : OutputId) : (begun r s).out o = s.out o := rfl
@[simp] theorem begun_scene (r : Request) (s : State) (i : Fin 16) : (begun r s).scene i = s.scene i := rfl
@[simp] theorem begun_link (r : Request) (s : State) (k : LinkId) : (begun r s).link k = s.link k := rfl
@[simp] theorem begun_control (r : Request) (s : State) (n : Comp) : (begun r s).control n = s.control n := rfl
@[simp] theorem begun_wakeOf (r : Request) (s : State) (n : Comp) : (begun r s).wakeOf n = s.wakeOf n := rfl
@[simp] theorem begun_line (r : Request) (s : State) (l : LineId) : (begun r s).line l = s.line l := rfl

/-! ### handedOn: nothing but the supervisor link -/

@[simp] theorem handedOn_now (s : State) : (handedOn s).now = s.now := rfl
@[simp] theorem handedOn_comps (s : State) : (handedOn s).comps = s.comps := rfl
@[simp] theorem handedOn_heads (s : State) : (handedOn s).heads = s.heads := rfl
@[simp] theorem handedOn_layout (s : State) : (handedOn s).layout = s.layout := rfl
@[simp] theorem handedOn_desk (s : State) : (handedOn s).desk = s.desk := rfl
@[simp] theorem handedOn_lock (s : State) : (handedOn s).lock = s.lock := rfl
@[simp] theorem handedOn_pointer (s : State) : (handedOn s).pointer = s.pointer := rfl
@[simp] theorem handedOn_focus (s : State) : (handedOn s).focus = s.focus := rfl
@[simp] theorem handedOn_mouse (s : State) : (handedOn s).mouse = s.mouse := rfl
@[simp] theorem handedOn_keyboard (s : State) : (handedOn s).keyboard = s.keyboard := rfl
@[simp] theorem handedOn_router (s : State) : (handedOn s).router = s.router := rfl
@[simp] theorem handedOn_ports (s : State) : (handedOn s).ports = s.ports := rfl
@[simp] theorem handedOn_hotkeys (s : State) : (handedOn s).hotkeys = s.hotkeys := rfl
@[simp] theorem handedOn_matcher (s : State) : (handedOn s).matcher = s.matcher := rfl
@[simp] theorem handedOn_lineTriggers (s : State) : (handedOn s).lineTriggers = s.lineTriggers := rfl
@[simp] theorem handedOn_inputs (s : State) : (handedOn s).inputs = s.inputs := rfl
@[simp] theorem handedOn_outputs (s : State) : (handedOn s).outputs = s.outputs := rfl
@[simp] theorem handedOn_crosspointStart (s : State) : (handedOn s).crosspointStart = s.crosspointStart := rfl
@[simp] theorem handedOn_scenes (s : State) : (handedOn s).scenes = s.scenes := rfl
@[simp] theorem handedOn_blank (s : State) : (handedOn s).blank = s.blank := rfl
@[simp] theorem handedOn_links (s : State) : (handedOn s).links = s.links := rfl
@[simp] theorem handedOn_controls (s : State) : (handedOn s).controls = s.controls := rfl
@[simp] theorem handedOn_wake (s : State) : (handedOn s).wake = s.wake := rfl
@[simp] theorem handedOn_lines (s : State) : (handedOn s).lines = s.lines := rfl
@[simp] theorem handedOn_pending (s : State) : (handedOn s).pending = s.pending := rfl
@[simp] theorem handedOn_comp (s : State) (n : Comp) : (handedOn s).comp n = s.comp n := rfl
@[simp] theorem handedOn_headMap (s : State) (h : Head) : (handedOn s).headMap h = s.headMap h := rfl
@[simp] theorem handedOn_port (s : State) (n : Comp) : (handedOn s).port n = s.port n := rfl
@[simp] theorem handedOn_hotkey (s : State) (i : Fin 32) : (handedOn s).hotkey i = s.hotkey i := rfl
@[simp] theorem handedOn_lineTrigger (s : State) (l : LineId) : (handedOn s).lineTrigger l = s.lineTrigger l := rfl
@[simp] theorem handedOn_input (s : State) (i : Input) : (handedOn s).input i = s.input i := rfl
@[simp] theorem handedOn_out (s : State) (o : OutputId) : (handedOn s).out o = s.out o := rfl
@[simp] theorem handedOn_scene (s : State) (i : Fin 16) : (handedOn s).scene i = s.scene i := rfl
@[simp] theorem handedOn_link (s : State) (k : LinkId) : (handedOn s).link k = s.link k := rfl
@[simp] theorem handedOn_control (s : State) (n : Comp) : (handedOn s).control n = s.control n := rfl
@[simp] theorem handedOn_wakeOf (s : State) (n : Comp) : (handedOn s).wakeOf n = s.wakeOf n := rfl
@[simp] theorem handedOn_line (s : State) (l : LineId) : (handedOn s).line l = s.line l := rfl

/-- The fields of what a request leaves once replied, the supervisor link's apart. -/
theorem replied_eq_sup (r : Request) (c : ResultCode) (f : List Byte) (u : State) :
    replied r c f u = { u with sup := (replied r c f u).sup } := rfl

/-! ### Pins -/

/-- A filtered line is not driven (R178). -/
@[simp] theorem Line.pin_of_filtering {l : Line} (h : Line.filtering l = true) : Line.pin l = .float := by
  simp only [Line.filtering, Bool.and_eq_true, Bool.not_eq_true', Option.isNone_iff_eq_none] at h
  simp [Line.pin, h.1, h.2]

/-- A pin that is not driven is high under a pull-up that the wiring does not drive against (R178). -/
theorem Line.pinHigh_of_pullUp {l : Line} (hp : Line.pin l = .float) (hu : l.config.pullUp = true)
    (hs : l.wireStrong = false) : Line.pinHigh l = true := by
  simp [Line.pinHigh, Line.pulledUp, hp, hu, hs]

/-- A pin that is not driven and has no pull-up carries what the wiring gives it (R178). -/
theorem Line.pinHigh_of_wiring {l : Line} (hp : Line.pin l = .float) (hu : l.config.pullUp = false) :
    Line.pinHigh l = l.wireLevel := by
  simp [Line.pinHigh, Line.pulledUp, hp, hu]

end Sys2Proof.Machine
end

