-- ==== Sys2Proof/Laws/Sessions.lean ====
section
/-!
SUPPORT. What the changes of a session, the loss of a link and a reconciliation leave, in the terms of the statements.
-/

namespace Sys2Proof.Machine

open Sys2Proof

/-! ### The outbound session -/

theorem modLink_modLink (s : State) (k : LinkId) (f g : Link → Link) :
    (s.modLink k f).modLink k g = s.modLink k fun l => g (f l) := by
  have : upd (upd s.links k f) k g = upd s.links k fun l => g (f l) := by
    refine vector_ext fun j => ?_
    by_cases e : j = k
    · subst e; simp
    · simp [pick_upd, e]
  unfold State.modLink
  rw [← this]

theorem modLink_out_modLink (s : State) (k : LinkId) (o : OutputId) (f g : Link → Link) (h : Output → Output) :
    ((s.modLink k f).modOut o h).modLink k g = (s.modLink k fun l => g (f l)).modOut o h := by
  rw [← modLink_modLink s k f g]; rfl

theorem enqueueFrame_outbound (m : LinkMsg) (l : Link) (v : Outbound) :
    enqueueFrame m { l with outbound := v } = { enqueueFrame m l with outbound := v } := by
  unfold enqueueFrame
  cases l.sending with
  | none => rfl
  | some f => dsimp only; split <;> rfl

/-- An outbound session enters ACTIVE as R131 says. -/
theorem outActivate_activated (k : LinkId) (h : Head) (v : Bool) (c : ShareCause) (s : State) :
    outboundActivated k h v c s (outActivate k h v c s) := by
  have : outActivate k h v c s = (((s.modLink k fun l => { l with outbound := .active h v }).modOut (laneOut k)
      (takeTargetRecord (some (.head h)))).modLink k (enqueueFrame (.mode (sentMode s h) (effMode s h.comp)))).modSup
      (queueNotice .share (shareOutNotice k (.active h v) h v c)) := rfl
  unfold outboundActivated
  rw [this, modLink_out_modLink]
  simp only [enqueueFrame_outbound]

theorem sendIf_eq (k : LinkId) (f : Option LinkMsg) (s : State) :
    sendIf k f s = s.modLink k fun l => f.elim l fun m => enqueueFrame m l := by
  cases f with
  | none => unfold sendIf State.modLink; rw [upd_self _ _ _ rfl]
  | some m => rfl

/-- An outbound session ends as R132 says. -/
theorem outEnd_ended (k : LinkId) (f : Option LinkMsg) (c : ShareCause) (s : State) :
    outboundEnded k f c s (outEnd k f (some c) s) := by
  have e : ∀ (x : State) (h : Head) (v : Bool),
      notifyIf (Option.map (shareOutNotice k .none h v) (some c)) (sendIf k f (takeTarget (laneOut k) none x)) =
      ((x.modOut (laneOut k) (takeTargetRecord none)).modLink k fun l => f.elim l fun m => enqueueFrame m l).modSup
        (queueNotice .share (shareOutNotice k .none h v c)) := by
    intro x h v; rw [sendIf_eq]; rfl
  unfold outboundEnded outEnd
  cases (s.link k).outbound with
  | none => rfl
  | offered h v d => exact e _ h v
  | active h v => exact ⟨_, endControl_ended k .sessionEnd _, e _ h v⟩

/-! ### A change of an input -/

theorem modOut_out_at (s : State) (o p : OutputId) (f : Output → Output) :
    (s.modOut o f).out p = if p = o then f (s.out o) else s.out p := by
  rw [State.modOut_out]
  split
  · next h => rw [h]
  · rfl

/-- An output that enters a state in which it presents black. -/
theorem enterState_black (o : OutputId) (st : OutputState) (x : State) (h : st ≠ .showing) :
    enterState o st x = (x.modOut o fun r => { r with state := st }).modSup
      (queueNotice .video (outputNotice o { x.out o with state := st } false)) := by
  have e : (x.modOut o fun r => { r with state := st }).out o = { x.out o with state := st } := by
    rw [modOut_out_at, if_pos rfl]
  have hp : presented (x.modOut o fun r => { r with state := st }) o = false := by
    unfold presented
    rw [e]
    cases st <;> first | rfl | exact absurd rfl h
  unfold enterState
  simp only [hp, e]
  rfl

theorem inputFollowed_eq (s : State) (i : Input) (v : InputState) (o : OutputId) :
    inputFollowed s i v o =
      if (s.out o).assignment = some i ∧ s.input i ≠ v then
        match (s.out o).state with
        | .locking d _ => { s.out o with state := .locking d (stableFrom s.now v) }
        | .showing =>
          if v = .absent then { s.out o with state := .noSignal }
          else { s.out o with state := .locking (s.now + (s.out o).lockTimeout) (stableFrom s.now v) }
        | .noSignal =>
          if v = .absent then s.out o
          else { s.out o with state := .locking (s.now + (s.out o).lockTimeout) (stableFrom s.now v) }
        | _ => s.out o
      else s.out o := by
  unfold inputFollowed
  cases v <;> rfl

/-- The state after an output has followed an input. -/
theorem followInput_effect (i : Input) (v : InputState) (s x : State) (o : OutputId) (hi : s.input i ≠ v)
    (ho : x.out o = s.out o) (hn : x.now = s.now) :
    (∀ p, (followInput i v x o).out p = if p = o then inputFollowed s i v o else x.out p) ∧
    followInput i v x o = { x with
      outputs := (followInput i v x o).outputs
      sup :=
        if (s.out o).assignment == some i &&
            ((s.out o).state == .showing || ((s.out o).state == .noSignal && v != .absent)) then
          queueNotice .video (outputNotice o (inputFollowed s i v o) false) x.sup
        else x.sup } := by
  have same : ∀ p, x.out p = if p = o then s.out o else x.out p := by
    intro p; split
    · next h => subst h; exact ho
    · rfl
  have enters : ∀ st, st ≠ OutputState.showing →
      (∀ p, (enterState o st x).out p = if p = o then { s.out o with state := st } else x.out p) ∧
      enterState o st x = { x with
        outputs := (enterState o st x).outputs
        sup := queueNotice .video (outputNotice o { s.out o with state := st } false) x.sup } := by
    intro st h
    rw [enterState_black o st x h, ho]
    refine ⟨fun p => ?_, rfl⟩
    have := modOut_out_at x o p fun r => { r with state := st }
    rw [ho] at this
    exact this
  unfold followInput
  rw [inputFollowed_eq, ho]
  by_cases ha : (s.out o).assignment = some i
  · have hb : ((s.out o).assignment == some i) = true := by rw [ha]; exact beq_self_eq_true _
    simp only [if_pos ha, if_pos (And.intro ha hi), hb, Bool.true_and]
    cases hs : (s.out o).state with
    | locking d e =>
      refine ⟨fun p => ?_, by simp [State.modOut]⟩
      rw [modOut_out_at, ho, hn]
    | showing =>
      by_cases hv : v = .absent
      · simpa [hv] using enters .noSignal (by simp)
      · rw [show enterLocking o v x =
            enterState o (.locking (s.now + (s.out o).lockTimeout) (stableFrom s.now v)) x by
          unfold enterLocking; rw [ho, hn]]
        simpa [hv] using enters (.locking (s.now + (s.out o).lockTimeout) (stableFrom s.now v)) (by simp)
    | noSignal =>
      by_cases hv : v = .absent
      · simpa [hv] using same
      · rw [show enterLocking o v x =
            enterState o (.locking (s.now + (s.out o).lockTimeout) (stableFrom s.now v)) x by
          unfold enterLocking; rw [ho, hn]]
        have hv' : (v != .absent) = true := by simpa using hv
        simpa [hv, hv'] using enters (.locking (s.now + (s.out o).lockTimeout) (stableFrom s.now v)) (by simp)
    | dark => exact ⟨same, by simp⟩
    | blanking t e => exact ⟨same, by simp⟩
  · have hb : ((s.out o).assignment == some i) = false := by simpa using ha
    simp only [if_neg ha, if_neg (fun h : _ ∧ _ => ha h.1), hb, Bool.false_and]
    exact ⟨same, rfl⟩

/-- The state after some outputs have followed an input. -/
theorem followInputs_effect (i : Input) (v : InputState) (s : State) (hi : s.input i ≠ v) (l : List OutputId)
    (hl : l.Nodup) (x : State) (ho : ∀ o ∈ l, x.out o = s.out o) (hn : x.now = s.now) :
    (∀ p, (l.foldl (followInput i v) x).out p = if p ∈ l then inputFollowed s i v p else x.out p) ∧
    l.foldl (followInput i v) x = { x with
      outputs := (l.foldl (followInput i v) x).outputs
      sup := l.foldl
        (fun p o =>
          if (s.out o).assignment == some i &&
              ((s.out o).state == .showing || ((s.out o).state == .noSignal && v != .absent)) then
            queueNotice .video (outputNotice o (inputFollowed s i v o) false) p
          else p) x.sup } := by
  induction l generalizing x with
  | nil => exact ⟨fun p => by simp, rfl⟩
  | cons o l ih =>
    obtain ⟨hx, hl'⟩ := List.nodup_cons.1 hl
    obtain ⟨e1, e2⟩ := followInput_effect i v s x o hi (ho o (by simp)) hn
    have hn' : (followInput i v x o).now = s.now := by rw [e2]; exact hn
    obtain ⟨h1, h2⟩ := ih hl' (followInput i v x o)
      (fun p hp => by rw [e1, if_neg (fun e : p = o => hx (e ▸ hp))]; exact ho p (by simp [hp])) hn'
    rw [List.foldl_cons]
    refine ⟨fun p => ?_, ?_⟩
    · rw [h1, e1]
      by_cases hp : p = o
      · subst hp; simp [hx]
      · simp [hp]
    · rw [h2]
      generalize (l.foldl (followInput i v) (followInput i v x o)).outputs = os
      rw [List.foldl_cons, e2]

theorem mem_allOutputs (o : OutputId) : o ∈ allOutputs := by revert o; decide

/-- A change of an inbound lane does what R101 and R111 say, and nothing else. -/
theorem changeLane_effect (k : LinkId) (v : InputState) (s : State) :
    (changeInput (.lane k) v s).input (.lane k) = v ∧
    (∀ i, i ≠ .lane k → (changeInput (.lane k) v s).input i = s.input i) ∧
    (∀ o, (changeInput (.lane k) v s).out o = inputFollowed s (.lane k) v o) ∧
    changeInput (.lane k) v s = { s with
      inputs := (changeInput (.lane k) v s).inputs, outputs := (changeInput (.lane k) v s).outputs
      sup := toldInput s (.lane k) v none s.sup } := by
  unfold changeInput toldInput
  by_cases hi : s.input (.lane k) = v
  · rw [if_pos hi, if_pos hi]
    refine ⟨hi, fun i _ => rfl, fun o => ?_, rfl⟩
    rw [inputFollowed_eq, if_neg (fun h => h.2 hi)]
  · rw [if_neg hi, if_neg hi]
    obtain ⟨h1, h2⟩ := followInputs_effect (.lane k) v s hi allOutputs (by decide) (s.setInput (.lane k) v)
      (fun o _ => rfl) rfl
    dsimp only
    generalize hx : allOutputs.foldl (followInput (.lane k) v) (s.setInput (.lane k) v) = x at h1 h2
    have hin : ∀ i, x.input i = (s.setInput (.lane k) v).input i := fun i => by rw [h2]; rfl
    refine ⟨?_, fun i h => ?_, fun o => ?_, ?_⟩
    · show x.input _ = _
      rw [hin]; simp
    · show x.input _ = _
      rw [hin, State.setInput_input_ne _ _ _ _ h]
    · show x.out o = _
      rw [h1, if_pos (mem_allOutputs o)]
    · have hfin : ∀ y : State, y = x → notify .video (headModeNotice (.lane k) v none) y =
          { s with inputs := x.inputs, outputs := x.outputs,
                   sup := queueNotice .video (headModeNotice (.lane k) v none) x.sup } := by
        intro y hy
        rw [hy, h2]; rfl
      have := hfin x rfl
      rw [show x.sup = _ by rw [h2]] at this
      exact this

/-! ### The monitors of a lane -/

theorem darkenLane_effect (k : LinkId) (s : State) (m : Monitor) :
    (∀ p, (darkenLane k s m).out p =
      if p = monitorOut m ∧ usesLane k (s.out p) = true then takeTargetRecord none (s.out p) else s.out p) ∧
    darkenLane k s m = { s with outputs := (darkenLane k s m).outputs } := by
  unfold darkenLane
  by_cases h : usesLane k (s.out (monitorOut m)) = true
  · rw [if_pos h]
    refine ⟨fun p => ?_, rfl⟩
    unfold takeTarget
    rw [State.modOut_out]
    by_cases hp : p = monitorOut m
    · subst hp; rw [if_pos rfl, if_pos ⟨rfl, h⟩]
    · rw [if_neg hp, if_neg (fun e => hp e.1)]
  · rw [if_neg h]
    refine ⟨fun p => ?_, rfl⟩
    rw [if_neg]
    rintro ⟨rfl, e⟩
    exact h e

theorem darkenLanes_effect (k : LinkId) (l : List Monitor) (hl : (l.map monitorOut).Nodup) (s : State) :
    (∀ p, (l.foldl (darkenLane k) s).out p =
      if p ∈ l.map monitorOut ∧ usesLane k (s.out p) = true then takeTargetRecord none (s.out p) else s.out p) ∧
    l.foldl (darkenLane k) s = { s with outputs := (l.foldl (darkenLane k) s).outputs } := by
  induction l generalizing s with
  | nil => exact ⟨fun p => by simp, rfl⟩
  | cons m l ih =>
    obtain ⟨hx, hl'⟩ := List.nodup_cons.1 hl
    obtain ⟨e1, e2⟩ := darkenLane_effect k s m
    obtain ⟨h1, h2⟩ := ih hl' (darkenLane k s m)
    rw [List.foldl_cons]
    refine ⟨fun p => ?_, ?_⟩
    · rw [h1, e1]
      by_cases hp : p = monitorOut m
      · subst hp; simp only [List.map_cons, List.mem_cons, true_or, true_and, hx, false_and, if_false]
      · simp only [List.map_cons, List.mem_cons, hp, false_or, false_and, if_false]
    · rw [h2, e2]

theorem mem_monitorOuts (p : OutputId) : p ∈ allMonitors.map monitorOut ↔ p.val < 4 := by revert p; decide

/-! ### A focus that loses its lane -/

/-- The level of a TALLY line follows a focus target; every other line stays. -/
def talliedLine (t : FocusTarget) (l : Line) : Line :=
  match l.config.role with
  | .tally n => { l with level := t == .loc n }
  | _ => l

theorem setTally_effect (s : State) (l : LineId) :
    (∀ j, (setTally s l).line j = if j = l then talliedLine s.focus.target (s.line j) else s.line j) ∧
      setTally s l = { s with lines := (setTally s l).lines } := by
  unfold setTally talliedLine
  cases hr : (s.line l).config.role with
  | tally n =>
    refine ⟨fun j => ?_, rfl⟩
    dsimp only
    rw [State.modLine_line]
    by_cases h : j = l
    · subst h; simp [hr]
    · simp [h]
  | _ =>
    refine ⟨fun j => ?_, rfl⟩
    by_cases h : j = l
    · subst h; simp [hr]
    · simp [h]

theorem setTallies_effect (l : List LineId) (hl : l.Nodup) (s : State) :
    (∀ j, (l.foldl setTally s).line j = if j ∈ l then talliedLine s.focus.target (s.line j) else s.line j) ∧
      l.foldl setTally s = { s with lines := (l.foldl setTally s).lines } := by
  induction l generalizing s with
  | nil => exact ⟨fun j => by simp, rfl⟩
  | cons x l ih =>
    obtain ⟨hx, hl'⟩ := List.nodup_cons.1 hl
    obtain ⟨e1, e2⟩ := setTally_effect s x
    obtain ⟨h1, h2⟩ := ih hl' (setTally s x)
    rw [List.foldl_cons]
    refine ⟨fun j => ?_, ?_⟩
    · rw [h1, e1, show (setTally s x).focus = s.focus by rw [e2]]
      by_cases hj : j = x
      · subst hj; simp [hx]
      · simp [hj]
    · rw [h2, e2]

theorem mem_allLines (l : LineId) : l ∈ allLines := by revert l; decide

theorem tellTally_effect (s : State) :
    (∀ l, (tellTally s).line l = talliedLine s.focus.target (s.line l)) ∧
      tellTally s = { s with lines := (tellTally s).lines } := by
  obtain ⟨h1, h2⟩ := setTallies_effect allLines (by decide) s
  exact ⟨fun l => by rw [tellTally, h1, if_pos (mem_allLines l)], h2⟩

/-- What the end of an inbound session does to the focus, the viewer control being none that is HELD (R43). -/
theorem sessionFocusEnd_effect (k : LinkId) (s : State) (hv : (s.link k).viewer ≠ .held) :
    focusLosesLane k s (sessionFocusEnd k s) ∧
    sessionFocusEnd k s = { s with
      focus := (sessionFocusEnd k s).focus, router := (sessionFocusEnd k s).router
      keyboard := (sessionFocusEnd k s).keyboard, lines := (sessionFocusEnd k s).lines
      pointer := (sessionFocusEnd k s).pointer, sup := toldFocus s (sessionFocusEnd k s) s.sup } := by
  unfold sessionFocusEnd
  by_cases hf : s.focus.target = .rem k
  · rw [if_pos hf]
    let s4 := leaveTarget s.focus.target ((maskHeld s).setFocus ⟨.none, .sessionEnd, s.focus.tile⟩)
    have e4 : s4 = { maskHeld s with
        focus := ⟨.none, .sessionEnd, s.focus.tile⟩, pointer := { s.pointer with capture := false } } := by
      simp only [s4, hf]; rfl
    have hnone : releaseLeavers s s4 = s4 := by
      refine releaseLeavers_none (fun m h => ?_) fun j => ?_
      · unfold isRecipient at h; rw [hf] at h; simp at h
      · unfold linkGone linkIsRecipient
        rw [hf]
        by_cases hj : j = k
        · subst hj
          have : ((s.link j).viewer == .held) = false := by simpa using hv
          rw [this]; simp
        · have : ((FocusTarget.rem k) == .rem j) = false := by simpa using fun e => hj e.symm
          rw [this]; simp
    have heq : ∀ p, focusChange .none .sessionEnd s.focus.tile p s =
        if p then placeAt s.focus.tile (noticeFocus s (checkLights (tellTally (takeGlideZone .none (releaseLeavers s s4)))))
        else noticeFocus s (checkLights (tellTally (takeGlideZone .none (releaseLeavers s s4)))) := fun p => rfl
    have hg : ∀ x, takeGlideZone .none x = x := fun x => rfl
    rw [heq, if_neg (by simp), hnone, hg]
    clear_value s4
    obtain ⟨t1, t2⟩ := tellTally_effect s4
    have f4 : s4.focus = ⟨.none, .sessionEnd, s.focus.tile⟩ := by rw [e4]
    have hb : (s.focus.target == .rem k) = true := by rw [hf]; exact beq_self_eq_true _
    have hl4 : ∀ l, s4.line l = s.line l := fun l => by rw [e4]; rfl
    have hk4 : s4.keyboard = s.keyboard := by rw [e4]; rfl
    generalize tellTally s4 = y at t1 t2
    have hc : checkLights y = { y with keyboard :=
        if s.keyboard.attached then { s.keyboard with lightsSent := some ⟨false, false, false⟩ } else s.keyboard } := by
      have hk : y.keyboard = s.keyboard := by rw [t2]; exact hk4
      have hw : wantedLights y = ⟨false, false, false⟩ := by
        unfold wantedLights; rw [show y.focus = s4.focus by rw [t2], f4]; rfl
      unfold checkLights
      rw [hk, hw]
      cases ha : s.keyboard.attached with
      | false => rw [Bool.false_and, if_neg (by simp), if_neg (by simp), ← hk]
      | true =>
        rw [Bool.true_and, if_pos rfl]
        by_cases hs : s.keyboard.lightsSent = some ⟨false, false, false⟩
        · rw [if_neg (by simp [hs]), ← hs, ← hk]
        · have : (s.keyboard.lightsSent != some ⟨false, false, false⟩) = true := by simpa using hs
          rw [if_pos this]
          unfold State.modKeyboard; rw [hk]
    rw [hc]
    have hne : y.focus ≠ s.focus := by
      rw [show y.focus = s4.focus by rw [t2], f4]
      intro e
      rw [← e] at hf
      simp at hf
    have hno : ∀ kb, noticeFocus s { y with keyboard := kb } =
        ({ y with keyboard := kb } : State).modSup (queueNotice .focus (focusNotice y.focus)) := fun kb => if_neg hne
    rw [hno]
    have hy : y = { s with
        focus := ⟨.none, .sessionEnd, s.focus.tile⟩, pointer := { s.pointer with capture := false }
        router := (maskHeld s).router, lines := y.lines } := by rw [t2, e4]; rfl
    have hm : heldMasked s (maskHeld s) := maskHeld_heldMasked rfl rfl
    have hyf : y.focus = ⟨.none, .sessionEnd, s.focus.tile⟩ := by rw [hy]
    refine ⟨⟨?_, ⟨?_, ?_⟩, ?_, ?_, ?_, ?_, ?_⟩, ?_⟩
    · show y.focus = _
      rw [hb]; exact hyf
    · intro l n hr
      show y.line l = _
      have hd : y.focus.target ≠ s.focus.target := by rw [hyf, hf]; simp
      have : ¬ ((({ y with keyboard :=
          if s.keyboard.attached then { s.keyboard with lightsSent := some ⟨false, false, false⟩ } else s.keyboard } :
          State).modSup (queueNotice .focus (focusNotice y.focus))).focus.target = s.focus.target) := hd
      rw [if_neg this, t1, hl4, f4]
      unfold talliedLine
      rw [hr]
      simp [State.modSup, hyf]
    · intro l hr
      show y.line l = _
      rw [t1, hl4, f4]
      unfold talliedLine
      split
      · next n hn => exact absurd hn (hr n)
      · rfl
    · show y.pointer = _
      rw [hy, hb]; simp
    · intro _ c
      show KeyState.has y.router.mask c = _
      rw [hy]; exact hm c
    · intro h; rw [hb] at h; simp at h
    · show y.router = { s.router with mask := y.router.mask }
      rw [hy]; rfl
    · show (if s.keyboard.attached then _ else _) = _
      rw [hb, Bool.true_and]
    · have hfin : ∀ v : State, v = y → ∀ kb sp, ({ v with keyboard := kb, sup := sp } : State) =
          { s with focus := y.focus, router := y.router, keyboard := kb, lines := y.lines
                   pointer := y.pointer, sup := sp } := by
        intro v hv kb sp
        rw [hv, hy]
      have := hfin y rfl (if s.keyboard.attached then { s.keyboard with lightsSent := some ⟨false, false, false⟩ }
        else s.keyboard) (queueNotice .focus (focusNotice y.focus) s.sup)
      have hs : y.sup = s.sup := by rw [hy]
      generalize hu : ({ y with keyboard := if s.keyboard.attached then
          { s.keyboard with lightsSent := some ⟨false, false, false⟩ } else s.keyboard } : State).modSup
          (queueNotice .focus (focusNotice y.focus)) = u
      have g1 : u.focus = y.focus := by subst hu; rfl
      have g2 : u.router = y.router := by subst hu; rfl
      have g3 : u.lines = y.lines := by subst hu; rfl
      have g4 : u.pointer = y.pointer := by subst hu; rfl
      have g5 : u.keyboard = if s.keyboard.attached then { s.keyboard with lightsSent := some ⟨false, false, false⟩ }
          else s.keyboard := by subst hu; rfl
      have ht : toldFocus s u s.sup = queueNotice .focus (focusNotice y.focus) s.sup := by
        unfold toldFocus; rw [g1]; exact if_neg hne
      rw [ht, g1, g2, g3, g4, g5, ← this, ← hu, ← hs]; rfl
  · rw [if_neg hf]
    have hb : (s.focus.target == .rem k) = false := by simpa using hf
    refine ⟨⟨?_, ⟨?_, fun _ _ => rfl⟩, ?_, ?_, fun _ => rfl, rfl, ?_⟩, ?_⟩
    · rw [hb]; rfl
    · intro l n _; rw [if_pos rfl]
    · rw [hb]; simp
    · intro h; rw [hb] at h; simp at h
    · rw [hb]; rfl
    · have : toldFocus s s s.sup = s.sup := if_pos rfl
      rw [this]

/-! ### The inbound session -/

/-- The viewer control state at the end of an inbound session. -/
theorem setViewer_none (k : LinkId) (s : State) :
    (setViewer k .none .sessionEnd s).link k = { s.link k with viewer := .none } ∧
    (∀ j, j ≠ k → (setViewer k .none .sessionEnd s).link j = s.link j) ∧
    setViewer k .none .sessionEnd s = { s with
      links := (setViewer k .none .sessionEnd s).links
      pointer := { s.pointer with capture :=
        s.pointer.capture && !(!((s.link k).viewer == .none) && s.focus.target == .rem k) }
      sup := if (s.link k).viewer = .none then s.sup
        else queueNotice .share (viewerNotice k .none .sessionEnd) s.sup } := by
  by_cases h : (s.link k).viewer = .none
  · have : setViewer k .none .sessionEnd s = s := if_pos h
    rw [this, if_pos h, h]
    refine ⟨by rw [← h], fun _ _ => rfl, ?_⟩
    simp
  · obtain ⟨h1, h2, -, h4, h5, h6, h7, h8⟩ := setViewer_moved k .none .sessionEnd s h
    generalize setViewer k .none .sessionEnd s = u at h1 h2 h4 h5 h6 h7 h8
    refine ⟨h1, h2, ?_⟩
    have hb : ((s.link k).viewer == ViewerControl.none) = false := by simpa using h
    have e4 : u.router.mask = s.router.mask := h4 rfl
    have e5 : u.router.linkKeys = s.router.linkKeys := vector_ext fun j => by
      by_cases hj : j = k
      · subst hj; exact h5
      · exact (h7 j hj).1
    have e6 : u.router.linkPointer = s.router.linkPointer := vector_ext fun j => by
      by_cases hj : j = k
      · subst hj; exact h6
      · exact (h7 j hj).2
    rw [e4, e5, e6] at h8
    rw [if_neg h, hb]
    exact h8

theorem usesLane_followed (s : State) (i : Input) (v : InputState) (k : LinkId) (p : OutputId) :
    usesLane k (inputFollowed s i v p) = usesLane k (s.out p) := by
  rw [inputFollowed_eq]
  split
  · cases hs : (s.out p).state with
    | locking d e => simp [usesLane, OutputState.switchTarget, hs]
    | showing => dsimp only; split <;> simp [usesLane, OutputState.switchTarget, hs]
    | noSignal =>
      dsimp only; split
      · rfl
      · simp [usesLane, OutputState.switchTarget, hs]
    | dark => rfl
    | blanking t e => rfl
  · rfl

theorem laneGone_eq (s : State) (k : LinkId) (p : OutputId) :
    laneGone s k p =
      if p.val < 4 ∧ usesLane k (inputFollowed s (.lane k) .absent p) = true then
        takeTargetRecord none (inputFollowed s (.lane k) .absent p)
      else inputFollowed s (.lane k) .absent p := by
  rw [usesLane_followed]
  have : usesLane k (s.out p) = true ↔ ((s.out p).assignment = some (.lane k) ∨
      (match (s.out p).state with
        | .blanking t _ => t == some (.lane k)
        | _ => false) = true ∨ (s.out p).pendingSlot = some (some (.lane k))) := by
    unfold usesLane
    cases hs : (s.out p).state <;> simp [OutputState.switchTarget, or_assoc]
  simp only [this]
  rfl

/-- An inbound session ends as R134 says. -/
theorem inEnd_ended (k : LinkId) (f : Option LinkMsg) (c : ShareCause) (s : State) :
    inboundEnded k f c s (inEnd k f (some c) s) := by
  unfold inboundEnded inEnd
  cases hin : (s.link k).inbound with
  | none => rfl
  | offeredIn o d =>
    dsimp only
    rw [sendIf_eq]
    unfold setInbound
    rw [modLink_modLink]
    rfl
  | active o =>
    dsimp only
    let s1 := setInbound k .none s
    obtain ⟨v1, v2, v3⟩ := setViewer_none k s1
    have l1 : s1.link k = { s.link k with inbound := .none } := by simp [s1, setInbound]
    have l2 : ∀ j, j ≠ k → s1.link j = s.link j := fun j hj => by simp [s1, setInbound, State.modLink_link, hj]
    generalize hx : setViewer k .none .sessionEnd s1 = x at v1 v2 v3
    have hxs : x = { s with
        links := x.links
        pointer := { s.pointer with capture :=
          s.pointer.capture && !(!((s.link k).viewer == .none) && s.focus.target == .rem k) }
        sup := if (s.link k).viewer = .none then s.sup
          else queueNotice .share (viewerNotice k .none .sessionEnd) s.sup } := by
      rw [v3, l1]; rfl
    obtain ⟨c1, c2, c3, c4⟩ := changeLane_effect k .absent x
    generalize hy : changeInput (.lane k) .absent x = y at c1 c2 c3 c4
    obtain ⟨d1, d2⟩ := darkenLanes_effect k allMonitors (by decide) y
    generalize hz : allMonitors.foldl (darkenLane k) y = z at d1 d2
    have hzl : ∀ j, z.link j = x.link j := fun j => by rw [d2, c4]; rfl
    obtain ⟨g1, g2⟩ := sessionFocusEnd_effect k z (by rw [hzl, v1]; simp)
    generalize hw : sessionFocusEnd k z = w at g1 g2
    have hu : notifyIf (Option.map (shareInNotice k .none o) (some c)) (sendIf k f w) =
        (w.modLink k fun l => f.elim l fun m => enqueueFrame m l).modSup
          (queueNotice .share (shareInNotice k .none o c)) := by rw [sendIf_eq]; rfl
    rw [hu]
    clear_value s1
    clear hu hw hz hy hx
    have hf : ∀ p, inputFollowed x (.lane k) .absent p = inputFollowed s (.lane k) .absent p := by
      intro p
      unfold inputFollowed
      rw [show x.out p = s.out p by rw [hxs]; rfl, show x.input (.lane k) = s.input (.lane k) by rw [hxs]; rfl,
        show x.now = s.now by rw [hxs]]
    have ht : ∀ q, toldInput x (.lane k) .absent none q = toldInput s (.lane k) .absent none q := by
      intro q
      unfold toldInput
      simp only [hf]
      rw [show x.input (.lane k) = s.input (.lane k) by rw [hxs]; rfl]
      have : x.outputs = s.outputs := by rw [hxs]
      unfold State.out
      rw [this]
    have hzs : z = { x with inputs := y.inputs, outputs := z.outputs, sup := toldInput s (.lane k) .absent none x.sup } := by
      rw [d2, c4, ht]
    have zf : z.focus = s.focus := by rw [hzs, hxs]
    have hws : w = { z with
        focus := w.focus, router := w.router, keyboard := w.keyboard, lines := w.lines, pointer := w.pointer
        sup := toldFocus z w z.sup } := g2
    have hwin : ∀ i, w.input i = y.input i := fun i => by rw [hws, hzs]; rfl
    have hyin : ∀ i, x.input i = s.input i := fun i => by rw [hxs]; rfl
    have hwl : ∀ j, w.link j = x.link j := fun j => by rw [hws]; exact hzl j
    have hwo : ∀ p, w.out p = laneGone s k p := by
      intro p
      rw [show w.out p = z.out p by rw [hws]; rfl, d1, c3, hf, laneGone_eq]
      simp only [mem_monitorOuts]
    have hpt : z.pointer = { s.pointer with capture :=
          s.pointer.capture && !(!((s.link k).viewer == .none) && s.focus.target == .rem k) } := by
      rw [hzs, hxs]
    have hzr : z.router = s.router := by rw [hzs, hxs]
    have hzk : z.keyboard = s.keyboard := by rw [hzs, hxs]
    have hzln : ∀ l, z.line l = s.line l := fun l => by rw [hzs, hxs]; rfl
    obtain ⟨q1, ⟨q2, q3⟩, q4, q5, q6, q7, q8⟩ := g1
    refine ⟨?_, fun j hj => ?_, (hwin _).trans c1, fun i hi => (hwin i).trans ((c2 i hi).trans (hyin i)), hwo, ?_, ?_⟩
    · show (w.modLink k _).link k = _
      rw [State.modLink_link_same, hwl, v1, l1]
    · show (w.modLink k _).link j = _
      rw [State.modLink_link_ne _ _ _ _ hj, hwl, v2 j hj, l2 j hj]
    · refine ⟨?_, ⟨?_, ?_⟩, ?_, ?_, ?_, ?_, ?_⟩
      · show w.focus = _
        rw [q1, zf]
      · intro l n hr
        have := q2 l n (by rw [hzln]; exact hr)
        rw [zf, hzln] at this
        exact this
      · intro l hr
        have := q3 l (fun n => by rw [hzln]; exact hr n)
        rw [hzln] at this
        exact this
      · show w.pointer = _
        rw [q4, hpt, zf]
        cases s.focus.target == .rem k <;> simp
      · intro h c
        have := q5 (by rw [zf]; exact h) c
        rw [hzr, hzk] at this
        exact this
      · intro h
        have := q6 (by rw [zf]; exact h)
        rw [hzr] at this
        exact this
      · show w.router = { s.router with mask := w.router.mask }
        rw [← hzr]; exact q7
      · show w.keyboard = _
        rw [q8, zf, hzk]
    · have hsup : w.sup = toldFocus s w (toldInput s (.lane k) .absent none
          (if (s.link k).viewer = .none then s.sup
          else queueNotice .share (viewerNotice k .none .sessionEnd) s.sup)) := by
        have e1 : w.sup = toldFocus z w z.sup := by rw [hws]; rfl
        have e2 : z.sup = toldInput s (.lane k) .absent none x.sup := by rw [hzs]
        have e3 : x.sup = if (s.link k).viewer = .none then s.sup
          else queueNotice .share (viewerNotice k .none .sessionEnd) s.sup := by rw [hxs]
        rw [e1, e2, e3]
        unfold toldFocus; rw [zf]
      have hwf : w = { s with
          links := w.links, inputs := w.inputs, outputs := w.outputs, focus := w.focus, router := w.router
          keyboard := w.keyboard, lines := w.lines, pointer := w.pointer, sup := w.sup } := by
        rw [hws, hzs, hxs]
      have hfin : ∀ v : State, v = w →
          (v.modLink k fun l => f.elim l fun m => enqueueFrame m l).modSup
            (queueNotice .share (shareInNotice k .none o c)) =
          { s with
            links := upd w.links k fun l => f.elim l fun m => enqueueFrame m l
            inputs := w.inputs, outputs := w.outputs, focus := w.focus, router := w.router
            keyboard := w.keyboard, lines := w.lines, pointer := w.pointer
            sup := queueNotice .share (shareInNotice k .none o c) w.sup } := by
        intro v hv
        rw [hv.trans hwf]; rfl
      have := hfin w rfl
      rw [hsup] at this
      exact this

/-! ### The link -/

/-- A link goes DOWN as R138 says. -/
theorem linkDown_lost (k : LinkId) (c : LinkCause) (s : State) : linkLost k c s (linkDown k c s) :=
  ⟨_, _, _, outEnd_ended k none .linkDown _, inEnd_ended k none .linkDown _, endControl_ended k .linkDown _, rfl⟩

theorem inEnd_inbound (k : LinkId) (f : Option LinkMsg) (c : ShareCause) (s : State) :
    ((inEnd k f (some c) s).link k).inbound = .none := by
  have h := inEnd_ended k f c s
  unfold inboundEnded at h
  cases hi : (s.link k).inbound with
  | none => rw [hi] at h; rw [h]; exact hi
  | offeredIn o d =>
    rw [hi] at h
    dsimp only at h
    rw [h]
    cases f <;> simp
  | active o =>
    rw [hi] at h
    obtain ⟨h1, -⟩ := h
    rw [h1]
    cases f <;> simp

/-- Rows 1 and 2 of R141. -/
theorem rows12_judged (k : LinkId) (a : Alive) (s : State) :
    if a.outbound = .none then inboundEnded k none .peerEnded s (row2 k a (row1 k a s)) else row2 k a (row1 k a s) = s := by
  unfold row2 row1
  cases a.outbound with
  | none =>
    rw [if_pos rfl]
    have h := inEnd_ended k none .peerEnded s
    cases hi : (s.link k).inbound with
    | none =>
      dsimp only
      rw [hi]
      unfold inboundEnded; rw [hi]
    | offeredIn o d => dsimp only; rw [hi]; exact h
    | active o =>
      dsimp only
      rw [inEnd_inbound]
      exact h
  | _ => rw [if_neg (by simp)]; cases (s.link k).inbound <;> dsimp only <;> cases (s.link k).inbound <;> rfl

/-- Rows 4 to 6 of R141. -/
theorem rows46_judged (k : LinkId) (a : Alive) (w : State) :
    if (w.link k).viewer = .held ∧ a.controlToYou = false then
      viewerMoved k .none .reconciled w (row6 k a (row5 k a (row4 k a w)))
    else if (w.link k).viewer = .requested ∧ a.controlToYou = true then
      viewerMoved k .held .reconciled w (row6 k a (row5 k a (row4 k a w)))
    else if (w.link k).viewer = .none ∧ a.controlToYou = true then
      row6 k a (row5 k a (row4 k a w)) = w.modLink k (enqueueFrame .release)
    else row6 k a (row5 k a (row4 k a w)) = w := by
  by_cases h4 : (w.link k).viewer = .held ∧ a.controlToYou = false
  · have e4 : row4 k a w = setViewer k .none .reconciled w := if_pos h4
    have h := setViewer_moved k .none .reconciled w (by rw [h4.1]; simp)
    have e5 : ∀ x, row5 k a x = x := fun x => if_neg (by rw [h4.2]; simp)
    have e6 : ∀ x, row6 k a x = x := fun x => if_neg (by rw [h4.2]; simp)
    rw [if_pos h4, e4, e5, e6]; exact h
  · have e4 : row4 k a w = w := if_neg h4
    rw [if_neg h4, e4]
    by_cases h5 : (w.link k).viewer = .requested ∧ a.controlToYou = true
    · have e5 : row5 k a w = setViewer k .held .reconciled w := if_pos h5
      have h := setViewer_moved k .held .reconciled w (by rw [h5.1]; simp)
      have e6 : row6 k a (setViewer k .held .reconciled w) = setViewer k .held .reconciled w :=
        if_neg (by rw [h.1]; simp)
      rw [if_pos h5, e5, e6]; exact h
    · have e5 : row5 k a w = w := if_neg h5
      rw [if_neg h5, e5]
      unfold row6
      split
      · rfl
      · rfl

/-- Row 3 of R141. -/
theorem row3_judged (k : LinkId) (a : Alive) (x : State) :
    row3 k a x = (if (x.link k).inbound = .none ∧ a.outbound = .active then
        x.modLink k (enqueueFrame (.endSession .viewer .peerEnded))
      else x) ∧ ((row3 k a x).link k).viewer = (x.link k).viewer := by
  unfold row3
  cases (x.link k).inbound <;> cases a.outbound <;> simp [sendFrame]

/-- Rows 7 and 8 of R141. -/
theorem rows78_judged (k : LinkId) (a : Alive) (y : State) :
    match (y.link k).outbound, a.inbound with
      | .offered h v _, .active => outboundActivated k h v .peerActive y (row8 k a (row7 k a y))
      | .active _ _, .none => outboundEnded k none .peerEnded y (row8 k a (row7 k a y))
      | _, _ => row8 k a (row7 k a y) = y := by
  have h8 := outEnd_ended k none .peerEnded y
  unfold row7
  cases ho : (y.link k).outbound with
  | none => cases ha : a.inbound <;> simp [row8, ho]
  | offered h v d =>
    cases ha : a.inbound with
    | active =>
      dsimp only
      have : ∀ x, row8 k a x = x := by
        intro x
        unfold row8; rw [ha]; cases (x.link k).outbound <;> rfl
      rw [this]; exact outActivate_activated k h v .peerActive y
    | _ => simp [row8, ho]
  | active h v => cases ha : a.inbound <;> simp [row8, ho, ha, h8]

/-- Row 9 of R141. -/
theorem row9_judged (k : LinkId) (a : Alive) (z : State) :
    match (z.link k).outbound with
    | .active h _ =>
      if (z.control h.comp).holder = .link k ∧ a.viewer = .none then
        controlReturned h.comp k .reconciled z (row9 k a z)
      else row9 k a z = z
    | _ => row9 k a z = z := by
  unfold row9
  cases (z.link k).outbound with
  | active h v =>
    dsimp only [Outbound.activeHead]
    split
    · exact returnToDesk_made h.comp k .reconciled z
    · rfl
  | _ => rfl

/-- Reconciliation judges the nine rows of R141. -/
theorem reconcile_reconciled (k : LinkId) (a : Alive) (s : State) : reconciled k a s (reconcile k a s) := by
  have h12 := rows12_judged k a s
  generalize hx : row2 k a (row1 k a s) = x at h12
  obtain ⟨h3, hv⟩ := row3_judged k a x
  have h46 := rows46_judged k a (row3 k a x)
  generalize hy : row6 k a (row5 k a (row4 k a (row3 k a x))) = y at h46
  rw [hv, h3] at h46
  have h78 := rows78_judged k a y
  generalize hz : row8 k a (row7 k a y) = z at h78
  have h9 := row9_judged k a z
  have : reconcile k a s = row9 k a z := by
    subst hz; subst hy; subst hx; rfl
  rw [this]
  exact ⟨x, y, z, h12, h46, h78, h9⟩

end Sys2Proof.Machine
end

