-- ==== Sys2Proof/WellFormed.lean ====
section
/-!
DEFINITION. Which commands are well formed: their operands are ones that the outside of the part can give. The
meaning of a command that is not well formed is defined all the same.
-/

namespace Sys2Proof

open Sys2Proof.Machine

/-- A request body fits in a supervisor frame: L is at most 250, and it counts the kind and the tag (R187). -/
def bodyFits (body : List Byte) : Bool := decide (body.length ≤ 248)

/-- Each field of a measured mode is held in 16 bits (R197). -/
def Mode.fits (m : Mode) : Bool := decide (m.width ≤ 65535 ∧ m.height ≤ 65535 ∧ m.refresh ≤ 65535)

/-- Whether a command is well formed. -/
def Instr.WellFormed : Instr → Bool
  | .deviceReset _ => true
  | .warmReset => true
  | .supervisorFrameReceived _ => true
  | .gapTimeout => true
  | .byteError => true
  | .transmitDone => true
  | .unknownKind kind _ body => bodyFits body && !kindNamed kind
  | .getStatus _ b | .reset _ b | .subscribe _ b | .unsubscribe _ b | .setLock _ b => bodyFits b
  | .setComputer _ b | .getComputer _ b | .setHead _ b | .setLayout _ b | .getLayout _ b | .setDesk _ b => bodyFits b
  | .setPointer _ b | .placePointer _ b | .getPointer _ b => bodyFits b
  | .setFocus _ b | .getFocus _ b | .setBroadcast _ b => bodyFits b
  | .getPort _ b | .clearCounters _ b | .setPort _ b => bodyFits b
  | .setHotkey _ b | .getHotkey _ b | .clearHotkey _ b | .trigger _ b | .setHotkeyTiming _ b => bodyFits b
  | .switch _ b | .getOutput _ b | .setOutput _ b | .storeScene _ b | .recallScene _ b | .getHead _ b => bodyFits b
  | .blank _ b | .resume _ b | .setBlank _ b => bodyFits b
  | .setLink _ b | .getLink _ b | .offerShare _ b | .acceptShare _ b | .declineShare _ b | .endShare _ b => bodyFits b
  | .grantControl _ b | .refuseClaim _ b | .takeBack _ b | .claimControl _ b | .releaseControl _ b
  | .getControl _ b => bodyFits b
  | .wake _ b | .getPower _ b => bodyFits b
  | .setLine _ b | .getLines _ b | .driveLine _ b => bodyFits b
  | .deskKeyboardReport _ _ => true
  | .deskKeyboardAttach | .deskKeyboardDetach => true
  | .deskPointerReport _ _ _ _ => true
  | .deskPointerAttach | .deskPointerDetach => true
  | .tapWindowExpiry | .commandWindowExpiry => true
  | .lineWindowExpiry _ => true
  | .portAttach _ | .portConfigure _ | .portSuspend _ | .portResume _ | .busReset _ | .portDetach _ => true
  | .formatSelect _ _ _ | .remoteWakeSet _ _ | .lightReport _ _ | .keyboardPoll _ | .pointerPoll _ => true
  | .signalFound _ => true
  | .modeMeasured _ m => Mode.fits m
  | .signalLost _ => true
  | .switchStart => true
  | .blankEnd _ | .lockStable _ | .lockTimeout _ => true
  | .holdExpiry => true
  | .linePinChange _ _ _ | .lineFilterExpiry _ => true
  | .wakeSignalEnd _ | .wakeBusStageEnd _ | .wakePulseEnd _ | .wakeDeadline _ => true
  | .quietTimeReached _ => true
  | .aliveTimer _ | .linkSilence _ | .outboundOfferTimeout _ | .inboundOfferTimeout _ => true
  | .linkFrameDamaged _ _ => true
  | .alive _ a => LinkMsg.sendable (.alive a)
  | .offer _ o => LinkMsg.sendable (.offer o)
  | .accept _ | .decline _ _ | .endSession _ _ _ => true
  | .mode _ m p => LinkMsg.sendable (.mode m p)
  | .claim _ _ | .grant _ | .deny _ _ | .release _ | .revoke _ => true
  | .keys _ ks => LinkMsg.sendable (.keys ks)
  | .pointer _ f => LinkMsg.sendable (.pointer f)
  | .linkSendDone _ => true
  | .lengthError len => decide (len.toNat < 2 ∨ 250 < len.toNat)

end Sys2Proof
end

