-- ==== Sys2Proof/Tests/Slice0.lean ====
section
/-!
SUPPORT. Tests: what WellFormed refuses, values of the manual's worked cases, and for each statement with hypotheses
a state and operands that meet them.
-/

namespace Sys2Proof.Tests

open Sys2Proof Sys2Proof.Machine

/-- The state after one command; the state itself where none follows. -/
def after (c : Instr) (s : State) : State :=
  match exec c s with
  | .next t => t
  | _ => s

/-! ### Well-formed commands -/

theorem test_wf_request : Instr.WellFormed (.setLock 1 [2]) = true := by decide
theorem test_wf_long_body (tag : Byte) (body : List Byte) (h : 248 < body.length) :
    Instr.WellFormed (.setLock tag body) = false := by
  simp [Instr.WellFormed, bodyFits]
  omega
theorem test_wf_longest_body (tag : Byte) (body : List Byte) (h : body.length = 248) :
    Instr.WellFormed (.setLock tag body) = true := by
  simp [Instr.WellFormed, bodyFits, h]
theorem test_wf_unknown_kind : Instr.WellFormed (.unknownKind 0x7E 6 []) = true := by decide
theorem test_wf_known_kind : Instr.WellFormed (.unknownKind 0x40 6 []) = false := by decide
theorem test_wf_wide_mode : Instr.WellFormed (.modeMeasured ⟨0, .a⟩ ⟨65536, 1080, 6000⟩) = false := by decide
theorem test_wf_alive_no_zone : Instr.WellFormed (.alive 0 ⟨0, .none, false, .none, .none⟩) = false := by decide
theorem test_wf_offer_one_zero :
    Instr.WellFormed (.offer 0 ⟨⟨0, .a⟩, ⟨0, 1080, 6000⟩, .absolute, 0⟩) = false := by decide
theorem test_wf_mode_one_zero : Instr.WellFormed (.mode 0 ⟨1920, 0, 6000⟩ .absolute) = false := by decide
theorem test_wf_mode_no_signal : Instr.WellFormed (.mode 0 ⟨0, 0, 0⟩ .absolute) = true := by decide
theorem test_wf_keys_too_many : Instr.WellFormed (.keys 0 ⟨0, List.range' 4 33⟩) = false := by decide
theorem test_wf_keys_range : Instr.WellFormed (.keys 0 ⟨0, [3]⟩) = false := by decide
theorem test_wf_keys_twice : Instr.WellFormed (.keys 0 ⟨0, [4, 4]⟩) = false := by decide
theorem test_wf_keys_most : Instr.WellFormed (.keys 0 ⟨0, List.range' 192 32⟩) = true := by decide
theorem test_wf_pointer_wide : Instr.WellFormed (.pointer 0 (.relative 0 2048 0 0)) = false := by decide
theorem test_wf_pointer : Instr.WellFormed (.pointer 0 (.relative 0 (-2047) 2047 (-127))) = true := by decide
theorem test_wf_length_good : Instr.WellFormed (.lengthError 2) = false := by decide
theorem test_wf_length_error : Instr.WellFormed (.lengthError 251) = true := by decide

/-! ### Commands and their queue -/

theorem test_no_word_spells_a_command : decodeTableWord 8 0x11 = none := rfl
theorem test_step_takes_front :
    step { State.reset with pending := [.deskPointerAttach, .warmReset] } =
      exec .deskPointerAttach { State.reset with pending := [.warmReset] } := rfl

/-! ### Worked values -/

/-- 2.1.1, the three events. -/
theorem test_gain_1 : stageA 0 7 24 = (10, 8) := by decide
theorem test_gain_2 : stageA 8 (-3) 24 = (-4, 0) := by decide
theorem test_gain_3 : stageA 0 (-1) 24 = (-1, -8) := by decide
/-- 2.6.1, stages C and E. -/
theorem test_head_pixel : stageC 5280 4480 1600 2560 = 1280 ∧ stageC 450 0 900 1440 = 720 := by decide
theorem test_absolute : stageE 3200 4480 = 23410 ∧ stageE 720 1440 = 16395 := by decide
/-- 2.6.2, the limits. -/
theorem test_absolute_limits : stageE 0 1 = 0 ∧ stageE 1919 1920 = 32767 ∧ stageC 7 0 8 8192 = 7168 := by decide
/-- 2.7.1, after the MODE frame. -/
theorem test_absolute_shared : stageE 1880 1920 = 32101 ∧ stageE 1000 1080 = 30368 := by decide
/-- 1.3.2 and 1.3.3, the layout taken and the one refused. -/
theorem test_layout_taken :
    layoutOk [⟨3, 1920, 1440, 1920, 1080⟩, ⟨0, 0, 0, 1920, 1080⟩, ⟨2, 0, 1080, 1920, 1080⟩, ⟨1, 1920, 0, 2560, 1440⟩]
      = true := by decide
theorem test_layout_refused :
    layoutOk [⟨0, 0, 0, 1920, 1080⟩, ⟨1, 1900, 0, 1920, 1080⟩, ⟨2, 3820, 0, 1920, 1080⟩] = false := by decide

/-- 4.5.1, the sixth record merges and 183 of it joins the carry. -/
theorem test_merge_and_carry :
    let p := pushPointer (.relative 0 200 0 0) { Port.reset with
      pointerQueue := [127, 50, -20, 110].map fun x => .relative 0 x 0 0, cx := 173 }
    p.pointerQueue = [127, 50, -20, 127].map (fun x => .relative 0 x 0 0) ∧ p.cx = 356 := by decide
/-- The published check value of the CRC-16 with polynomial 0x1021 and initial value 0xFFFF, over "123456789". -/
theorem test_crc : crc16 [0x31, 0x32, 0x33, 0x34, 0x35, 0x36, 0x37, 0x38, 0x39] = 0x29B1 := by decide +kernel

/-! ### States for the tests of one command -/

/-- The body of the newest reply after a command: the result code first. -/
def answer (c : Instr) (s : State) : Option (List Byte) := (after c s).sup.replies.getLast?.map SupFrame.body
/-- The port of a computer in a bus state. -/
def bus (n : Comp) (b : BusState) (s : State) : State := s.modPort n fun p => { p with bus := b }
/-- The desk keyboard attached, with a held set. -/
def typing (k : KeyState) (s : State) : State := s.modKeyboard fun p => { p with attached := true, held := k }
/-- A link that is UP with a peer of every zone. -/
def up (k : LinkId) (s : State) : State :=
  s.modLink k fun l => { l with up := true, lastValid := some 0, peerZones := 15 }
/-- C1A. -/
def c1a : Head := ⟨0, .a⟩
/-- An offer of C1A at 1920 × 1080. -/
def anOffer : Offer := ⟨c1a, ⟨1920, 1080, 6000⟩, .absolute, 0⟩
/-- An UP link whose outbound session is ACTIVE on C1A. -/
def owner (k : LinkId) : State := (up k State.reset).modLink k fun l => { l with outbound := .active c1a false }
/-- An UP link whose inbound session is ACTIVE, with a viewer control state. -/
def viewing (k : LinkId) (v : ViewerControl) : State :=
  (up k State.reset).modLink k fun l => { l with inbound := .active anOffer, viewer := v }
/-- C1 held by a link. -/
def held (k : LinkId) : State := (owner k).modControl 0 fun c => { c with holder := .link k }
/-- A wake attempt of C1. -/
def waking (a : Attempt) : State := (bus 0 .suspended State.reset).modWake 0 fun w => { w with attempt := a }
/-- The fields of an attempt that started at 0 by method BOTH. -/
def flight : Flight := ⟨.both, 0, 8000, 300⟩
/-- A line with a configuration. -/
def wired (l : LineId) (r : Role) (filter : Nat) (s : State) : State :=
  s.modLine l fun x => { x with config := { x.config with role := r, filter := filter } }
/-- An output in a state, showing C1A. -/
def output (o : OutputId) (x : OutputState) (s : State) : State :=
  s.modOut o fun p => { p with state := x, assignment := some (.head c1a) }
/-- The newest frame a link has waiting to be sent. -/
def sent (k : LinkId) (c : Instr) (s : State) : Option LinkMsg := ((after c s).link k).sendQueue.getLast?

/-! ### One step of a command -/

/-- R195. -/
theorem test_device_reset : (after (.deviceReset .resetPin) State.reset).sup.sending = some ⟨0xF0, 0, [1]⟩ :=
  by decide
/-- R194. -/
theorem test_warm_reset :
    (after .warmReset { State.reset with lock := ⟨2, true⟩, sup := { State.reset.sup with resetDue := true } }).lock =
      ⟨0, false⟩ := by decide +kernel
/-- R187: a GET_FOCUS behind a stray byte, its CRC at the end. -/
theorem test_supervisor_frame :
    (after (.supervisorFrameReceived (0x55 :: supWire 0x29 9 [])) State.reset).sup.requests = [⟨0x29, 9, []⟩] := by
  decide +kernel
theorem test_gap : (after .gapTimeout
    { State.reset with sup := { State.reset.sup with receiver := [(0xC3, 0)] } }).sup.gapErrors = 1 := by decide +kernel
theorem test_byte_error : (after .byteError
    { State.reset with sup := { State.reset.sup with receiver := [(0xC3, 0)] } }).sup.byteErrors = 1 := by decide
theorem test_length_error : (after (.lengthError 251)
    { State.reset with sup := { State.reset.sup with receiver := [(0xC3, 0)] } }).sup.lengthErrors = 1 := by decide
theorem test_transmit_done : (after .transmitDone State.reset).sup.sending = none := by decide
/-- 12.5: kind 0x7E, tag 6. -/
theorem test_unknown_kind : (after (.unknownKind 0x7E 6 []) State.reset).sup.replies = [⟨0xFF, 6, [3]⟩] := by decide
theorem test_get_status_part : (answer (.getStatus 1 []) State.reset).map (List.take 3) = some [0, 0x84, 1] :=
  by decide
theorem test_reset_reply : (after (.reset 1 []) State.reset).sup.replies = [⟨0x82, 1, [0]⟩] := by decide
theorem test_subscribe : answer (.subscribe 1 [1])
    { State.reset with sup := { State.reset.sup with classes := 0x80 } } = some [0, 0x81] := by decide
theorem test_unsubscribe : answer (.unsubscribe 1 [1]) State.reset = some [0, 0xFE] := by decide
/-- 1.5.1: SET_LOCK 2, then SET_LOCK 3. -/
theorem test_set_lock : (after (.setLock 1 [2]) State.reset).lock = ⟨2, true⟩ := by decide
theorem test_set_lock_again : answer (.setLock 1 [3]) { State.reset with lock := ⟨2, true⟩ } = some [6] := by decide
/-- 1.5.1: at level 2, VW may change and the zone may not. -/
theorem test_set_computer : ((after
    (.setComputer 1 [3, 0, 0, 2, 0x0B, 0xB8, 1, 0, 0x1F, 0x40, 1, 0x2C, 0x16, 0x80, 4, 0x38])
    { State.reset with lock := ⟨2, true⟩ }).comp 2).vw = 5760 := by decide
theorem test_set_computer_locked : answer
    (.setComputer 1 [3, 1, 0, 2, 0x0B, 0xB8, 0, 0, 0x1F, 0x40, 1, 0x2C, 7, 0x80, 4, 0x38])
    { State.reset with lock := ⟨2, true⟩ } = some [6] := by decide
theorem test_get_computer_range : answer (.getComputer 1 [9]) State.reset = some [5] := by decide
theorem test_set_head : (after (.setHead 1 [5, 1, 1, 7, 0x80, 0, 0, 10, 0, 5, 0xA0]) State.reset).headMap ⟨4, .b⟩ =
    ⟨true, 1920, 0, 2560, 1440⟩ := by decide
/-- 2.5.1: the pointer at (3000, 900) is held within the new tile of M2. -/
theorem test_set_layout : (after
    (.setLayout 1 [3, 1, 0, 0, 0, 0, 7, 0x80, 4, 0x38, 2, 7, 0x80, 0, 0, 5, 0, 2, 0xD0, 4, 0x0C, 0x80, 0, 0, 7, 0x80, 4, 0x38])
    { State.reset with pointer := { State.reset.pointer with px := 3000, py := 900 } }).pointer.py = 719 := by decide
theorem test_get_layout : (answer (.getLayout 1 []) State.reset).map (List.take 2) = some [0, 4] := by decide
theorem test_set_desk : (after (.setDesk 1 [5, 1]) State.reset).desk = ⟨5, .block⟩ := by decide
theorem test_set_pointer : (after (.setPointer 1 [24, 0, 40, 0, 0xFA]) State.reset).pointer.threshold = 40 :=
  by decide
/-- R31: clamped into the tile of M2. -/
theorem test_place_pointer : (after (.placePointer 1 [2, 0, 0, 0xFF, 0xFF]) State.reset).pointer.px = 1920 :=
  by decide
theorem test_get_pointer : (answer (.getPointer 1 []) State.reset).map (List.take 1) = some [0] := by decide
/-- 3.9: the focus on C2 puts the pointer at the centre of M2. -/
theorem test_set_focus :
    let s := after (.setFocus 1 [2]) (State.reset.modOut 1 fun o => { o with assignment := some (.head ⟨1, .a⟩) })
    s.focus = ⟨.loc 1, .request, some 1⟩ ∧ s.pointer.px = 2880 := by decide
theorem test_get_focus : (answer (.getFocus 1 []) State.reset).map (List.take 2) = some [0, 1] := by decide
theorem test_set_broadcast : ((after (.setBroadcast 1 [1, 0x13]) State.reset).comp 4).member = true := by decide
theorem test_get_port_range : answer (.getPort 1 [0]) State.reset = some [5] := by decide
theorem test_clear_counters : ((after (.clearCounters 1 [1])
    (State.reset.modPort 0 fun p => { p with noticed := true })).port 0).noticed = false := by decide
theorem test_set_port : ((after (.setPort 1 [2, 17]) State.reset).port 1).flow = 16 := by decide
theorem test_set_hotkey : (after (.setHotkey 1 [12, 4, 3, 2, 2, 0, 0]) State.reset).hotkey 12 =
    some ⟨.line 3 2, .focusNext⟩ := by decide
theorem test_get_hotkey_range : answer (.getHotkey 1 [32]) State.reset = some [5] := by decide
/-- R85, R197: the key, the taps done and the press pending of TAPPING, each behind its own presence byte. -/
theorem test_get_hotkey_tapping : (answer (.getHotkey 1 [0])
    (State.reset.modMatcher fun m => { m with state := .tapping 71 1 true none })).map (fun b => (b.drop 11).take 7) =
      some [1, 1, 71, 1, 1, 1, 1] := by decide
theorem test_clear_hotkey : (after (.clearHotkey 1 [0]) State.reset).hotkey 0 = none := by decide
theorem test_trigger : (after (.trigger 1 [0, 0, 0]) State.reset).matcher.state = .command 2000 := by decide
/-- 1.5.1: a tap window of 500 at level 2. -/
theorem test_set_hotkey_timing : answer (.setHotkeyTiming 1 [1, 0xF4, 7, 0xD0])
    { State.reset with lock := ⟨2, true⟩ } = some [6] := by decide
theorem test_switch : ((after (.switch 1 [2, 11]) (output 1 .noSignal State.reset)).out 1).pendingSlot =
    some (some (.head ⟨5, .a⟩)) := by decide
theorem test_get_output_range : answer (.getOutput 1 [7]) State.reset = some [5] := by decide
theorem test_set_output : ((after (.setOutput 1 [1, 0, 1, 0, 0, 0, 1]) State.reset).out 0).restTime = 20 := by decide
theorem test_store_scene : ((after (.storeScene 1 [3, 5, 2, 2, 0, 1, 9]) State.reset).scene 3) =
    some ⟨[(0, some (.head ⟨4, .a⟩)), (1, none)], some 4⟩ := by decide
theorem test_recall_empty : answer (.recallScene 1 [3]) State.reset = some [11] := by decide
theorem test_get_head_range : answer (.getHead 1 [19]) State.reset = some [5] := by decide
theorem test_blank : (after (.blank 1 []) State.reset).blank.state = .engaged ⟨false, false, true⟩ := by decide
/-- 7.7: RESUME at 1200 ms. -/
theorem test_resume_refused : answer (.resume 1 []) (State.reset.modBlank fun b =>
    { b with state := .engaged ⟨true, false, true⟩, asserted := [5] }) = some [7] := by decide
theorem test_set_blank : answer (.setBlank 1 [1, 0xFF, 0xFF, 0]) State.reset = some [0, 1, 0x27, 0x10, 0] := by decide
theorem test_set_link : ((after (.setLink 1 [1, 0]) (up 0 State.reset)).link 0).up = false := by decide
theorem test_get_link_range : answer (.getLink 1 [3]) State.reset = some [5] := by decide
/-- R149, R197: the head and the view-only flag of an outbound session, each behind its own presence byte. -/
theorem test_get_link_outbound : (answer (.getLink 1 [1])
    (State.reset.modLink 0 fun l => { l with outbound := .active ⟨2, .b⟩ true })).map (fun b => (b.drop 17).take 6) =
      some [2, 1, 3, 1, 1, 1] := by decide
theorem test_offer_down : answer (.offerShare 1 [1, 1, 0, 1]) State.reset = some [10] := by decide
theorem test_offer_share : ((after (.offerShare 1 [1, 1, 0, 1]) (up 0 State.reset)).link 0).outbound =
    .offered c1a false 0 := by decide
theorem test_accept_share : ((after (.acceptShare 1 [1])
    ((up 0 State.reset).modLink 0 fun l => { l with inbound := .offeredIn anOffer 0 })).link 0).inbound =
    .active anOffer := by decide
theorem test_decline_share : sent 0 (.declineShare 1 [1])
    ((up 0 State.reset).modLink 0 fun l => { l with inbound := .offeredIn anOffer 0 }) =
    some (.decline .user) := by decide
theorem test_end_share : sent 0 (.endShare 1 [1, 0]) (owner 0) =
    some (.endSession .owner .user) := by decide
theorem test_grant_control : ((after (.grantControl 1 [1, 0])
    ((owner 0).modControl 0 fun c => { c with claims := [⟨0, 0, false⟩] })).control 0).holder = .link 0 := by decide
theorem test_refuse_claim : sent 0 (.refuseClaim 1 [1, 1])
    ((owner 0).modControl 0 fun c => { c with claims := [⟨0, 0, false⟩] }) =
    some (.deny .refused) := by decide
theorem test_take_back : sent 0 (.takeBack 1 [1]) (held 0) = some .revoke := by decide
theorem test_claim_control : ((after (.claimControl 1 [1, 1]) (viewing 0 .none)).link 0).viewer = .requested :=
  by decide
theorem test_release_control : ((after (.releaseControl 1 [1]) (viewing 0 .held)).link 0).viewer = .none := by decide
theorem test_get_control : (answer (.getControl 1 [1]) State.reset).map (List.take 1) = some [0] := by decide
/-- 10.8, at 0 ms. -/
theorem test_wake : ((after (.wake 1 [1])
    ((bus 0 .suspended State.reset).modPort 0 fun p => { p with remoteWake := true })).wakeOf 0).attempt =
    .busSignal ⟨.bus, 0, 8000, 300⟩ 10 := by decide
theorem test_wake_not_permitted : ((after (.wake 1 [1]) (bus 0 .suspended State.reset)).wakeOf 0).attempt =
    .failed .notPermitted := by decide
theorem test_get_power_range : answer (.getPower 1 [0]) State.reset = some [5] := by decide
/-- R177, R197: the powered flag after a reset is UNKNOWN, a field without a value. -/
theorem test_get_power_unknown : (answer (.getPower 1 [1]) State.reset).map (fun b => (b.drop 35).take 2) =
    some [0, 0] := by decide
theorem test_set_line : ((after (.setLine 1 [9, 5, 1, 1, 0, 0, 0, 0, 0]) State.reset).line 9).level = true :=
  by decide
theorem test_get_lines : (answer (.getLines 1 []) State.reset).map (List.take 1) = some [0] := by decide
theorem test_drive_line : answer (.driveLine 1 [0, 1]) State.reset = some [7] := by decide
/-- 3.9: left control pressed. -/
theorem test_keyboard_report : ((after (.deskKeyboardReport 1 [])
    (typing ⟨0, []⟩ (bus 0 .active State.reset))).port 0).keyQueue = [⟨.full, 1, []⟩] := by decide
/-- R51: a seventh key in boot format. -/
theorem test_keyboard_rollover : ((after (.deskKeyboardReport 0 [4, 5, 6, 7, 8, 9, 10])
    (typing ⟨0, [4, 5, 6, 7, 8, 9]⟩ ((bus 0 .active State.reset).modPort 0 fun p =>
      { p with keyFormat := .boot }))).port 0).keyQueue = [⟨.rollover, 0, [1, 1, 1, 1, 1, 1]⟩] := by decide
theorem test_keyboard_attach : (after .deskKeyboardAttach State.reset).keyboard.attached = true := by decide
theorem test_keyboard_detach : (after .deskKeyboardDetach (typing ⟨2, [4]⟩ State.reset)).keyboard.held = ⟨0, []⟩ :=
  by decide
/-- 2.3.2, the third push crosses. -/
theorem test_pointer_report : (after (.deskPointerReport 15 0 0 0) { State.reset with
    now := 180, mouse := ⟨true, 0⟩
    pointer := { State.reset.pointer with
      px := 1919, py := 700, threshold := 40, pressure := ⟨some (0, .right), 28, some 100⟩ } }).pointer.px =
    1920 := by decide +kernel
/-- 2.3.2, the third push at 400 ms does not. -/
theorem test_pointer_dwell : (after (.deskPointerReport 15 0 0 0) { State.reset with
    now := 400, mouse := ⟨true, 0⟩
    pointer := { State.reset.pointer with
      px := 1919, py := 700, threshold := 40, pressure := ⟨some (0, .right), 28, some 100⟩ } }).pointer.pressure.amount =
    15 := by decide
theorem test_pointer_attach : (after .deskPointerAttach State.reset).mouse = ⟨true, 0⟩ := by decide
theorem test_pointer_detach : (after .deskPointerDetach { State.reset with mouse := ⟨true, 3⟩ }).mouse = ⟨false, 0⟩ := by
  decide
theorem test_tap_window : (after .tapWindowExpiry
    (State.reset.modMatcher fun m => { m with state := .tapping 71 1 false (some 400) })).matcher.state = .idle :=
  by decide
theorem test_command_window : (after .commandWindowExpiry
    (State.reset.modMatcher fun m => { m with state := .command 2000 })).matcher.state = .idle := by decide
/-- 5.8.2, at 1400 ms. -/
theorem test_line_window : (after (.lineWindowExpiry 3)
    (State.reset.setLineTrigger 3 ⟨1, some 1400⟩)).lineTrigger 3 = ⟨0, none⟩ := by decide
theorem test_port_attach : ((after (.portAttach 0) State.reset).port 0).bus = .attached := by decide
theorem test_port_configure : ((after (.portConfigure 0) (bus 0 .attached State.reset)).port 0).bus = .active :=
  by decide
theorem test_port_suspend : ((after (.portSuspend 0) (bus 0 .active State.reset)).port 0).bus = .suspended :=
  by decide
/-- 4.9: the resume keeps the newest record. -/
theorem test_port_resume :
    let s := (bus 0 .suspended State.reset).modPort 0 fun p => { p with keyQueue := [⟨.full, 0, [4]⟩, ⟨.full, 0, []⟩] }
    ((after (.portResume 0) s).port 0).keyQueue = [⟨.full, 0, []⟩] ∧
      ((after (.portResume 0) s).port 0).counters.keyTrimmed = 1 := by decide
/-- 4.2.1: the bus reset. -/
theorem test_bus_reset :
    let s := (bus 0 .active State.reset).modPort 0 fun p =>
      { p with keyQueue := [⟨.full, 0, [4]⟩, ⟨.full, 0, [4, 5]⟩], cx := 40, pointerFormat := .boot }
    let p := (after (.busReset 0) s).port 0
    p.bus = .attached ∧ p.cx = 0 ∧ p.pointerFormat = .full ∧ p.counters.keyFlushed = 2 := by decide
theorem test_port_detach : ((after (.portDetach 0) (bus 0 .active State.reset)).port 0).bus = .detached := by decide
theorem test_format_select : ((after (.formatSelect 0 .pointer .boot) (bus 0 .active State.reset)).port 0).pointerFormat =
    .boot := by decide
theorem test_remote_wake : ((after (.remoteWakeSet 0 true) (bus 0 .active State.reset)).port 0).remoteWake = true :=
  by decide
theorem test_light_report : (after (.lightReport 0 ⟨true, false, true⟩)
    (typing ⟨0, []⟩ (bus 0 .active State.reset))).keyboard.lightsSent = some ⟨true, false, true⟩ := by decide
/-- R67: a boot record is filled to six positions. -/
theorem test_keyboard_poll : ((after (.keyboardPoll 0) ((bus 0 .active State.reset).modPort 0 fun p =>
    { p with keyQueue := [⟨.boot, 1, [4]⟩] })).port 0).keyAnswer = some (.report 1 [4, 0, 0, 0, 0, 0]) := by decide
/-- 4.5.1, poll 7. -/
theorem test_pointer_poll : ((after (.pointerPoll 0) ((bus 0 .active State.reset).modPort 0 fun p =>
    { p with pointerFormat := .boot, cx := 102 })).port 0).pointerAnswer = some (.report (.relative 0 102 0 0)) :=
  by decide
theorem test_signal_found : (after (.signalFound c1a) State.reset).input (.head c1a) = .unmeasured := by decide
theorem test_mode_measured : ((after (.modeMeasured c1a ⟨1920, 1080, 6000⟩)
    (output 0 (.locking 1500 none) State.reset)).out 0).state = .locking 1500 (some 0) := by decide
theorem test_signal_lost : ((after (.signalLost c1a)
    ((output 0 .showing State.reset).setInput (.head c1a) (.measured ⟨1920, 1080, 6000⟩))).out 0).state = .noSignal := by
  decide
/-- 6.8.2: M1 starts first. -/
theorem test_switch_start : ((after .switchStart State.reset).out 0).state =
    .blanking (some (.head c1a)) 20 := by decide
theorem test_blank_end : ((after (.blankEnd 0) (output 0 (.blanking none 20) State.reset)).out 0).state = .dark :=
  by decide
theorem test_lock_stable : ((after (.lockStable 0) (output 0 (.locking 1500 (some 20)) State.reset)).out 0).state =
    .showing := by decide
theorem test_lock_timeout : ((after (.lockTimeout 0) (output 0 (.locking 1500 none) State.reset)).out 0).state =
    .noSignal := by decide
theorem test_hold_expiry : (after .holdExpiry (State.reset.modBlank fun b =>
    { b with state := .recovering 5000 })).blank.state = .clear := by decide
/-- 11.8, at 0 ms. -/
theorem test_pin_change : ((after (.linePinChange 3 true true)
    ((wired 3 .trigger 10 State.reset).modLine 3 fun x =>
      { x with filtered := some false, candidate := none })).line 3).candidate = some (true, 0) := by decide
/-- 11.8, at 15 ms. -/
theorem test_filter_expiry :
    let s := after (.lineFilterExpiry 3) ((wired 3 .trigger 10 State.reset).modLine 3 fun x =>
      { x with filtered := some false, candidate := some (true, 5) })
    (s.line 3).filtered = some true ∧ s.now = 15 := by decide
/-- 10.8, at 10, 2000 and 2300 ms. -/
theorem test_wake_signal_end : ((after (.wakeSignalEnd 0) (waking (.busSignal flight 10))).wakeOf 0).attempt =
    .wait flight .busStage 2000 := by decide
theorem test_wake_bus_stage_end : ((after (.wakeBusStageEnd 0)
    (wired 7 (.wakePulse 0) 0 (waking (.wait flight .busStage 2000)))).wakeOf 0).attempt =
    .pulse flight 7 2300 := by decide
theorem test_wake_pulse_end : ((after (.wakePulseEnd 0)
    (wired 7 (.wakePulse 0) 0 (waking (.pulse flight 7 2300)))).wakeOf 0).attempt = .wait flight .final 8000 :=
  by decide
theorem test_wake_deadline : ((after (.wakeDeadline 0) (waking (.wait flight .final 8000))).wakeOf 0).attempt =
    .failed .timeout := by decide
/-- 9.8: the quiet time grants the oldest claim. -/
theorem test_quiet_time : ((after (.quietTimeReached 0)
    (((owner 0).modComp 0 fun c => { c with policy := .auto }).modControl 0 fun c =>
      { c with claims := [⟨0, 0, false⟩] })).control 0).holder = .link 0 := by decide
theorem test_alive_timer : ((after (.aliveTimer 0) State.reset).link 0).sending.map LinkMsg.kind = some 1 := by decide
theorem test_link_silence : ((after (.linkSilence 0) (up 0 State.reset)).link 0).up = false := by decide
theorem test_outbound_timeout : ((after (.outboundOfferTimeout 0)
    ((up 0 State.reset).modLink 0 fun l => { l with outbound := .offered c1a false 0 })).link 0).outbound = .none :=
  by decide
theorem test_inbound_timeout : sent 0 (.inboundOfferTimeout 0)
    ((up 0 State.reset).modLink 0 fun l => { l with inbound := .offeredIn anOffer 0 }) =
    some (.decline .timeout) := by decide
/-- 8.8, the damaged ACCEPT. -/
theorem test_frame_damaged : ((after (.linkFrameDamaged 0 [0x3C, 3, 0, 1, 1]) State.reset).link 0).counters.crcErrors =
    1 := by decide +kernel
theorem test_alive : ((after (.alive 0 ⟨3, .none, false, .none, .none⟩) State.reset).link 0).peerZones = 3 :=
  by decide
/-- 8.8, the ALIVE that reports the session ACTIVE. -/
theorem test_alive_active : ((after (.alive 0 ⟨3, .none, false, .active, .none⟩)
    ((up 0 State.reset).modLink 0 fun l => { l with outbound := .offered c1a false 0 })).link 0).outbound =
    .active c1a false := by decide
theorem test_offer : ((after (.offer 0 anOffer) (up 0 State.reset)).link 0).inbound = .offeredIn anOffer 0 :=
  by decide
theorem test_accept : ((after (.accept 0)
    ((up 0 State.reset).modLink 0 fun l => { l with outbound := .offered c1a false 0 })).out 4).pendingSlot =
    some (some (.head c1a)) := by decide
theorem test_decline : ((after (.decline 0 .user)
    ((up 0 State.reset).modLink 0 fun l => { l with outbound := .offered c1a false 0 })).link 0).outbound = .none :=
  by decide
theorem test_end : ((after (.endSession 0 .owner .user) (viewing 0 .held)).link 0).viewer = .none := by decide
theorem test_mode : (after (.mode 0 ⟨0, 0, 0⟩ .relative) (viewing 0 .held)).input (.lane 0) = .absent := by decide
theorem test_claim : ((after (.claim 0 .queued) (owner 0)).control 0).claims = [⟨0, 0, false⟩] := by decide
theorem test_grant : ((after (.grant 0) (viewing 0 .requested)).link 0).viewer = .held := by decide
theorem test_deny : ((after (.deny 0 .busy) (viewing 0 .requested)).link 0).viewer = .none := by decide
theorem test_release : ((after (.release 0) (held 0)).control 0).holder = .desk := by decide
theorem test_revoke : ((after (.revoke 0) (viewing 0 .held)).link 0).viewer = .none := by decide
theorem test_keys : ((after (.keys 0 ⟨1, [4]⟩) (bus 0 .active (held 0))).port 0).keyQueue = [⟨.full, 1, [4]⟩] :=
  by decide
/-- 2.7.1, the owner's side of the frame sent before the MODE. -/
theorem test_pointer : ((after (.pointer 0 (.absolute 0 2506 1333 0))
    ((bus 0 .active (held 0)).setInput (.head c1a) (.measured ⟨1920, 1080, 6000⟩))).port 0).pointerQueue =
    [.absolute 0 32767 32767 0] := by decide
theorem test_link_send_done : ((after (.linkSendDone 0)
    (State.reset.modLink 0 fun l => { l with sending := some .grant })).link 0).counters.sent = 1 := by decide

/-! ### Witnesses: for each statement with hypotheses, states and operands that meet them

Every request takes its turn in a state with no request waiting; a clause whose one hypothesis is that turn is met by
`witness_turn`. -/

theorem witness_turn {r : Request} {s : State} (h : s.sup.waiting = none) (h' : s.sup.requests = []) :
    takesTurn r s := ⟨h, .inl h'⟩

/-- The state after reset takes any request. -/
theorem turn (r : Request) : takesTurn r State.reset := witness_turn rfl rfl

/-- An empty hotkey table. -/
def bare : State := { State.reset with hotkeys := Vector.replicate 32 none }

theorem bare_hotkey (j : Fin 32) : bare.hotkey j = none := by
  simp [State.hotkey, pick, bare]

theorem bare_apart : hotkeysApart bare := by
  intro i j d e _ hi
  simp [bare_hotkey] at hi

theorem one_hotkey (i j : Fin 32) (e : HotkeyEntry) :
    (bare.setHotkey i (some e)).hotkey j = if i = j then some e else none := by
  have h := bare_hotkey j
  simp only [State.hotkey, pick] at h
  simp only [State.hotkey, State.setHotkey, pick, upd, Vector.getElem_set, h, Fin.ext_iff]

theorem one_apart (i : Fin 32) (e : HotkeyEntry) (s : State)
    (h : ∀ j, s.hotkey j = (bare.setHotkey i (some e)).hotkey j) : hotkeysApart s := by
  intro a b d f hab ha hb
  rw [h, one_hotkey] at ha hb
  split at ha <;> split at hb <;> simp_all

/-- The state with one entry in the hotkey table and the matcher in a state. -/
def matching (i : Fin 32) (e : HotkeyEntry) (m : MatcherState) : State :=
  (bare.setHotkey i (some e)).modMatcher fun x => { x with state := m }

theorem matching_apart (i : Fin 32) (e : HotkeyEntry) (m : MatcherState) : hotkeysApart (matching i e m) :=
  one_apart i e _ fun _ => rfl

/-- A layout of one tile. -/
def oneTile : List Tile := [⟨0, 0, 0, 1920, 1080⟩]

theorem oneTile_valid : validLayout oneTile := by
  refine ⟨by decide, by decide, by decide, ?_⟩
  exact List.pairwise_singleton _ _

/-- A layout of two tiles side by side. -/
def twoTiles : List Tile := [⟨0, 0, 0, 1920, 1080⟩, ⟨1, 1920, 0, 2560, 1440⟩]

theorem twoTiles_valid : validLayout twoTiles := by
  refine ⟨by decide, by decide, by decide, ?_⟩
  refine List.Pairwise.cons ?_ (List.pairwise_singleton _ _)
  intro b hb
  simp only [List.mem_singleton] at hb
  subst hb
  refine ⟨by decide, fun x y h => ?_⟩
  simp only [Tile.contains, decide_eq_true_eq, decide_eq_false_iff_not] at h ⊢
  omega

theorem layout_empty_invalid : ¬ validLayout [] := fun h => absurd h.1 (by decide)

/-- A state with one tile and the mouse attached. -/
def desk : State := { State.reset with layout := oneTile, mouse := ⟨true, 0⟩ }

/-- A queue in front of which nothing is due. -/
def quietState : State := { State.reset with outputs := Vector.replicate 6 (Output.reset none) }

theorem witness_StepRunsFrontCommand :
    ({ State.reset with pending := [.warmReset, .byteError] }).pending = .warmReset :: [.byteError] ∧
      State.reset.pending = [] ∧ (∃ c cs, dueCommands State.reset = c :: cs) ∧
      quietState.pending = [] ∧ dueCommands quietState = [] :=
  ⟨rfl, rfl, ⟨.switchStart, [], by decide +kernel⟩, rfl, by decide +kernel⟩

/-- Requests and replies that are waiting. -/
def queued (n m : Nat) : State := State.reset.modSup fun p =>
  { p with requests := List.replicate n ⟨0x29, 0, []⟩, replies := List.replicate m ⟨0xA9, 0, [0]⟩ }

theorem witness_RequestsWaitTheirTurn :
    (∀ n ∈ [3, 4], ∀ m ∈ [7, 8], ¬ takesTurn ⟨0x29, 1, []⟩ (queued n m)) ∧
      ¬ takesTurn ⟨0x7E, 1, []⟩ (queued 1 0) := by
  unfold takesTurn
  decide

theorem witness_BadLengthAnswered :
    (kindNamed 0x05 = true ∧ ¬ lengthFits ⟨0x05, 0, [1, 2]⟩ ∧ takesTurn ⟨0x05, 0, [1, 2]⟩ State.reset) ∧
      (kindNamed 0x13 = true ∧ ¬ lengthFits ⟨0x13, 0, [1]⟩ ∧ takesTurn ⟨0x13, 0, [1]⟩ State.reset) :=
  ⟨⟨rfl, by simp [lengthFits, fixedLength], turn _⟩, rfl, by simp [lengthFits], turn _⟩

theorem witness_UnknownKindAnswered :
    (kindNamed 0x7E = false ∧ takesTurn ⟨0x7E, 6, []⟩ (queued 0 7)) ∧ takesTurn ⟨0x7E, 6, []⟩ (queued 0 8) :=
  ⟨⟨rfl, witness_turn rfl rfl⟩, witness_turn rfl rfl⟩

/-- A reply that is being sent, with others behind it. -/
def sending (kind : Byte) (replies : Nat) (w : Option SupFrame) (notices : List SupFrame) : State :=
  (queued 0 replies).modSup fun p => { p with sending := some ⟨kind, 0, [0]⟩, waiting := w, notices := notices }

theorem witness_TransmitDoneTakesNext :
    ∀ s ∈ [sending 0x82 1 none [], sending 0xA9 1 none [], sending 0xA9 8 (some ⟨0xA9, 1, [0]⟩) [],
        sending 0xA9 0 none [⟨0xF4, 0, [2, 0, 0]⟩], sending 0xA9 0 none []],
      (∃ f, s.sup.sending = some f) ∧ s.sup.resetDue = false ∧ s.sup.replies.length ≤ 8 := by
  intro s h
  simp only [List.mem_cons, List.not_mem_nil, or_false] at h
  rcases h with rfl | rfl | rfl | rfl | rfl <;> exact ⟨⟨_, rfl⟩, rfl, by decide⟩

theorem witness_SubscriptionSetWritten :
    takesTurn ⟨0x03, 0, [0xFF]⟩ State.reset ∧ takesTurn ⟨0x04, 0, [0]⟩ State.reset ∧
      takesTurn ⟨0x3B, 0, [14, 0, 0]⟩ State.reset ∧ State.reset.sup.classes.getLsbD 7 = true ∧
      (State.reset.modSup fun p => { p with classes := 0x7F }).sup.classes.getLsbD 7 = false ∧
      (∀ n ∈ [15, 16], (State.reset.modSup fun p => { p with
        notices := List.replicate n ⟨0xF4, 0, []⟩ }).sup.notices.length = n) :=
  ⟨turn _, turn _, turn _, by decide, by decide, by decide⟩

theorem witness_StatusReadAndResetAnswered :
    takesTurn ⟨0x01, 0, []⟩ State.reset ∧ takesTurn ⟨0x02, 0, []⟩ State.reset := ⟨turn _, turn _⟩

theorem witness_ReadbacksChangeNothing :
    (∀ b ∈ ([0, 1, 8, 9, 18, 19, 31, 32] : List Byte), ∀ kind ∈ ([0x11, 0x30, 0x39, 0x41, 0x45, 0x51, 0x5D] : List Byte),
      takesTurn ⟨kind, 0, [b]⟩ State.reset) ∧
      ∀ kind ∈ ([0x14, 0x22, 0x29, 0x69] : List Byte), takesTurn ⟨kind, 0, []⟩ State.reset :=
  ⟨fun _ _ _ _ => turn _, fun _ _ => turn _⟩

theorem witness_SupervisorFrameReceivedAsRequest :
    (∀ b ∈ ([0x55, 0] : List Byte), b ≠ 0xC3) ∧ (List.replicate 248 (0 : Byte)).length ≤ 248 ∧
      State.reset.sup.receiver = [] := ⟨by decide, Nat.le_of_eq List.length_replicate, rfl⟩

/-- A receiver that holds the marker of a frame. -/
def marker : State := { State.reset with now := 5, sup := { State.reset.sup with receiver := [(0xC3, 0)] } }

theorem witness_DiscardedFramesAreCounted :
    marker.sup.receiver = (0xC3, 0) :: [] ∧ marker.now ≤ 0 + 5 ∧
      (∀ len ∈ ([0, 1, 251, 255] : List Byte), len.toNat < 2 ∨ 250 < len.toNat) ∧ State.reset.sup.receiver = [] ∧
      (∃ len rest, ([0xC3, 250] : List Byte) = 0xC3 :: len :: rest ∧ 2 ≤ len.toNat ∧ len.toNat ≤ 250 ∧
        rest.length < len.toNat + 2) ∧
      (let held := (supWire 0x29 1 []).map fun b => ((b, 5) : Byte × Nat)
       held.map Prod.fst = supWire 0x29 1 [] ∧
        ∀ i : Nat, ∀ a b, held[i]? = some a → held[i + 1]? = some b → b.2 ≤ a.2 + 5) ∧
      crcBytes (crc16 [2, 0x29, 1]) ≠ [0, 0] ∧ ∀ b ∈ ([2, 0x29, 1, 0, 0] : List Byte), b ≠ 0xC3 := by
  refine ⟨rfl, by decide, by decide, rfl, ⟨250, [], rfl, by decide, by decide, by decide⟩, ⟨?_, ?_⟩, by decide +kernel, by decide⟩
  · simp [Function.comp_def]
  · intro i a b ha hb
    simp only [List.getElem?_map, Option.map_eq_some_iff] at ha hb
    obtain ⟨_, _, rfl⟩ := ha
    obtain ⟨_, _, rfl⟩ := hb
    exact Nat.le_add_right _ _

/-- A warm reset that is due. -/
def resetting (s : State) : State := s.modSup fun p => { p with resetDue := true }

theorem witness_WarmResetValues :
    (resetting State.reset).sup.resetDue = true ∧
      ((resetting (output 0 (.blanking none 20) State.reset)).out 0).state = .blanking none 20 ∧
      (∀ x e, ((resetting (output 0 .showing State.reset)).out 0).state ≠ .blanking x e) ∧
      ((resetting (output 0 .showing State.reset)).out 0).assignment = defaultTarget 0 ∧
      ∀ x e, ((resetting (output 0 .noSignal State.reset)).out 0).state ≠ .blanking x e :=
  ⟨rfl, rfl, nofun, rfl, nofun⟩

theorem witness_LockAcceptedOnce :
    ∀ b ∈ ([0, 3, 4, 255] : List Byte), takesTurn ⟨0x05, 0, [b]⟩ State.reset ∧
      takesTurn ⟨0x05, 0, [b]⟩ { State.reset with lock := ⟨2, true⟩ } :=
  fun _ _ => ⟨turn _, witness_turn rfl rfl⟩

theorem witness_FrozenFieldsKeepTheirValues :
    ∀ level ∈ [0, 1, 2, 3], (∀ x, Instr.deskPointerAttach ≠ .deviceReset x) ∧ Instr.deskPointerAttach ≠ .warmReset ∧
      ∃ t, exec .deskPointerAttach { State.reset with lock := ⟨level, true⟩ } = .next t :=
  fun _ _ => ⟨nofun, nofun, _, rfl⟩

/-- The desk at a lock level. -/
def lockedAt (level : Nat) (s : State) : State := { s with lock := ⟨level, true⟩ }

theorem locked_turn (level : Nat) (r : Request) : takesTurn r (lockedAt level State.reset) := witness_turn rfl rfl

theorem witness_ComputerRecordWritten :
    (∃ c : Byte, 8 < c.toNat) ∧ 65535 ≤ 65535 ∧ 1 ≤ 16384 ∧ 16384 ≤ 16384 ∧
      (∀ level ∈ [0, 1, 2, 3], ∀ r, takesTurn r (lockedAt level State.reset)) ∧
      1 ≤ (lockedAt 1 State.reset).lock.level ∧ (1 : Zone) ≠ ((lockedAt 1 State.reset).comp 0).zone ∧
      3 ≤ (lockedAt 3 State.reset).lock.level ∧ PointerMode.relative ≠ ((lockedAt 3 State.reset).comp 0).pointerMode ∧
      (let s := (owner 0).modControl 0 fun c => { c with claims := [⟨0, 0, false⟩] }
       ¬ 1 ≤ s.lock.level ∧ SharePolicy.auto ≠ (s.comp 0).policy ∧ (0 : Zone) = (s.comp 0).zone ∧
        (s.control 0).holder = .desk ∧ (s.control 0).lastDesk = none ∧ (s.control 0).claims = [⟨0, 0, false⟩] ∧
        ∀ r, takesTurn r s) :=
  ⟨⟨9, by decide⟩, by decide, by decide, by decide, fun _ _ r => locked_turn _ r, by decide, by decide, by decide,
    by decide, by decide, by decide, by decide, rfl, rfl, rfl, fun _ => witness_turn rfl rfl⟩

theorem witness_HeadMapAndDeskSettingsWritten :
    (∀ level ∈ [0, 1, 3], ∀ r, takesTurn r (lockedAt level State.reset)) ∧ 16383 < 16384 ∧
      ¬ (16383 < 16383 ∨ 16383 < 0 ∨ 8192 = 0 ∨ 8192 < 8192 ∨ 1 = 0 ∨ 8192 < 1) ∧
      (lockedAt 3 State.reset).headMap c1a ≠ ⟨true, 16383, 0, 8192, 1⟩ ∧
      Outbound.activeHead ((owner 0).link 0).outbound = some c1a ∧ (∀ r, takesTurn r (owner 0)) :=
  ⟨fun _ _ r => locked_turn _ r, by decide, by decide, by decide, rfl, fun _ => witness_turn rfl rfl⟩

theorem witness_LayoutWrittenWhole :
    ¬ validLayout [] ∧ validLayout twoTiles ∧ twoTiles.Perm twoTiles.reverse ∧ validLayout twoTiles.reverse ∧
      twoTiles.Pairwise (fun a b => a.monitor < b.monitor) ∧
      (∀ t ∈ twoTiles.reverse, t.x0 ≤ 65535 ∧ t.y0 ≤ 65535 ∧ t.w ≤ 65535 ∧ t.h ≤ 65535) ∧
      twoTiles ≠ (lockedAt 3 State.reset).layout ∧ twoTiles = ({ State.reset with layout := twoTiles }).layout ∧
      (∀ r, takesTurn r (lockedAt 3 State.reset) ∧ takesTurn r { State.reset with layout := twoTiles }) ∧
      pointerMonitor State.reset = some 0 ∧
      pointerMonitor { State.reset with pointer := { State.reset.pointer with px := 5760 } } = some 3 :=
  ⟨layout_empty_invalid, twoTiles_valid, (List.reverse_perm _).symm, by
      refine ⟨by decide, by decide, by decide, ?_⟩
      refine List.Pairwise.cons ?_ (List.pairwise_singleton _ _)
      intro b hb
      simp only [List.mem_singleton] at hb
      subst hb
      refine ⟨by decide, fun x y h => ?_⟩
      simp only [Tile.contains, decide_eq_true_eq, decide_eq_false_iff_not] at h ⊢
      omega, by decide, by decide, by decide, rfl, fun _ => ⟨locked_turn _ _, witness_turn rfl rfl⟩, by decide, by decide⟩

theorem witness_PlacePointerClampsIntoTile :
    (∀ r, takesTurn r State.reset) ∧ (∀ t ∈ oneTile, t.monitor ≠ 3) ∧ (∀ r, takesTurn r desk) ∧
      tileOf State.reset.layout 3 = some ⟨3, 5760, 0, 1920, 1080⟩ ∧ State.reset.blank.state = .clear ∧
      (State.reset.modBlank fun b => { b with state := .recovering 10 }).blank.state ≠ .clear :=
  ⟨turn, by decide, fun _ => witness_turn rfl rfl, by decide, rfl, nofun⟩

theorem witness_MappingStagesCAndE :
    (4480 ≤ 6079 ∧ 6079 < 4480 + 1600 ∧ 1600 ≤ 16384 ∧ 1 ≤ 8192 ∧ 8192 ≤ 8192) ∧
      (State.reset.setInput (.head c1a) (.measured ⟨8192, 8192, 0⟩)).input (.head c1a) = .measured ⟨8192, 8192, 0⟩ ∧
      (∀ m, (State.reset.setInput (.head c1a) (.measured ⟨8193, 1, 0⟩)).input (.head c1a) = .measured m →
        m.width = 0 ∨ m.height = 0 ∨ 8192 < m.width ∨ 8192 < m.height) ∧
      (1 ≤ 16384 ∧ 16384 ≤ 16384 ∧ 16383 ≤ 16384 - 1) ∧ 0 ≤ 1 - 1 :=
  ⟨by decide, rfl, fun m h => by cases h; decide, by decide, by decide⟩

theorem witness_MousePortStates :
    State.reset.mouse.attached = false ∧ desk.mouse.attached = true ∧ attached State.reset = false ∧
      (desk.modBlank fun b => { b with state := .recovering 10 }).blank.state ≠ .clear ∧
      (-15 : Int) ≤ -15 ∧ desk.pointer.rx ≤ 15 := ⟨rfl, rfl, by decide, nofun, by decide, by decide⟩

/-- The pointer on M1, which shows C1A, with the focus on C1. -/
def onC1 : State := (output 0 .showing State.reset).setMouse ⟨true, 0⟩

/-- The pointer on M1, which shows N1, with the focus on the session. -/
def onN1 (v : ViewerControl) (o : Offer) : State :=
  { ((up 0 State.reset).modLink 0 fun l => { l with inbound := .active o, viewer := v }).modOut 0 fun p =>
      { p with state := .showing, assignment := some (.lane 0) } with
    mouse := ⟨true, 0⟩, focus := ⟨.rem 0, .glide, some 0⟩ }

theorem witness_CapturedMotionIsRelative :
    (∀ b ∈ [BusState.suspended, .active],
      let s := (bus 0 b onC1).modPort 0 fun p => { p with pointerFormat := .boot }
      s.mouse.attached = true ∧ s.blank.state = .clear ∧ attached s = true ∧ s.focus.target = .loc 0 ∧
        (s.control 0).holder = .desk ∧ effMode s 0 = .relative ∧ (s.port 0).bus ≠ .detached) ∧
    (let o : Offer := { anOffer with pointerMode := .relative }
     let s := onN1 .held o
     s.mouse.attached = true ∧ s.blank.state = .clear ∧ attached s = true ∧ s.focus.target = .rem 0 ∧
      (s.link 0).viewer = .held ∧ activeOffer s 0 = some o ∧ o.pointerMode = .relative ∧
      ¬ (o.mode.width = 0 ∧ o.mode.height = 0)) := by
  decide

theorem witness_GlideWithinATile :
    (∀ b ∈ [BusState.detached, .suspended, .active],
      let s := { bus 0 b onC1 with layout := oneTile }
      s.mouse.attached = true ∧ s.blank.state = .clear ∧ s.pointer.capture = false ∧ capturable s = false ∧
        pointerTile s = some ⟨0, 0, 0, 1920, 1080⟩ ∧ attached s = true ∧
        assignmentOf s 0 = some (.head c1a) ∧ (s.control 0).holder = .desk ∧ (s.port 0).bus = b ∧
        (0 : Int) ≤ 960 - 960 ∧ (960 : Int) + 959 < 1920) ∧
    (let s := { onC1.modControl 0 fun c => { c with holder := .link 0 } with layout := oneTile }
     s.pointer.capture = false ∧ capturable s = false ∧ pointerTile s = some ⟨0, 0, 0, 1920, 1080⟩ ∧
      (s.control 0).holder ≠ .desk) ∧
    (capturable desk = false ∧ attached desk = false ∧ pointerTile desk = some ⟨0, 0, 0, 1920, 1080⟩) ∧
    (∀ v ∈ [ViewerControl.none, .held],
      let s := { onN1 v anOffer with layout := oneTile }
      s.pointer.capture = false ∧ capturable s = false ∧ pointerTile s = some ⟨0, 0, 0, 1920, 1080⟩ ∧
        attached s = true ∧ assignmentOf s 0 = some (.lane 0) ∧ (s.link 0).viewer = v ∧
        (s.link 0).inbound = .active anOffer) ∧
    validLayout oneTile :=
  ⟨by decide, by decide, by decide, by decide, oneTile_valid⟩

theorem witness_WalkAtTheEdges :
    (let s := { State.reset with
       layout := twoTiles, pointer := { State.reset.pointer with px := 1919, threshold := 1023 } }
     pointerTile s = some ⟨0, 0, 0, 1920, 1080⟩ ∧
      ((DeskPointer.pos s.pointer .x : Int) + 1 = Tile.last ⟨0, 0, 0, 1920, 1080⟩ .x + 1) ∧
      (⟨1, 1920, 0, 2560, 1440⟩ : Tile) ∈ s.layout ∧ s.desk.crossing = .free ∧
      sourceZone { s with desk := ⟨1, .block⟩ } (assignmentOf s 1) = none) ∧
    (let s := { output 1 .showing State.reset with
       layout := twoTiles, desk := ⟨1, .block⟩, pointer := { State.reset.pointer with px := 1919 }
       comps := State.reset.comps.set 0 { CompRecord.default with zone := 3 } }
     s.desk.crossing = .block ∧ sourceZone s (assignmentOf s 1) = some 3 ∧ (3 : Zone) ≠ s.pointer.glideZone) ∧
    (let s := { State.reset with layout := twoTiles, pointer := { State.reset.pointer with px := 0 } }
     pointerTile s = some ⟨0, 0, 0, 1920, 1080⟩ ∧
      ((DeskPointer.pos s.pointer .x : Int) + -1 = Tile.first ⟨0, 0, 0, 1920, 1080⟩ .x - 1) ∧
      ∀ b ∈ s.layout, Tile.first ⟨0, 0, 0, 1920, 1080⟩ .x ≠ Tile.first b .x + Tile.size b .x) ∧
    (let s := { output 1 .showing onC1 with
       layout := twoTiles, pointer := { State.reset.pointer with px := 1919, threshold := 0 } }
     s.mouse.attached = true ∧ s.blank.state = .clear ∧ s.pointer.capture = false ∧ capturable s = false ∧
      pointerMonitor s = some 0 ∧ pointerMonitor (walk .y 0 (walk .x 1 s)) = some 1) ∧
    validLayout twoTiles := ⟨by decide, by decide, by decide, by decide, twoTiles_valid⟩

theorem witness_FocusSetByRequest :
    (∀ r, takesTurn r State.reset) ∧ 10 < (11 : Byte).toNat ∧ focusByte (.rem 1) = [10] ∧
      activeOffer State.reset 1 = none ∧ activeOffer (viewing 1 .none) 1 ≠ none ∧ (∀ r, takesTurn r (viewing 1 .none)) ∧
      focusByte .none = [0] ∧ placement onC1 (assignmentOf onC1) (.loc 0) = some 0 ∧
      tileOf onC1.layout 0 = some ⟨0, 0, 0, 1920, 1080⟩ ∧ placement State.reset (assignmentOf State.reset) (.loc 7) = none ∧
      (FocusTarget.loc 0) = State.reset.focus.target ∧ isRecipient (bus 0 .active State.reset) 0 = true :=
  ⟨turn, by decide, by decide, by decide, by decide, fun _ => witness_turn rfl rfl, by decide, by decide, by decide, by decide,
    rfl, by decide⟩

/-- Broadcast on, with C1 and C2 members and their ports ACTIVE. -/
def broadcasting : State :=
  let s := (State.reset.modComp 0 fun c => { c with member := true }).modComp 1 fun c => { c with member := true }
  (bus 0 .active (bus 1 .active s)).modRouter fun r => { r with broadcast := true }

theorem witness_BroadcastSetByRequest :
    (∀ r, takesTurn r broadcasting) ∧ 1 < (2 : Byte).toNat ∧ (1 : Byte).toNat ≤ 1 ∧ isRecipient broadcasting 1 = true :=
  ⟨fun _ => witness_turn rfl rfl, by decide, by decide, by decide⟩

theorem witness_KeyboardReportKeepsHeldSet :
    State.reset.keyboard.attached = false ∧
      (let s := typing ⟨0, List.range' 192 32⟩ State.reset
       s.keyboard.attached = true ∧ (1 : Byte) ∉ ([4, 0, 224] : List Byte) ∧
        (∀ c ∈ s.keyboard.held.keys, 4 ≤ c ∧ c ≤ 223) ∧ s.keyboard.held.keys.length ≤ 32) ∧
      (1 : Byte) ∈ ([1, 4] : List Byte) := by decide

theorem witness_DeliveredPressIsQueued :
    (∀ b ∈ [BusState.suspended, .active],
      let s := typing ⟨0, List.range' 4 31⟩ (bus 0 b bare)
      s.keyboard.attached = true ∧ (∀ c ∈ s.keyboard.held.keys, 4 ≤ c ∧ c ≤ 223) ∧ s.keyboard.held.keys.length < 32 ∧
        4 ≤ (223 : Byte).toNat ∧ (223 : Byte).toNat ≤ 223 ∧ (223 : Byte).toNat ∉ s.keyboard.held.keys ∧
        s.matcher.state = .idle ∧ (∀ i, s.hotkey i = none) ∧ s.blank.state = .clear ∧ s.focus.target = .loc 0 ∧
        (s.control 0).holder = .desk ∧ (s.port 0).bus ≠ .detached) ∧
    (let s := broadcasting
     s.router.broadcast = true ∧ (s.comp 0).member = true ∧ (s.comp 1).member = true ∧
      (s.comp 1).zone = (s.comp 0).zone ∧ (s.port 1).bus ≠ .detached ∧ (s.control 1).holder = .desk) ∧
    (let s := typing ⟨0x80, [4]⟩ (matching 0 ⟨.chord 0x80 14, .notify⟩ .idle)
     s.keyboard.attached = true ∧ (0x80#8 &&& 1#8 <<< (231 - 224) != 0) = true ∧ (0x80#8 &&& 1#8 <<< (224 - 224) != 0) = false ∧
      judgeKey (typing ⟨0x80, [4, 14]⟩ s) ⟨true, 14⟩ = ⟨.idle, true, some 0⟩ ∧
      judgeKey (typing ⟨0, [4]⟩ s) ⟨false, 231⟩ = ⟨.idle, false, none⟩ ∧ s.hotkey 0 = some ⟨.chord 0x80 14, .notify⟩) ∧
    ∀ v ∈ [ViewerControl.none, .held],
      let s := { typing ⟨0, []⟩ (onN1 v anOffer) with hotkeys := Vector.replicate 32 none }
      s.keyboard.attached = true ∧ s.matcher.state = .idle ∧ (∀ i, s.hotkey i = none) ∧ s.blank.state = .clear ∧
        s.focus.target = .rem 0 ∧ (s.link 0).viewer = v ∧ s.linkKeys 0 ≠ ⟨0, [223]⟩ := by
  decide

theorem witness_KeyboardAttachAndDetach :
    isRecipient (bus 0 .active State.reset) 0 = true ∧ isRecipient State.reset 0 = false := by decide

theorem witness_PortQueuesTakeRecords :
    32 ≤ (List.replicate 32 (⟨.full, 0, []⟩ : KeyRecord)).length ∧
      (let q := List.replicate 16 (PointerRecord.absolute 0 0 0 0)
       16 ≤ q.length ∧ mergeable (.absolute 1 0 0 0) (.absolute 0 0 0 0) = false ∧ 4 ≤ q.length) ∧
      (let p := { Port.reset with cx := -32766 }
       p.pointerQueue.length < p.flow ∧ -32767 ≤ p.cx ∧ p.cx ≤ 32767 ∧ p.flow ≤ 16 ∧
        -32767 < (pushPointer (.relative 0 0 0 0) p).cx ∧ (pushPointer (.relative 0 0 0 0) p).cx < 32767 ∧
        -32767 < (pushPointer (.relative 0 0 0 0) p).cy ∧ (pushPointer (.relative 0 0 0 0) p).cy < 32767) := by
  decide

theorem witness_PollsAnswer :
    (State.reset.port 0).bus = .detached ∧
      (∀ b ∈ [BusState.attached, .suspended, .active], ((bus 0 b State.reset).port 0).bus = b) ∧
      ((bus 0 .active State.reset).port 0).keyQueue = [] ∧ ((bus 0 .active State.reset).port 0).pointerQueue = [] ∧
      (let s := (bus 0 .active State.reset).modPort 0 fun p =>
        { p with keyQueue := [⟨.boot, 1, [4]⟩], pointerQueue := [.relative 0 1 0 0] }
       (s.port 0).keyQueue = ⟨.boot, 1, [4]⟩ :: [] ∧ (s.port 0).pointerQueue = .relative 0 1 0 0 :: []) ∧
      (let s := (bus 0 .active State.reset).modPort 0 fun p => { p with cx := 128 }
       ¬ ((s.port 0).cx = 0 ∧ (s.port 0).cy = 0) ∧ effMode s 0 = .absolute) ∧
      (let s := (bus 0 .active State.reset).modPort 0 fun p => { p with cy := -128, pointerFormat := .boot }
       ¬ ((s.port 0).cx = 0 ∧ (s.port 0).cy = 0) ∧ effMode s 0 = .relative) := by
  decide

theorem witness_BusEventsMoveThePort :
    (State.reset.port 0).bus = .detached ∧
      (∀ b ∈ [BusState.attached, .suspended, .active], ((bus 0 b State.reset).port 0).bus = b) ∧
      (∀ a ∈ [Attempt.busSignal flight 10, .wait flight .busStage 2000, .busSignal { flight with method := .bus } 10],
        ((waking a).wakeOf 0).attempt = a ∧ ((waking a).port 0).bus ≠ .detached ∧
          (∀ l, ((waking a).line l).config.role ≠ .wakePulse 0) ∧
          ∀ j, ((wired 15 (.wakePulse 0) 0 (waking a)).line j).config.role = .wakePulse 0 → j = 15) ∧
      ((waking (.pulse flight 15 2300)).wakeOf 0).attempt = .pulse flight 15 2300 ∧
      ((waking (.pulse flight 15 2300)).port 0).bus = .suspended := by decide

theorem witness_ComputerTellsThePort :
    (State.reset.port 0).bus = .detached ∧
      (let p := (bus 0 .attached State.reset).port 0
       p.bus ≠ .detached ∧ p.keyFormat = .full ∧ p.keyFormat ≠ .boot ∧ p.pointerFormat = .full ∧
        p.pointerFormat ≠ .boot) ∧
      Outbound.activeHead ((owner 0).link 0).outbound = some c1a := by decide

theorem witness_CountersCleared :
    (∀ r, takesTurn r State.reset) ∧ 8 < (9 : Byte).toNat ∧ (8 : Byte).toNat ≤ 8 := ⟨turn, by decide, by decide⟩

theorem witness_ClampedSettingsWritten :
    (∀ r, takesTurn r State.reset) ∧ 8 < (9 : Byte).toNat ∧ (8 : Byte).toNat = (7 : Comp).val + 1 ∧
      6 < (7 : Byte).toNat ∧ (6 : Byte).toNat = (5 : OutputId).val + 1 ∧ (∀ r, takesTurn r (lockedAt 2 State.reset)) :=
  ⟨turn, by decide, by decide, by decide, by decide, fun _ => locked_turn _ _⟩

theorem witness_HotkeyTableWritten :
    (∀ r, takesTurn r State.reset) ∧ (∀ r, takesTurn r (lockedAt 2 State.reset)) ∧ 31 < (32 : Byte).toNat ∧
      (31 : Byte).toNat = (31 : Fin 32).val ∧ State.reset.hotkey 31 = none ∧
      State.reset.hotkey 0 = some ⟨.tap 71 2, .lead⟩ ∧ State.reset.hotkey 0 ≠ none ∧
      (4 ≤ 231 ∧ 231 ≤ 231 ∧ 2 ≤ 4 ∧ 4 ≤ 4) ∧ (255 ≤ 255 ∧ ¬ (4 ≤ 232 ∧ 232 ≤ 231)) ∧
      (∀ (j : Fin 32) (d : HotkeyEntry), j ≠ 12 → bare.hotkey j ≠ some d) ∧ ∀ r, takesTurn r bare :=
  ⟨turn, locked_turn 2, by decide, by decide, by decide, by decide, by decide, by decide, by decide,
    fun j d _ => by simp [bare_hotkey], fun _ => witness_turn rfl rfl⟩

theorem witness_TriggerRunsItsAction :
    (∀ r, takesTurn r State.reset) ∧ actionOf 15 0 0 = none ∧ 14 < (15 : Byte).toNat ∧
      (∀ x ∈ ([(0, 0, 0, .lead), (1, 8, 0, .focus 7), (6, 0, 0, .broadcastToggle), (14, 0, 0, .notify),
          (4, 6, 0, .switch 5 none), (5, 15, 0, .recallSlot 15), (10, 0, 0, .takeBack), (8, 0, 0, .resumeBlank)] :
          List (Byte × Byte × Byte × Action)), actionOf x.1 x.2.1 x.2.2.1 = some x.2.2.2) ∧
      State.reset.focus.target = .loc 0 ∧ (∀ n, (State.reset.port n).bus = .detached) ∧
      State.reset.blank.hotkeyResume = false ∧ (∀ r, takesTurn r (onN1 .held anOffer)) ∧
      (let s := bus 7 .active State.reset
       (s.port 7).bus ≠ .detached ∧ (∀ m : Comp, m < 7 → (s.port m).bus = .detached) ∧ ∀ r, takesTurn r s) ∧
      (let s := State.reset.modBlank fun b => { b with hotkeyResume := true }
       s.blank.hotkeyResume = true ∧ s.blank.asserted = [] ∧ ∀ r, takesTurn r s) ∧
      (let s := State.reset.modControl 0 fun c => { c with claims := [⟨1, 0, false⟩] }
       (s.control 0).claims ≠ [] ∧ ∀ r, takesTurn r s) ∧
      (∀ v, ((onN1 v anOffer).link 0).viewer = v ∧ (onN1 v anOffer).focus.target = .rem 0) :=
  ⟨turn, by decide, by decide, by decide, rfl, by decide, by decide, fun _ => witness_turn rfl rfl,
    ⟨by decide, by decide, fun _ => witness_turn rfl rfl⟩, ⟨rfl, rfl, fun _ => witness_turn rfl rfl⟩,
    ⟨by decide, fun _ => witness_turn rfl rfl⟩, fun _ => ⟨rfl, rfl⟩⟩

theorem witness_IdleAndTappingJudgeKeys :
    (∀ m ∈ [MatcherState.idle, .tapping 71 1 true none, .tapping 71 0 true none, .tapping 71 0 false (some 400),
        .tapping 4 0 true none], hotkeysApart (matching 31 ⟨.tap 71 2, .lead⟩ m)) ∧
      (matching 31 ⟨.tap 71 2, .lead⟩ .idle).matcher.state = .idle ∧
      (matching 31 ⟨.tap 71 2, .lead⟩ .idle).hotkey 31 = some ⟨.tap 71 2, .lead⟩ ∧
      (let s := (matching 0 ⟨.chord 1 14, .notify⟩ .idle).modKeyboard fun p => { p with held := ⟨1, [14]⟩ }
       hotkeysApart s ∧ s.hotkey 0 = some ⟨.chord s.keyboard.held.mods 14, .notify⟩) ∧
      (matching 31 ⟨.tap 71 2, .lead⟩ (.tapping 71 1 true none)).matcher.state = .tapping 71 1 true none ∧ 4 ≠ 71 :=
  ⟨fun _ _ => matching_apart _ _ _, rfl, by decide, ⟨one_apart 0 _ _ fun _ => rfl, by decide⟩, rfl, by decide⟩

theorem witness_CommandPhaseJudgesKeys :
    (let s := matching 0 ⟨.command 223, .blank⟩ (.command 2000)
     hotkeysApart s ∧ s.matcher.state = .command 2000 ∧ s.hotkey 0 = some ⟨.command 223, .blank⟩) ∧
      (let s := typing ⟨1, List.range' 4 31⟩ (matching 0 ⟨.command 223, .blank⟩ (.command 2000))
       hotkeysApart s ∧ s.matcher.state = .command 2000 ∧ s.hotkey 0 = some ⟨.command 223, .blank⟩ ∧
        s.keyboard.attached = true ∧ (∀ c ∈ s.keyboard.held.keys, 4 ≤ c ∧ c ≤ 223) ∧ s.keyboard.held.keys.length < 32 ∧
        (223 : Byte).toNat ∉ s.keyboard.held.keys) ∧
      (223 < 224 ∨ 231 < 223) ∧ (224 ≤ 231 ∧ 231 ≤ 231) ∧
      ∀ (i : Fin 32) (e : HotkeyEntry), (bare.modMatcher fun x => { x with state := .command 2000 }).hotkey i = some e →
        e.trigger ≠ .command 4 :=
  ⟨⟨matching_apart _ _ _, rfl, by decide⟩,
    ⟨one_apart 0 _ _ fun _ => rfl, rfl, by decide, rfl, by decide, by decide, by decide⟩, by decide, by decide, fun i e h => by
    have := bare_hotkey i
    simp only [State.hotkey, State.modMatcher] at this h
    simp [this] at h⟩

theorem witness_LineTriggersAndFiring :
    (let s := matching 12 ⟨.line 3 2, .focusNext⟩ .idle
     hotkeysApart s ∧ s.hotkey 12 = some ⟨.line 3 2, .focusNext⟩ ∧ (s.lineTrigger 3).count + 1 < 2 ∧
      2 ≤ ((s.setLineTrigger 3 ⟨1, some 400⟩).lineTrigger 3).count + 1 ∧
      hotkeysApart (s.setLineTrigger 3 ⟨1, some 400⟩)) ∧
      (∀ (i : Fin 32) (e : HotkeyEntry) (c : Nat), bare.hotkey i = some e → e.trigger ≠ .line 3 c) ∧
      (State.reset.modBlank fun b => { b with state := .recovering 10 }).blank.state ≠ .clear ∧
      Action.notify ≠ .resumeBlank ∧ FireSource.keys 31 ≠ .request ∧ FireSource.line 0 ≠ .request ∧
      State.reset.blank.state = .clear ∧ (State.reset.lineTrigger 3).deadline = none ∧
      ((State.reset.setLineTrigger 3 ⟨1, some 400⟩).lineTrigger 3).deadline = some 400 ∧
      (matching 0 ⟨.tap 71 2, .lead⟩ (.tapping 71 1 false (some 400))).matcher.state = .tapping 71 1 false (some 400) ∧
      ∀ k n d, State.reset.matcher.state ≠ .tapping k n false (some d) :=
  ⟨⟨matching_apart _ _ _, by decide, by decide, by decide, one_apart 12 _ _ fun _ => rfl⟩,
    fun i e c h => by simp [bare_hotkey] at h, nofun, by decide, by decide, by decide, rfl, by decide, by decide, rfl, nofun⟩

theorem witness_SwitchTakesItsTarget :
    (∀ r, takesTurn r State.reset) ∧ 6 < (7 : Byte).toNat ∧ 18 < (19 : Byte).toNat ∧ outputByte 5 = [6] ∧
      targetByte (some (.lane 1)) = [18] ∧ targetByte none = [0] ∧
      (State.reset.headMap ⟨7, .b⟩).enabled = false ∧ 4 ≤ (5 : OutputId).val ∧
      (∀ x, (State.reset.link 1).inbound ≠ .active x) ∧
      ((5 : OutputId).val = 4 + (1 : LinkId).val ∧ ((owner 1).link 1).outbound ≠ .none) ∧ (∀ r, takesTurn r (owner 1)) ∧
      ((output 0 (.blanking none 20) State.reset).out 0).state = .blanking none 20 ∧
      (some (Input.head c1a) = ((output 0 .showing State.reset).out 0).assignment ∧
        ((output 0 .showing State.reset).out 0).state = .showing) ∧
      ∀ x e, ((output 0 .noSignal State.reset).out 0).state ≠ .blanking x e :=
  ⟨turn, by decide, by decide, by decide, by decide, by decide, by decide, by decide, nofun, ⟨by decide, nofun⟩,
    fun _ => witness_turn rfl rfl, rfl, ⟨rfl, rfl⟩, nofun⟩

theorem witness_ScenesStoredAndRecalled :
    (∀ r, takesTurn r State.reset) ∧ 15 < (16 : Byte).toNat ∧ (15 : Byte).toNat = (15 : Fin 16).val ∧
      (let es : List (Monitor × Target) := [(3, some (.head c1a)), (0, none)]
       es.length ≤ 4 ∧ (es.map Prod.fst).Nodup ∧ es.reverse.Perm es ∧ es.reverse.Pairwise (fun x y => x.1 < y.1)) ∧
      (∃ p ∈ ([(4, 18), (5, 0)] : List (Byte × Byte)), p.1 = 0 ∨ 4 < p.1.toNat ∨ 18 < p.2.toNat) ∧
      State.reset.scene 15 = none ∧
      (let s := State.reset.setScene 15 (some ⟨[(0, some (.lane 0)), (3, some (.head c1a))], some 7⟩)
       s.scene 15 = some ⟨[(0, some (.lane 0)), (3, some (.head c1a))], some 7⟩ ∧ (∀ r, takesTurn r s) ∧
        (∀ y, (s.link 0).inbound ≠ .active y) ∧ (s.headMap c1a).enabled = true) :=
  ⟨turn, by decide, by decide, ⟨by decide, by decide, List.reverse_perm _, by decide⟩, by decide, by decide,
    rfl, fun _ => witness_turn rfl rfl, nofun, by decide⟩

theorem witness_SwitchStartsAndSets :
    (∀ o, (quietState.out o).pendingSlot = none) ∧
      (let s : State := { State.reset with crosspointStart := some 0 }
       (∀ c, s.crosspointStart = some c → c + 2 ≤ 2) ∧ (s.out 0).pendingSlot = some (defaultTarget 0) ∧
        (∀ v, (s.out 0).lastStart = some v → v + (s.out 0).restTime ≤ 2) ∧ (∀ j : OutputId, ¬ j < 0) ∧
        (∀ u, s.now ≤ u → u < 2 → ¬ ∀ c, s.crosspointStart = some c → c + 2 ≤ u) ∧ 0 < (s.out 0).blankLead) ∧
      ((State.reset.modOut 0 fun p => { p with blankLead := 0 }).out 0).blankLead = 0 ∧
      (∀ x e, (State.reset.out 0).state ≠ .blanking x e) ∧
      ((output 0 (.blanking (some (.head c1a)) 20) State.reset).out 0).state = .blanking (some (.head c1a)) 20 ∧
      (0 : OutputId) = monitorOut 0 ∧ State.reset.focus.tile = some 0 ∧ pointerMonitor State.reset = some 0 ∧
      State.reset.focus.tile ≠ some 1 := by
  refine ⟨by decide, ⟨?_, by decide, ?_, by decide, ?_, by decide⟩, by decide, nofun, rfl, by decide, rfl, by decide, by decide⟩
  · rintro c ⟨⟩
    exact Nat.le_refl _
  · intro v h
    have hn : (State.reset.out 0).lastStart = none := by decide
    exact absurd (hn.symm.trans h) nofun
  · intro u _ hu h
    exact absurd (h 0 rfl) (by omega)

theorem witness_LocksAndInputsChange :
    ((output 0 (.locking 1500 (some 0)) State.reset).out 0).state = .locking 1500 (some 0) ∧
      (∀ d x, (State.reset.out 0).state ≠ .locking d x) ∧ State.reset.input (.head c1a) = .absent ∧
      (State.reset.setInput (.head c1a) .unmeasured).input (.head c1a) ≠ .absent ∧
      (State.reset.setInput (.head c1a) (.measured ⟨1, 1, 0⟩)).input (.head c1a) = .measured ⟨1, 1, 0⟩ ∧
      State.reset.input (.head c1a) ≠ .measured ⟨1, 1, 0⟩ ∧
      ((output 0 .showing State.reset).out 0).assignment = some (.head c1a) ∧
      Outbound.activeHead ((owner 0).link 0).outbound = some c1a :=
  ⟨rfl, nofun, by decide, by decide, by decide, by decide, rfl, rfl⟩

/-- Privacy blank in a state. -/
def blankIn (b : BlankState) : State := State.reset.modBlank fun u => { u with state := b }

theorem witness_BlankEngagesAndResumes :
    (∀ b r, takesTurn r (blankIn b)) ∧ State.reset.blank.state = .clear ∧ (∀ r, takesTurn r State.reset) ∧
      (blankIn (.engaged ⟨false, false, true⟩)).blank.state = .engaged ⟨false, false, true⟩ ∧
      (blankIn (.recovering 10)).blank.state = .recovering 10 ∧ (blankIn (.recovering 10)).blank.asserted = [] ∧
      (blankIn (.recovering 10)).blank.state ≠ .clear ∧ (∀ d, State.reset.blank.state ≠ .recovering d) ∧
      (State.reset.modBlank fun b => { b with asserted := [5] }).blank.asserted ≠ [] ∧
      isRecipient (bus 0 .active State.reset) 0 = true ∧
      ∀ c ∈ [true, false],
        let s := (wired 3 .blankInput 10 ((blankIn (.engaged ⟨true, false, false⟩)).modBlank fun b => { b with
          asserted := [3] })).modLine 3 fun x => { x with filtered := some (!c), candidate := some (c, 0) }
        (s.line 3).config.role = .blankInput ∧ (s.line 3).hold = none ∧ (s.line 3).candidate = some (c, 0) ∧
          (s.line 3).filtered ≠ some c ∧ (s.line 3).filtered ≠ none ∧ (3 : LineId) ∈ s.blank.asserted :=
  ⟨fun _ _ => witness_turn rfl rfl, rfl, turn, rfl, rfl, rfl, nofun, nofun, by decide, by decide, by decide⟩

/-- A link that is disabled. -/
def off (k : LinkId) : State := State.reset.modLink k fun l => { l with enabled := false }

theorem witness_LinkEnabledAndSending :
    (∀ r, takesTurn r State.reset ∧ takesTurn r (off 1) ∧ takesTurn r (viewing 1 .held)) ∧ 2 < (3 : Byte).toNat ∧
      (2 : Byte).toNat = (1 : LinkId).val + 1 ∧ (State.reset.link 1).enabled = true ∧ (State.reset.link 1).up = false ∧
      ((off 1).link 1).enabled = false ∧ ((viewing 1 .held).link 1).up = true ∧
      ((viewing 1 .held).link 1).inbound = .active anOffer ∧ (State.reset.link 1).sending ≠ none ∧
      ((State.reset.modLink 1 fun l => { l with sending := none }).link 1).sending = none ∧
      31 < 32 ∧ 32 ≤ (List.replicate 32 LinkMsg.grant).length :=
  ⟨fun _ => ⟨turn _, witness_turn rfl rfl, witness_turn rfl rfl⟩, by decide, by decide, rfl, rfl, rfl, rfl, rfl, by decide, rfl, by decide, by decide⟩

/-- A link with an offered inbound session. -/
def offered (k : LinkId) : State := (up k State.reset).modLink k fun l => { l with inbound := .offeredIn anOffer 0 }
/-- A link with an offered outbound session. -/
def offering (k : LinkId) : State := (up k State.reset).modLink k fun l => { l with outbound := .offered c1a false 0 }

theorem witness_SharesByRequest :
    (∀ r k v, takesTurn r State.reset ∧ takesTurn r (up k State.reset) ∧ takesTurn r (offered k) ∧
        takesTurn r (owner k) ∧ takesTurn r (viewing k v)) ∧
      (State.reset.link 0).up = false ∧ ((up 0 State.reset).link 0).up = true ∧
      ((up 0 State.reset).link 0).outbound = .none ∧ ((owner 0).link 0).outbound ≠ .none ∧
      (State.reset.headMap c1a).enabled = true ∧ (State.reset.headMap ⟨0, .b⟩).enabled = false ∧
      ((up 0 State.reset).comp 0).policy ≠ .noShare ∧
      ((State.reset.modComp 0 fun c => { c with policy := .noShare }).comp 0).policy = .noShare ∧
      ((up 0 State.reset).link 0).peerZones.getLsbD ((up 0 State.reset).comp 0).zone.val = true ∧
      (State.reset.link 0).peerZones.getLsbD 3 = false ∧ 2 < (3 : Byte).toNat ∧ 8 < (9 : Byte).toNat ∧
      (∀ o d, ((up 0 State.reset).link 0).inbound ≠ .offeredIn o d) ∧
      ((offered 1).link 1).inbound = .offeredIn anOffer 0 ∧ (∀ o, ((offered 1).link 1).inbound ≠ .active o) ∧
      ((viewing 0 .held).link 0).inbound = .active anOffer ∧ (onN1 .held anOffer).focus.target = .rem 0 ∧
      (∀ r, takesTurn r (onN1 .held anOffer)) :=
  ⟨fun _ _ _ => ⟨turn _, witness_turn rfl rfl, witness_turn rfl rfl, witness_turn rfl rfl, witness_turn rfl rfl⟩, rfl,
    rfl, rfl, nofun, by decide, by decide, by decide, rfl, by decide, by decide, by decide, by decide, nofun, rfl, nofun,
    rfl, rfl, fun _ => witness_turn rfl rfl⟩

theorem witness_SessionFramesTaken :
    Mode.sendable anOffer.mode = true ∧ Mode.sendable ⟨0, 0, 0⟩ = true ∧ Mode.sendable ⟨65535, 65535, 65535⟩ = true ∧
      Mode.sendable ⟨0, 1080, 0⟩ = false ∧ Mode.sendable ⟨65536, 1, 0⟩ = false ∧
      ((off 0).link 0).enabled = false ∧ (State.reset.link 0).enabled = true ∧ (State.reset.link 0).up = false ∧
      ((up 0 State.reset).link 0).enabled = true ∧ ((up 0 State.reset).link 0).up = true ∧
      ((offering 0).link 0).outbound = .offered c1a false 0 ∧ ((up 0 State.reset).link 0).outbound = .none ∧
      ((offered 0).link 0).inbound = .offeredIn anOffer 0 ∧ ((viewing 0 .held).link 0).inbound = .active anOffer ∧
      ((up 0 State.reset).link 0).inbound = .none ∧ KeyState.sendable ⟨1, [4]⟩ = true ∧
      PointerFrame.sendable (.absolute 0 8191 0 0) = true ∧ ∀ h v d, ((owner 0).link 0).outbound ≠ .offered h v d :=
  ⟨by decide, by decide, by decide, by decide, by decide, rfl, rfl, rfl, rfl, rfl, rfl, rfl, rfl, rfl, rfl, by decide,
    by decide, nofun⟩

theorem witness_SilenceAndOfferTimeouts :
    (let l := (up 0 State.reset).link 0
     l.enabled = true ∧ l.up = true ∧ l.lastValid = some 0) ∧ (State.reset.link 0).up = false ∧
      ((offering 0).link 0).outbound = .offered c1a false 0 ∧ ((offered 0).link 0).inbound = .offeredIn anOffer 0 ∧
      (∀ h v d, ((owner 0).link 0).outbound ≠ .offered h v d) ∧
      ∀ o d, ((viewing 0 .none).link 0).inbound ≠ .offeredIn o d :=
  ⟨⟨rfl, rfl, rfl⟩, rfl, rfl, rfl, nofun, nofun⟩

theorem witness_AliveReconciles :
    (8 : ZoneSet) ≠ 0 ∧ ((off 0).link 0).enabled = false ∧ (State.reset.link 0).enabled = true ∧
      ((held 0).link 0).outbound = .active c1a false ∧ InboundSummary.active ≠ .none ∧
      (∀ c ∈ ((held 0).control 0).claims, c.link ≠ 0) ∧ ((viewing 0 .held).link 0).inbound = .active anOffer ∧
      ((offering 0).link 0).outbound = .offered c1a false 0 ∧ (∀ n, ((up 0 State.reset).control n).holder ≠ .link 0) ∧
      ((up 0 State.reset).link 0).inbound = .none ∧ ((up 0 State.reset).link 0).viewer = .none :=
  ⟨by decide, rfl, rfl, rfl, by decide, by decide, rfl, rfl, by decide, rfl, rfl⟩

theorem witness_LinkFramesFoundAmongBytes :
    (∀ b ∈ ([0x55, 0] : List Byte), b ≠ 0x3C) ∧ (State.reset.link 1).receiver = [] ∧
      LinkMsg.sendable (.keys ⟨0xFF, List.range' 192 32⟩) = true ∧
      crcBytes (crc16 [3, 0]) ≠ [1, 1] ∧ (∀ b ∈ ([3, 0, 1, 1] : List Byte), b ≠ 0x3C) ∧
      LinkMsg.parse 0 [] = none ∧ (List.replicate 64 (0 : Byte)).length ≤ 64 ∧
      64 < (65 : Byte).toNat ∧ ∀ b ∈ ([1, 65, 0] : List Byte), b ≠ 0x3C := by
  refine ⟨by decide, rfl, by decide, by decide +kernel, by decide, by decide, by decide, by decide, by decide⟩

theorem witness_LinkFramesReadBack :
    LinkMsg.sendable (.pointer (.relative 0x1F (-2047) 2047 (-127))) = true ∧
      LinkMsg.parse 3 [] = some .accept := by decide

theorem witness_OwnerControlByRequest :
    let s (h : Holder) : State := (owner 1).modControl 7 fun c => { c with claims := [⟨1, 0, false⟩], holder := h }
    (∀ r h, takesTurn r (s h)) ∧ 8 < (9 : Byte).toNat ∧ 2 < (3 : Byte).toNat ∧ (8 : Byte).toNat = (7 : Comp).val + 1 ∧
      ((s .desk).control 7).claims.head? = some ⟨1, 0, false⟩ ∧
      ((s .desk).control 7).claims.find? (fun d => BitVec.ofNat 8 (d.link.val + 1) == 2) = some ⟨1, 0, false⟩ ∧
      ((s .desk).control 7).claims.find? (fun d => BitVec.ofNat 8 (d.link.val + 1) == 1) = none ∧
      ((s .desk).control 0).claims.head? = none ∧
      ((s .desk).comp 7).policy = .ask ∧ ((s .desk).control 7).holder = .desk ∧
      ((s (.link 0)).control 7).holder = .link 0 ∧ ((s .desk).comp 7).policy ≠ .auto ∧
      (((s .desk).modComp 7 fun c => { c with policy := .viewOnly }).comp 7).policy = .viewOnly :=
  ⟨fun _ _ => witness_turn rfl rfl, by decide, by decide, by decide, rfl, by decide, by decide, by decide, rfl, rfl, rfl,
    by decide, rfl⟩

theorem witness_ViewerControlMoves :
    (∀ r v, takesTurn r State.reset ∧ takesTurn r (viewing 0 v) ∧ takesTurn r (up 0 State.reset)) ∧
      (State.reset.link 0).up = false ∧ ((up 0 State.reset).link 0).up = true ∧
      (∀ o, ((up 0 State.reset).link 0).inbound ≠ .active o) ∧
      (∀ v, ((viewing 0 v).link 0).inbound = .active anOffer ∧ ((viewing 0 v).link 0).viewer = v ∧
        ((viewing 0 v).link 0).enabled = true ∧ ((viewing 0 v).link 0).up = true) ∧
      2 < (3 : Byte).toNat ∧ 1 < (2 : Byte).toNat ∧ (onN1 .requested anOffer).focus.target = .rem 0 ∧
      (onN1 .requested anOffer).blank.state = .clear :=
  ⟨fun _ _ => ⟨turn _, witness_turn rfl rfl, witness_turn rfl rfl⟩, rfl, rfl, nofun, fun _ => ⟨rfl, rfl, rfl, rfl⟩,
    by decide, by decide, rfl, rfl⟩

theorem witness_OwnerTakesClaims :
    (let l := (owner 0).link 0
     l.enabled = true ∧ l.up = true ∧ l.outbound = .active c1a false ∧
      l.peerZones.getLsbD ((owner 0).comp 0).zone.val = true ∧ ((owner 0).comp 0).policy = .ask ∧
      ((owner 0).control 0).holder = .desk ∧ ((owner 0).control 0).claims = []) ∧
      (∀ h v, ((up 0 State.reset).link 0).outbound ≠ .active h v) ∧
      ((held 0).control 0).holder = .link 0 ∧ ((held 0).control 0).claims = [] ∧
      (let s := (held 0).modControl 0 fun c => { c with claims := [⟨1, 0, true⟩] }
       (s.control 0).holder = .link 0 ∧ (s.control 0).claims.find? Claim.approved = some ⟨1, 0, true⟩ ∧
        (s.comp 0).policy = .ask) ∧
      (let s := ((owner 0).modComp 0 fun c => { c with policy := .auto }).modControl 0 fun c =>
        { c with claims := [⟨0, 0, false⟩] }
       (s.control 0).holder = .desk ∧ (s.comp 0).policy = .auto ∧ (s.control 0).lastDesk = none ∧
        (s.control 0).claims = ⟨0, 0, false⟩ :: [] ∧ ∃ c ∈ (s.control 0).claims, c.link = 0) ∧
      (let s := ((owner 0).modLink 0 fun l => { l with peerZones := 0 }).modComp 0 fun c => { c with policy := .noShare }
       (s.link 0).peerZones.getLsbD (s.comp 0).zone.val = false ∧ (s.comp 0).policy = .noShare) :=
  ⟨⟨rfl, rfl, rfl, by decide, rfl, rfl, rfl⟩, nofun, rfl, rfl, ⟨rfl, by decide, rfl⟩,
    ⟨rfl, rfl, rfl, rfl, by decide⟩, by decide, rfl⟩

theorem witness_RemoteInputDrivesItsComputer :
    KeyState.sendable ⟨0, [4, 4]⟩ = false ∧ KeyState.sendable ⟨0, List.range' 4 33⟩ = false ∧
      PointerFrame.sendable (.relative 0 2048 0 0) = false ∧ KeyState.sendable ⟨0xFF, List.range' 192 32⟩ = true ∧
      PointerFrame.sendable (.absolute 0x1F 8191 8191 127) = true ∧
      PointerFrame.sendable (.relative 0x1F (-2047) 2047 (-127)) = true ∧
      (let s := bus 0 .active (held 0)
       (s.link 0).enabled = true ∧ (s.link 0).up = true ∧ (s.link 0).outbound = .active c1a false ∧
        (s.control 0).holder = .link 0) ∧
      (∀ h v, ((up 0 State.reset).link 0).outbound = .active h v →
        ((up 0 State.reset).control h.comp).holder ≠ .link 0) ∧ ((owner 0).control 0).holder ≠ .link 0 :=
  ⟨by decide, by decide, by decide, by decide, by decide, by decide, by decide, nofun, by decide⟩

theorem witness_WakeAttemptRuns :
    (∀ r a, takesTurn r (waking a) ∧ takesTurn r (bus 7 .active State.reset)) ∧ 8 < (9 : Byte).toNat ∧
      (1 : Byte).toNat = (0 : Comp).val + 1 ∧ ((bus 7 .active State.reset).port 7).bus = .active ∧
      (∀ a, ((waking a).port 0).bus ≠ .active ∧ ((waking a).wakeOf 0).attempt = a) ∧
      Attempt.inFlight (.wait flight .final 8000) = true ∧ Attempt.inFlight (.failed .noLine) = false ∧
      (let s := (waking .none).modPort 0 fun p => { p with remoteWake := true }
       (s.port 0).bus = .suspended ∧ (s.port 0).remoteWake = true ∧ (s.comp 0).method ≠ .line) ∧
      ((waking .none).port 0).remoteWake = false ∧
      (((waking .none).modComp 0 fun c => { c with method := .both }).comp 0).method = .both ∧
      (let s := wired 15 (.wakePulse 0) 0 (waking .none)
       (s.line 15).config.role = .wakePulse 0 ∧ ∀ j, (s.line j).config.role = .wakePulse 0 → j = 15) ∧
      (∀ l, ((waking .none).line l).config.role ≠ .wakePulse 0) ∧ max 0 2300 < flight.deadline ∧
      ∀ f e, ((waking .none).wakeOf 0).attempt ≠ .busSignal f e :=
  ⟨fun _ _ => ⟨witness_turn rfl rfl, witness_turn rfl rfl⟩, by decide, by decide, rfl, fun _ => ⟨nofun, rfl⟩, by decide,
    by decide, by decide, by decide, rfl, by decide, by decide, by decide, nofun⟩

theorem witness_LinesConfiguredDrivenAndFiltered :
    (∀ r, takesTurn r State.reset ∧ takesTurn r (lockedAt 2 State.reset)) ∧ 15 < (16 : Byte).toNat ∧
      (15 : LineId).val = (15 : Byte).toNat ∧ roleOf 6 8 = some (.wakePulse 7) ∧ roleOf 4 0 = some .output ∧
      roleOf 3 0 = some .trigger ∧ (1 : LineId) ≠ 0 ∧ ¬ (8 : Byte) = 0 ∧ ¬ 8 < (8 : Byte).toNat ∧
      ((wired 1 (.wakePulse 7) 0 State.reset).line 1).config.role = .wakePulse 7 ∧
      (let s := wired 7 (.wakePulse 0) 0 (waking (.pulse flight 7 2300))
       (s.line 7).config.role = .wakePulse 0 ∧ (s.wakeOf 0).attempt = .pulse flight 7 2300 ∧ ¬ 2 ≤ s.lock.level) ∧
      (∀ r, takesTurn r (wired 1 .output 0 State.reset) ∧
        takesTurn r (wired 7 (.wakePulse 0) 0 (waking (.pulse flight 7 2300)))) ∧
      ((wired 1 .output 0 State.reset).line 1).config.role = .output ∧ (State.reset.line 0).config.role ≠ .output ∧
      (let l := State.reset.line 0
       Role.isOutput l.config.role = false ∧ l.hold = none ∧ l.candidate = some (false, 0) ∧ l.filtered ≠ some false) ∧
      (let l := (wired 1 .trigger 0 State.reset).line 1
       Role.isOutput l.config.role = false ∧ ({ l with candidate := none }).candidate = none) :=
  ⟨fun _ => ⟨turn _, locked_turn _ _⟩, by decide, by decide, by decide, by decide, by decide, by decide, by decide,
    by decide, by decide, by decide, fun _ => ⟨witness_turn rfl rfl, witness_turn rfl rfl⟩, by decide, by decide,
    by decide, by decide⟩

/-- 11.1: a released OPEN_DRAIN output pin is high under its pull-up unless the wiring drives it low. -/
theorem test_open_drain_pull_up :
    let l : Line := { State.reset.line 0 with
      config := ⟨.output, .openDrain, .normal, true, 0, .rising⟩, hold := none, level := false }
    Line.pin l = .float ∧ Line.pinHigh { l with wireLevel := false, wireStrong := false } = true ∧
      Line.pinHigh { l with wireLevel := false, wireStrong := true } = false ∧
      Line.pin { l with level := true } = .low ∧ Line.pinHigh { l with level := true } = false := by decide

/-- A sound state with a command waiting. -/
def soundState : State := { bare with layout := oneTile, pending := [.deskPointerAttach] }

theorem witness_EveryStepKeepsThePartSound : Sound soundState ∧ ∃ t, step soundState = .next t := by
  refine ⟨?_, _, rfl⟩
  constructor
  · exact oneTile_valid
  · exact ⟨_, List.mem_singleton_self _, by decide⟩
  · decide
  · exact bare_apart
  · intro l j n r _ hr hl
    have : ∀ l, (soundState.line l).config.role = .none := by decide
    rw [this] at hl
    subst hl
    simp at hr
  all_goals decide

theorem witness_ResetIsSound : tileOf State.reset.layout 0 = some ⟨0, 0, 0, 1920, 1080⟩ := by decide

/-- 11.4: the TALLY lines of the old and the new focus computer after SET_FOCUS LOCAL 2. -/
theorem test_tally_follows_focus :
    let s := wired 1 (.tally 1) 0 ((wired 0 (.tally 0) 0 State.reset).modLine 0 fun x => { x with level := true })
    let t := after (.setFocus 1 [2]) s
    (t.line 0).level = false ∧ (t.line 1).level = true := by decide

/-! ### The clauses on releases, captures and refused bytes -/

/-- C1 and C2 with a key and a button in their last records, both recipients. -/
def heldDown : State :=
  broadcasting.modRouter fun r =>
    { r with
      lastKey := upd (upd r.lastKey 0 fun _ => some ⟨.full, 0, [4]⟩) 1 fun _ => some ⟨.rollover, 0, [1, 1, 1, 1, 1, 1]⟩
      lastPointer := upd r.lastPointer 1 fun _ => some (.relative 31 1 1 1) }

/-- 3.7: what a release hands over, for each form of a last record. -/
theorem test_release_records :
    emptyRecordDue heldDown 0 = some ⟨.full, 0, []⟩ ∧ emptyRecordDue heldDown 1 = some ⟨.full, 0, []⟩ ∧
      emptyRecordDue (heldDown.modPort 1 fun p => { p with keyFormat := .boot }) 1 = some ⟨.boot, 0, []⟩ ∧
      emptyRecordDue heldDown 2 = none ∧ emptyRecordDue (bus 1 .detached heldDown) 1 = none ∧
      noButtonsDue heldDown 1 = some (.relative 0 0 0 0) ∧ noButtonsDue heldDown 0 = none := by decide

/-- A recipient that a SET_COMPUTER makes leave, and one that it makes join. -/
theorem witness_ComputerRecordWritten_recipients :
    (let u := writeComp 1 { heldDown.comp 1 with zone := 3 } heldDown
     isRecipient heldDown 1 = true ∧ isRecipient u 1 = false ∧ (u.control 1).holder = (heldDown.control 1).holder ∧
      (∀ m, isRecipient u m = true → isRecipient heldDown m = true)) ∧
    (let s := heldDown.modComp 1 fun c => { c with zone := 3 }
     let u := writeComp 1 { s.comp 1 with zone := 0 } s
     isRecipient u 1 = true ∧ isRecipient s 1 = false ∧ (u.control 1).holder = (s.control 1).holder) := by decide

theorem witness_refused_bytes :
    8 < (9 : Byte).toNat ∧ 1 < (2 : Byte).toNat ∧ 4 < (5 : Byte).toNat ∧ 15 < (16 : Byte).toNat ∧
      14 < (15 : Byte).toNat ∧ 6 < (7 : Byte).toNat ∧ 18 < (19 : Byte).toNat ∧
      ([] : List Byte).length % 9 = 0 ∧ ([] : List Byte).length + 9 + ([] : List Byte).length = 9 * (1 : Byte).toNat ∧
      ∀ r, takesTurn r State.reset :=
  ⟨by decide, by decide, by decide, by decide, by decide, by decide, by decide, by decide, by decide, turn⟩

theorem witness_MousePortStates_release :
    (∀ b ∈ [BusState.detached, .active],
      let s := bus 0 b onC1
      s.mouse.attached = true ∧ s.blank.state = .clear ∧ attached s = true ∧ s.pointer.rx = 0 ∧ s.pointer.ry = 0 ∧
        pointerTile s = some ⟨0, 0, 0, 1920, 1080⟩ ∧ s.focus.target = .loc 0 ∧
        assignmentOf s 0 = some (.head c1a) ∧ (s.control 0).holder = .desk ∧ (s.port 0).bus = b) ∧
    ((onC1.modControl 0 fun c => { c with holder := .link 0 }).control 0).holder ≠ .desk ∧
    (∀ v ∈ [ViewerControl.none, .held],
      let s := onN1 v anOffer
      s.mouse.attached = true ∧ s.blank.state = .clear ∧ attached s = true ∧
        pointerTile s = some ⟨0, 0, 0, 1920, 1080⟩ ∧ s.focus.target = .rem 0 ∧ (s.link 0).viewer = v ∧
        activeOffer s 0 = some anOffer ∧ ¬ (anOffer.mode.width = 0 ∧ anOffer.mode.height = 0)) := by decide

theorem witness_CapturedMotionIsRelative_nothing :
    (let s := (bus 0 .detached onC1).modPort 0 fun p => { p with pointerFormat := .boot }
     s.mouse.attached = true ∧ s.blank.state = .clear ∧ attached s = true ∧ s.focus.target = .loc 0 ∧
      (s.control 0).holder = .desk ∧ effMode s 0 = .relative ∧ (s.port 0).bus = .detached) ∧
    (let o : Offer := ⟨c1a, ⟨0, 0, 0⟩, .relative, 0⟩
     let s := onN1 .held o
     s.mouse.attached = true ∧ attached s = true ∧ s.focus.target = .rem 0 ∧ (s.link 0).viewer = .held ∧
      activeOffer s 0 = some o ∧ o.pointerMode = .relative ∧ o.mode.width = 0 ∧ o.mode.height = 0) := by decide

theorem witness_FocusSetByRequest_targets :
    (∀ r, takesTurn r State.reset ∧ takesTurn r (onN1 .held anOffer)) ∧
      FocusTarget.none ≠ State.reset.focus.target ∧ focusByte (.loc 7) = [8] ∧
      FocusTarget.loc 7 ≠ State.reset.focus.target ∧ focusByte (.rem 0) = [9] ∧
      activeOffer (viewing 0 .held) 0 = some anOffer ∧ FocusTarget.rem 0 ≠ (viewing 0 .held).focus.target ∧
      linkIsRecipient (onN1 .held anOffer) 0 = true :=
  ⟨fun _ => ⟨turn _, witness_turn rfl rfl⟩, by decide, by decide, by decide, by decide, by decide, by decide, by decide⟩

/-- The desk on the session of N1 with a key in the last KEYS frame. -/
def keyOnN1 : State := (onN1 .held anOffer).modRouter fun r => { r with linkKeys := upd r.linkKeys 0 fun _ => ⟨0, [4]⟩ }

theorem witness_KeyboardAttachAndDetach_records :
    (if isRecipient heldDown 1 then emptyRecordDue heldDown 1 else none) = some ⟨.full, 0, []⟩ ∧
      (if isRecipient heldDown 2 then emptyRecordDue heldDown 2 else none) = none ∧
      keyOnN1.focus.target = .rem 0 ∧ (keyOnN1.link 0).viewer = .held ∧ keyOnN1.blank.state = .clear ∧
      keyOnN1.linkKeys 0 ≠ ⟨0, []⟩ := by decide

theorem witness_PortQueuesTakeRecords_relative :
    let q (n : Nat) (b : Buttons) : List PointerRecord := List.replicate n (.absolute 0 0 0 0) ++ [.relative b 127 0 0]
    ([] : List PointerRecord).length < 16 ∧ (q 3 1).length = 4 ∧ 4 ≤ (q 3 1).length ∧ (q 15 1).length = 16 ∧
      (∀ x y w, PointerRecord.relative 0 127 0 0 ≠ .relative 1 x y w) ∧ (q 14 0).length < 16 :=
  ⟨by decide, by decide, by decide, by decide, nofun, by decide⟩

theorem witness_BlankEngagesAndResumes_place :
    (blankIn (.recovering 10)).blank.state ≠ .clear ∧ (∃ t ∈ State.reset.layout, t.monitor = 3) ∧
      (∀ t ∈ oneTile, t.monitor ≠ 3) ∧ 4 < (5 : Byte).toNat ∧ (4 : Byte).toNat = (3 : Monitor).val + 1 ∧
      ∀ r b, takesTurn r (blankIn b) :=
  ⟨nofun, by decide, by decide, by decide, by decide, fun _ _ => witness_turn rfl rfl⟩

/-- An UP link whose lane the desk shows and has its focus on. -/
theorem witness_link_down_on_focus :
    let s := onN1 .held anOffer
    (s.link 0).enabled = true ∧ (s.link 0).up = true ∧ (s.link 0).lastValid = some 0 ∧
      activeOffer s 0 = some anOffer ∧ s.focus.target = .rem 0 ∧ (1 : Byte).toNat = (0 : LinkId).val + 1 ∧
      takesTurn ⟨0x50, 1, [1, 0]⟩ s :=
  ⟨rfl, rfl, rfl, rfl, rfl, by decide, witness_turn rfl rfl⟩

theorem witness_AliveReconciles_rows :
    (⟨0, .none, false, .none, .none⟩ : Alive).zones = 0 ∧
      (let s := onN1 .held anOffer
       (s.link 0).enabled = true ∧ (activeOffer s 0).isSome = true ∧ s.focus.target = .rem 0) ∧
      (let s := onN1 .requested anOffer
       let t := reconcile 0 ⟨15, .active, true, .none, .requested⟩ s
       (s.link 0).viewer = .requested ∧ (t.link 0).viewer = .held ∧ s.focus.target = .rem 0 ∧
        s.blank.state = .clear) ∧
      (let t := reconcile 0 ⟨15, .none, false, .active, .none⟩ (held 0)
       ((held 0).link 0).outbound = .active c1a false ∧ (t.control 0).holder = .desk) := by decide

theorem witness_OwnerControlByRequest_recipients :
    let s := bus 0 .active (held 0)
    let back := s.modControl 0 fun x => { x with holder := .desk }
    (s.control 0).holder = .link 0 ∧ isRecipient back 0 = true ∧ isRecipient s 0 = false ∧
      (∀ m, isRecipient ((held 0).modControl 0 fun x => { x with holder := .desk }) m = true →
        isRecipient (held 0) m = true) ∧
      takesTurn ⟨0x5A, 1, [1]⟩ s :=
  ⟨rfl, by decide, by decide, by decide, witness_turn rfl rfl⟩

theorem witness_LockAcceptedOnce_rule :
    (∀ x, Instr.deskPointerAttach ≠ .deviceReset x) ∧ Instr.deskPointerAttach ≠ .warmReset ∧
      (∃ t, exec .deskPointerAttach (lockedAt 3 State.reset) = .next t) ∧
      ((lockedAt 3 State.reset).lock.used = false → (lockedAt 3 State.reset).lock.level = 0) ∧
      takesTurn ⟨0x01, 0, []⟩ (lockedAt 3 State.reset) ∧ (lockedAt 3 State.reset).lock.level ≤ 3 :=
  ⟨nofun, nofun, ⟨_, rfl⟩, nofun, locked_turn _ _, by decide⟩

/-- The focus on C1, which receives desk input, with C2 on M2. -/
def besideC2 : State :=
  { (bus 0 .active onC1).modOut 1 fun p => { p with assignment := some (.head ⟨1, .a⟩) } with layout := twoTiles }

/-- A focus that a placement, a setting or a glide changes, with a recipient to release, and one that it leaves. -/
theorem witness_focus_changes_and_stays :
    tileOf besideC2.layout 1 = some ⟨1, 1920, 0, 2560, 1440⟩ ∧ besideC2.blank.state = .clear ∧
      (∀ r, takesTurn r besideC2) ∧ formedTarget besideC2 (assignmentOf besideC2 1) ≠ besideC2.focus.target ∧
      formedTarget besideC2 (assignmentOf besideC2 0) = besideC2.focus.target ∧ isRecipient besideC2 0 = true ∧
      besideC2.focus.tile = some 0 ∧ formedTarget besideC2 none ≠ besideC2.focus.target :=
  ⟨by decide, rfl, fun _ => witness_turn rfl rfl, by decide, by decide, by decide, rfl, by decide⟩

theorem witness_ScenesStoredAndRecalled_placement :
    let s := besideC2.setScene 15 (some ⟨[(0, some (.lane 0)), (1, some (.head c1a))], some 0⟩)
    let look : Monitor → Target := fun m => if m = 1 then some (.head c1a) else assignmentOf s m
    (s.scene 15).map (fun x => (x.entries.map Prod.fst).Nodup) = some ([0, 1] : List Monitor).Nodup ∧
      look 1 = some (.head c1a) ∧ (∀ m, m ≠ 1 → look m = assignmentOf s m) ∧
      placement s look (.loc 0) = some 0 ∧ placement s look (.loc 7) = none ∧
      tileOf s.layout 0 = some ⟨0, 0, 0, 1920, 1080⟩ ∧ (∀ y, (s.link 0).inbound ≠ .active y) ∧
      (s.headMap c1a).enabled = true ∧ s.focus.target = .loc 0 ∧ s.focus.target ≠ .loc 7 := by
  refine ⟨rfl, rfl, fun m h => if_neg h, by decide, by decide, by decide, nofun, by decide, rfl, nofun⟩

theorem witness_WalkAtTheEdges_after :
    (let s := { besideC2 with pointer := { besideC2.pointer with px := 1919, threshold := 0 } }
     s.mouse.attached = true ∧ s.pointer.capture = false ∧ capturable s = false ∧
      pointerMonitor (walk .y 0 (walk .x 1 s)) = some 1 ∧
      formedTarget s (assignmentOf s 1) ≠ s.focus.target ∧ isRecipient s 0 = true) ∧
    (let x := { bus 1 .active besideC2 with
       focus := ⟨.loc 1, .glide, some 1⟩, pointer := { besideC2.pointer with px := 1920 } }
     attached x = true ∧ capturable x = false ∧ pointerTile x = some ⟨1, 1920, 0, 2560, 1440⟩ ∧
      assignmentOf x 1 = some (.head ⟨1, .a⟩) ∧ (x.control 1).holder = .desk ∧ (x.port 1).bus ≠ .detached ∧
      capturable (x.modPort 1 fun p => { p with pointerFormat := .boot }) = true) := by
  decide

theorem witness_CapturedMotionIsRelative_held :
    (let s := { desk with pointer := { desk.pointer with capture := true } }
     s.mouse.attached = true ∧ s.blank.state = .clear ∧ s.pointer.capture = true ∧ attached s = false) ∧
    (let s := { onC1.modControl 0 fun c => { c with holder := .link 0 } with
       pointer := { onC1.pointer with capture := true } }
     s.mouse.attached = true ∧ s.blank.state = .clear ∧ s.focus.target = .loc 0 ∧ (s.control 0).holder ≠ .desk) ∧
    (let s := { onN1 .none anOffer with pointer := { State.reset.pointer with capture := true } }
     s.mouse.attached = true ∧ s.blank.state = .clear ∧ s.focus.target = .rem 0 ∧ (s.link 0).viewer ≠ .held) := by
  decide

theorem witness_BusEventsMoveThePort_recipients :
    (State.reset.port 0).bus = .detached ∧
      (isRecipient (bus 0 .attached State.reset) 0 = true ∧ isRecipient State.reset 0 = false) ∧
      (∀ m, isRecipient (bus 1 .attached State.reset) m = true → isRecipient State.reset m = true) ∧
      (isRecipient broadcasting 1 = true ∧ isRecipient (bus 0 .detached broadcasting) 1 = false) := by
  decide

/-- A 33rd key is not held and counts one ignored press (R47). -/
theorem test_ignored_press :
    let full := { State.reset with keyboard :=
      { State.reset.keyboard with attached := true, held := ⟨0, (List.range 32).map (· + 10)⟩ } }
    (match exec (.deskKeyboardReport 0 ((List.range 33).map fun i => BitVec.ofNat 8 (i + 10))) full with
      | .next t => t.keyboard.ignoredPresses
      | _ => 0) = 1 := by
  decide

/-- A tail of the same buttons that merges, another tail in a queue at the flow threshold and in a full one, and an
empty queue under a flow threshold of 0. -/
theorem witness_PortQueuesTakeRecords_absolute :
    let q (n : Nat) (l : PointerRecord) : List PointerRecord := List.replicate n (.absolute 0 0 0 0) ++ [l]
    (4 ≤ (q 3 (.absolute 1 5 5 127)).length) ∧ (q 15 (.absolute 1 5 5 127)).length = 16 ∧
      (∀ x y w, PointerRecord.relative 1 127 0 0 ≠ .absolute 1 x y w) ∧
      (∀ x y w, PointerRecord.absolute 0 0 0 0 ≠ .absolute 1 x y w) ∧
      pushPointer (.absolute 1 7 7 127) { Port.reset with flow := 0 } =
        { Port.reset with
          flow := 0, pointerQueue := [.absolute 1 7 7 127], buttons := 1
          counters := { Port.reset.counters with pointerQueued := 1 } } :=
  ⟨by decide, by decide, nofun, nofun, by decide⟩

/-- A SET_COMPUTER whose policy AUTO makes the oldest claim due, one that leaves the policy, and a claim list of none. -/
theorem witness_ComputerRecordWritten_grant :
    let s := (owner 0).modControl 0 fun c => { c with claims := [⟨0, 0, false⟩] }
    let c := s.comp 0
    let body (p : SharePolicy) : List Byte :=
      compByte 0 ++ byte1 c.zone.val ++ pointerModeByte c.pointerMode ++ policyByte p ++ byte2 c.quietTime ++
        flag c.autoWake ++ methodByte c.method ++ byte2 c.wakeTimeout ++ byte2 c.pulseWidth ++ byte2 c.vw ++ byte2 c.vh
    takesTurn ⟨0x10, 0, body .auto⟩ s ∧ SharePolicy.auto ≠ c.policy ∧ (s.control 0).holder = .desk ∧
      (s.control 0).lastDesk = none ∧ ((after (.setComputer 0 (body .auto)) s).control 0).holder = .link 0 ∧
      ((after (.setComputer 0 (body c.policy)) s).control 0).holder = .desk ∧ ((owner 0).control 0).claims = [] :=
  ⟨witness_turn rfl rfl, by decide, rfl, rfl, by decide, by decide, rfl⟩

/-- Privacy blank ENGAGED, as RESUME_BLANK finds it, and the broadcast that BROADCAST_TOGGLE turns over. -/
theorem witness_TriggerRunsItsAction_turns :
    (blankIn (.engaged ⟨false, true, false⟩)).blank.state ≠ .clear ∧
      (blankIn (.engaged ⟨false, true, false⟩)).blank.asserted = [] ∧
      State.reset.blank.state = .clear ∧
      broadcasting.router.broadcast = true ∧ isRecipient broadcasting 1 = true ∧
      isRecipient { broadcasting with router := { broadcasting.router with broadcast := false } } 1 = false := by
  decide

/-- The lists that CLAIM and RELEASE meet in each state of the outbound session. -/
theorem witness_OwnerTakesClaims_sessions :
    ((up 0 State.reset).link 0).outbound = .none ∧
      (∃ h v d, ((offering 0).link 0).outbound = .offered h v d) ∧
      (let s := (owner 0).modControl 0 fun c => { c with claims := [⟨0, 0, false⟩] }
       (s.control 0).holder ≠ .link 0 ∧ (s.control 0).claims.any (fun c => c.link == 0) = true) :=
  ⟨rfl, ⟨_, _, _, rfl⟩, by decide⟩

/-- A GRANT whose lane the focus is on, and one whose lane it is not on. -/
theorem witness_ViewerControlMoves_mask :
    (let s := onN1 .requested anOffer
     (s.link 0).viewer = .requested ∧ s.focus.target = .rem 0 ∧ s.blank.state = .clear) ∧
    (let s := viewing 0 .requested
     (s.link 0).viewer = .requested ∧ s.focus.target ≠ .rem 0) := by decide

end Sys2Proof.Tests
end

section
/-!
SUPPORT. What every command other than a reset and the requests that write settings keeps: the lock, the layout, the
tables and every frozen setting as they were, the desk pointer in a tile, and the queues within their sizes. The relation
is proved of each shared operation once, in the order of the model's files.
-/

namespace Sys2Proof.Machine

open Sys2Proof

/-- The desk pointer lies in a tile of the layout (R18). -/
def inTile (s : State) : Prop := ∃ t ∈ s.layout, Tile.contains t s.pointer.px s.pointer.py = true

/-- The fields of a computer record that a lock level freezes (R14). -/
def CompRecord.frozenPart (c : CompRecord) : Zone × SharePolicy × PointerMode × Nat × Nat :=
  (c.zone, c.policy, c.pointerMode, c.vw, c.vh)

/-- The settings of the privacy blank unit (R127). -/
def BlankUnit.settings (b : BlankUnit) : Bool × Nat × Bool := (b.autoRecover, b.holdTime, b.hotkeyResume)

/-- The settings of the hotkey matcher (R86). -/
def Matcher.windows (m : Matcher) : Nat × Nat := (m.tapWindow, m.commandWindow)

/-- The queues of the supervisor link are within their sizes (R188, R191). -/
def Supervisor.bounded (p : Supervisor) : Prop :=
  p.requests.length ≤ 4 ∧ p.replies.length ≤ 8 ∧ p.notices.length ≤ 16

/-- Both queues of a port are within their sizes (R58). -/
def Port.bounded (p : Port) : Prop := p.keyQueue.length ≤ 32 ∧ p.pointerQueue.length ≤ 16

/-- From `s` to `t` every setting that a lock level freezes, the lock and the tables stay as they were, and what is
within its bounds in `s` is within them in `t`. -/
structure Keeps (s t : State) : Prop where
  lock : t.lock = s.lock
  desk : t.desk = s.desk
  heads : t.heads = s.heads
  layout : t.layout = s.layout
  hotkeys : t.hotkeys = s.hotkeys
  comp : ∀ n, CompRecord.frozenPart (t.comp n) = CompRecord.frozenPart (s.comp n)
  windows : Matcher.windows t.matcher = Matcher.windows s.matcher
  configs : ∀ l, (t.line l).config = (s.line l).config
  blank : BlankUnit.settings t.blank = BlankUnit.settings s.blank
  inTile : validLayout s.layout → inTile s → inTile t
  held : s.keyboard.held.keys.length ≤ 32 → t.keyboard.held.keys.length ≤ 32
  ports : (∀ n, Port.bounded (s.port n)) → ∀ n, Port.bounded (t.port n)
  sendQueues : (∀ k, (s.link k).sendQueue.length ≤ 32) → ∀ k, (t.link k).sendQueue.length ≤ 32
  sup : Supervisor.bounded s.sup → Supervisor.bounded t.sup

variable {s t u : State}

theorem Keeps.refl (s : State) : Keeps s s :=
  ⟨rfl, rfl, rfl, rfl, rfl, fun _ => rfl, rfl, fun _ => rfl, rfl, fun _ h => h, id, id, id, id⟩

theorem Keeps.trans (h : Keeps s t) (g : Keeps t u) : Keeps s u where
  lock := g.lock.trans h.lock
  desk := g.desk.trans h.desk
  heads := g.heads.trans h.heads
  layout := g.layout.trans h.layout
  hotkeys := g.hotkeys.trans h.hotkeys
  comp n := (g.comp n).trans (h.comp n)
  windows := g.windows.trans h.windows
  configs l := (g.configs l).trans (h.configs l)
  blank := g.blank.trans h.blank
  inTile hv hs := g.inTile (by rw [h.layout]; exact hv) (h.inTile hv hs)
  held hs := g.held (h.held hs)
  ports hs := g.ports (h.ports hs)
  sendQueues hs := g.sendQueues (h.sendQueues hs)
  sup hs := g.sup (h.sup hs)

/-- What keeps at each element of a list keeps through the whole list. -/
theorem foldl_keeps {α : Type} {f : State → α → State} (hf : ∀ u x, Keeps u (f u x)) (l : List α) (h : Keeps s t) :
    Keeps s (l.foldl f t) := by
  induction l generalizing t with
  | nil => exact h
  | cons x l ih => exact ih (h.trans (hf t x))

/-- Soundness passes along a change that keeps what it speaks of. -/
theorem Keeps.sound (h : Keeps s t) (hs : Sound s) : Sound t where
  layout := by rw [h.layout]; exact hs.layout
  pointer := h.inTile hs.layout hs.pointer
  lock := by rw [h.lock]; exact hs.lock
  hotkeys := by
    have hk : ∀ i, t.hotkey i = s.hotkey i := fun i => by simp only [State.hotkey, h.hotkeys]
    intro i j d e hij hd he
    exact hs.hotkeys i j d e hij (by rw [← hk]; exact hd) (by rw [← hk]; exact he)
  roles l j n r hlj hr hl := by rw [h.configs] at hl ⊢; exact hs.roles l j n r hlj hr hl
  held := h.held hs.held
  keyQueues n := (h.ports (fun n => ⟨hs.keyQueues n, hs.pointerQueues n⟩) n).1
  pointerQueues n := (h.ports (fun n => ⟨hs.keyQueues n, hs.pointerQueues n⟩) n).2
  sendQueues := h.sendQueues hs.sendQueues
  requests := (h.sup ⟨hs.requests, hs.replies, hs.notices⟩).1
  replies := (h.sup ⟨hs.requests, hs.replies, hs.notices⟩).2.1
  notices := (h.sup ⟨hs.requests, hs.replies, hs.notices⟩).2.2

/-! ### The updates of the state -/

/-- An update that writes none of the fields that `Keeps` speaks of. -/
theorem Keeps.of_same (h : Keeps s t)
    (hu : u = { t with
      now := u.now, focus := u.focus, mouse := u.mouse, router := u.router, lineTriggers := u.lineTriggers
      inputs := u.inputs, outputs := u.outputs, crosspointStart := u.crosspointStart, scenes := u.scenes
      controls := u.controls, wake := u.wake, pending := u.pending }) : Keeps s u := by
  rw [hu]
  exact ⟨h.lock, h.desk, h.heads, h.layout, h.hotkeys, h.comp, h.windows, h.configs, h.blank, h.inTile, h.held, h.ports,
    h.sendQueues, h.sup⟩

theorem modPointer_keeps {f : DeskPointer → DeskPointer} (h : Keeps s t)
    (hf : ∀ p, (f p).px = p.px ∧ (f p).py = p.py) : Keeps s (t.modPointer f) :=
  { h with
    inTile := fun hv hs => by
      obtain ⟨b, hb, hc⟩ := h.inTile hv hs
      obtain ⟨hx, hy⟩ := hf t.pointer
      exact ⟨b, hb, by rw [State.modPointer_pointer, hx, hy]; exact hc⟩ }

/-- A move of the desk pointer to a place in a tile. -/
theorem pointerMoved_keeps {f : DeskPointer → DeskPointer} (h : Keeps s t)
    (hf : validLayout t.layout → inTile t →
      ∃ b ∈ t.layout, Tile.contains b (f t.pointer).px (f t.pointer).py = true) : Keeps s (t.modPointer f) :=
  { h with
    inTile := fun hv hs => hf (by rw [h.layout]; exact hv) (h.inTile hv hs) }

theorem modKeyboard_keeps {f : KeyboardPort → KeyboardPort} (h : Keeps s t)
    (hf : t.keyboard.held.keys.length ≤ 32 → (f t.keyboard).held.keys.length ≤ 32) :
    Keeps s (t.modKeyboard f) :=
  { h with held := fun hs => hf (h.held hs) }

theorem modMatcher_keeps {f : Matcher → Matcher} (h : Keeps s t)
    (hf : ∀ m, Matcher.windows (f m) = Matcher.windows m) : Keeps s (t.modMatcher f) :=
  { h with windows := (hf t.matcher).trans h.windows }

theorem modBlank_keeps {f : BlankUnit → BlankUnit} (h : Keeps s t)
    (hf : ∀ b, BlankUnit.settings (f b) = BlankUnit.settings b) : Keeps s (t.modBlank f) :=
  { h with blank := (hf t.blank).trans h.blank }

theorem modComp_keeps {f : CompRecord → CompRecord} {n : Comp} (h : Keeps s t)
    (hf : ∀ c, CompRecord.frozenPart (f c) = CompRecord.frozenPart c) : Keeps s (t.modComp n f) :=
  { h with
    comp := fun m => by
      rw [State.modComp_comp]
      split
      · rw [hf]; exact h.comp m
      · exact h.comp m }

theorem modPort_keeps {f : Port → Port} {n : Comp} (h : Keeps s t)
    (hf : ∀ p, Port.bounded p → Port.bounded (f p)) : Keeps s (t.modPort n f) :=
  { h with
    ports := fun hs m => by
      rw [State.modPort_port]
      split
      · exact hf _ (h.ports hs m)
      · exact h.ports hs m }

theorem modLink_keeps {f : Link → Link} {k : LinkId} (h : Keeps s t)
    (hf : ∀ l, l.sendQueue.length ≤ 32 → (f l).sendQueue.length ≤ 32) : Keeps s (t.modLink k f) :=
  { h with
    sendQueues := fun hs j => by
      rw [State.modLink_link]
      split
      · exact hf _ (h.sendQueues hs j)
      · exact h.sendQueues hs j }

theorem modLine_keeps {f : Line → Line} {l : LineId} (h : Keeps s t)
    (hf : ∀ x, (f x).config = x.config) : Keeps s (t.modLine l f) :=
  { h with
    configs := fun j => by
      rw [State.modLine_line]
      split
      · rw [hf]; exact h.configs j
      · exact h.configs j }

theorem modSup_keeps {f : Supervisor → Supervisor} (h : Keeps s t)
    (hf : ∀ p, Supervisor.bounded p → Supervisor.bounded (f p)) : Keeps s (t.modSup f) :=
  { h with sup := fun hs => hf _ (h.sup hs) }

theorem modControl_keeps {f : Control → Control} {n : Comp} (h : Keeps s t) : Keeps s (t.modControl n f) :=
  h.of_same rfl

theorem modRouter_keeps {f : Router → Router} (h : Keeps s t) : Keeps s (t.modRouter f) := h.of_same rfl

theorem modOut_keeps {f : Output → Output} {o : OutputId} (h : Keeps s t) : Keeps s (t.modOut o f) := h.of_same rfl

theorem modWake_keeps {f : WakeRecord → WakeRecord} {n : Comp} (h : Keeps s t) : Keeps s (t.modWake n f) :=
  h.of_same rfl

theorem setFocus_keeps {r : FocusRecord} (h : Keeps s t) : Keeps s (t.setFocus r) := h.of_same rfl

theorem reach_keeps {d : Nat} (h : Keeps s t) : Keeps s (reach d t) := h.of_same rfl

/-! ### The queues of the supervisor link -/

theorem queueNotice_bounded (c : NoticeClass) (f : SupFrame) {p : Supervisor} (h : Supervisor.bounded p) :
    Supervisor.bounded (queueNotice c f p) := by
  obtain ⟨hr, hp, hn⟩ := h
  rcases queueNotice_cases c f p with ⟨-, e⟩ | ⟨-, hl, e⟩ | ⟨-, -, e⟩ <;> rw [e]
  · exact ⟨hr, hp, hn⟩
  · exact ⟨hr, hp, by simpa using hl⟩
  · exact ⟨hr, hp, hn⟩

theorem placeWaiting_bounded {p : Supervisor} (h : Supervisor.bounded p) : Supervisor.bounded (placeWaiting p) := by
  obtain ⟨hr, hp, hn⟩ := h
  unfold placeWaiting
  split
  · split
    next hl =>
      have : p.replies.length < 8 := hl
      exact ⟨by simp; omega, by simp; omega, hn⟩
    · exact ⟨hr, hp, hn⟩
  · exact ⟨hr, hp, hn⟩

theorem transmitNext_bounded {p : Supervisor} (h : Supervisor.bounded p) : Supervisor.bounded (transmitNext p) := by
  obtain ⟨hr, hp, hn⟩ := h
  rcases transmitNext_cases p with e | ⟨r, rest, hq, e⟩ | ⟨f, rest, -, hq, e⟩ <;> rw [e]
  · exact ⟨hr, hp, hn⟩
  · rw [hq, List.length_cons] at hp
    exact placeWaiting_bounded ⟨hr, Nat.le_of_succ_le hp, hn⟩
  · rw [hq, List.length_cons] at hn
    exact ⟨hr, hp, Nat.le_of_succ_le hn⟩

theorem receiveRequest_bounded (r : Request) {p : Supervisor} (h : Supervisor.bounded p) :
    Supervisor.bounded (receiveRequest r p) := by
  obtain ⟨hr, hp, hn⟩ := h
  rcases receiveRequest_cases r p with ⟨hl, e⟩ | ⟨-, hl, e⟩ | ⟨-, -, e⟩ <;> rw [e]
  · exact ⟨by simpa using hl, hp, hn⟩
  · exact ⟨hr, by simpa using hl, hn⟩
  · exact ⟨hr, hp, hn⟩

theorem finishRequest_bounded (f : SupFrame) {p : Supervisor} (h : Supervisor.bounded p) :
    Supervisor.bounded (finishRequest f p) := by
  obtain ⟨hr, hp, hn⟩ := h
  rcases finishRequest_cases f p with ⟨hl, e⟩ | ⟨-, e⟩ <;> rw [e]
  · exact ⟨by simp; omega, by simpa using hl, hn⟩
  · exact ⟨hr, hp, hn⟩

theorem enterQueue_bounded (r : Request) {p : Supervisor} (h : Supervisor.bounded p) :
    Supervisor.bounded (enterQueue r p) := by
  obtain ⟨hr, hp, hn⟩ := h
  unfold enterQueue
  split
  · exact ⟨by simp, hp, hn⟩
  · exact ⟨hr, hp, hn⟩

theorem notify_keeps {c : NoticeClass} {f : SupFrame} (h : Keeps s t) : Keeps s (notify c f t) :=
  modSup_keeps h fun _ => queueNotice_bounded c f

/-- A request that runs keeps what its judgement keeps. -/
theorem runRequest_keeps {r : Request} {judge : List Byte → State → Judged}
    (hj : ∀ b u, Keeps u (judge b u).state) (h : Keeps s t) : Keeps s (runRequest r judge t) := by
  unfold runRequest
  dsimp only
  split
  · exact modSup_keeps ((modSup_keeps h fun _ => enterQueue_bounded r).trans (hj _ _)) fun _ => finishRequest_bounded _
  · exact modSup_keeps h fun _ => receiveRequest_bounded r

/-! ### Records and frames handed over -/

theorem pushKey_bounded (r : KeyRecord) {p : Port} (h : Port.bounded p) : Port.bounded (pushKey r p) := by
  obtain ⟨hk, hq⟩ := h
  unfold pushKey
  dsimp only
  split
  next hl =>
    have : p.keyQueue.length < 32 := hl
    exact ⟨by simp; omega, hq⟩
  · exact ⟨by simp; omega, hq⟩

/-- The only way in which the pointer queue grows is an append, to a queue that is not full (R68). -/
theorem pointerIntake_append {r : PointerRecord} {p : Port} (h : pointerIntake r p = .append) :
    p.pointerQueue.length < 16 := by
  by_contra hl
  cases hq : p.pointerQueue.getLast? with
  | none => rw [List.getLast?_eq_none_iff] at hq; simp [hq] at hl
  | some t => by_cases hm : mergeable t r <;> simp [pointerIntake, Config.pointerQueue, hl, hq, hm] at h

theorem pushPointer_bounded (r : PointerRecord) {p : Port} (h : Port.bounded p) : Port.bounded (pushPointer r p) := by
  obtain ⟨hk, hq⟩ := h
  unfold pushPointer
  dsimp only
  split
  next hi =>
    have := pointerIntake_append hi
    exact ⟨hk, by simp; omega⟩
  next t hi =>
    have : p.pointerQueue ≠ [] := by
      intro he
      simp [pointerIntake, he, Config.pointerQueue] at hi
    have := List.length_pos_iff.mpr this
    exact ⟨hk, by simp; omega⟩
  next hi =>
    have := ((replaces_iff r p).mp hi).1
    exact ⟨hk, by simp; omega⟩

theorem enqueueFrame_bounded (m : LinkMsg) (l : Link) (h : l.sendQueue.length ≤ 32) :
    (enqueueFrame m l).sendQueue.length ≤ 32 := by
  unfold enqueueFrame
  split
  · exact h
  · split
    next hl =>
      have : l.sendQueue.length < 32 := hl
      simp; omega
    · exact h

end Sys2Proof.Machine
end

section
/-!
SUPPORT. Delivery, the input router, the crosspoint, control, wake, the sessions and the links keep what `Keeps` names.
-/

namespace Sys2Proof.Machine

open Sys2Proof

variable {s t u : State}

theorem ite_keeps {c : Prop} [Decidable c] {a b : State} (ha : Keeps s a) (hb : Keeps s b) :
    Keeps s (if c then a else b) := by
  split
  · exact ha
  · exact hb

/-- A judgement that answers one of two judgements. -/
theorem judged_ite_keeps {c : Prop} [Decidable c] {a b : Judged} (ha : Keeps s a.state) (hb : Keeps s b.state) :
    Keeps s (if c then a else b).state := by
  split
  · exact ha
  · exact hb

/-! ### Records and frames handed over -/

theorem setLastKey_keeps {n : Comp} {r : Option KeyRecord} (h : Keeps s t) : Keeps s (setLastKey n r t) :=
  modRouter_keeps h

theorem setLastPointer_keeps {n : Comp} {r : Option PointerRecord} (h : Keeps s t) :
    Keeps s (setLastPointer n r t) :=
  modRouter_keeps h

theorem setLinkKeys_keeps {k : LinkId} {ks : KeyState} (h : Keeps s t) : Keeps s (setLinkKeys k ks t) :=
  modRouter_keeps h

theorem setLinkPointer_keeps {k : LinkId} {f : Option PointerFrame} (h : Keeps s t) :
    Keeps s (setLinkPointer k f t) :=
  modRouter_keeps h

theorem portKey_keeps {n : Comp} {r : KeyRecord} (h : Keeps s t) : Keeps s (portKey n r t) := by
  have hp := modPort_keeps (n := n) h fun _ => pushKey_bounded r
  exact ite_keeps (notify_keeps hp) hp

theorem portPointer_keeps {n : Comp} {r : PointerRecord} (h : Keeps s t) : Keeps s (portPointer n r t) := by
  have hp := modPort_keeps (n := n) h fun _ => pushPointer_bounded r
  exact ite_keeps (notify_keeps hp) hp

theorem touchDesk_keeps {f : Former} {n : Comp} (h : Keeps s t) : Keeps s (touchDesk f n t) := by
  cases f
  · exact modControl_keeps h
  · exact h

theorem deliverKeys_keeps {f : Former} {n : Comp} {k : KeyState} (h : Keeps s t) : Keeps s (deliverKeys f n k t) :=
  ite_keeps h (touchDesk_keeps (setLastKey_keeps (portKey_keeps h)))

theorem deliverPointer_keeps {f : Former} {n : Comp} {r : PointerRecord} (h : Keeps s t) :
    Keeps s (deliverPointer f n r t) :=
  ite_keeps (touchDesk_keeps (setLastPointer_keeps (portPointer_keeps h))) h

theorem releaseInput_keeps {f : Former} {n : Comp} (h : Keeps s t) : Keeps s (releaseInput f n t) := by
  have hk := deliverKeys_keeps (f := f) (n := n) (k := KeyState.empty) h
  unfold releaseInput
  dsimp only
  split
  · exact ite_keeps hk (deliverPointer_keeps hk)
  · exact hk

theorem clearCarry_keeps {n : Comp} (h : Keeps s t) : Keeps s (clearCarry n t) :=
  modPort_keeps h (by exact fun _ hp => hp)

theorem flushKeys_keeps {n : Comp} (h : Keeps s t) : Keeps s (flushKeys n t) :=
  setLastKey_keeps (modPort_keeps h (by exact fun _ hp => ⟨Nat.zero_le _, hp.2⟩))

theorem flushPointer_keeps {n : Comp} (h : Keeps s t) : Keeps s (flushPointer n t) :=
  setLastPointer_keeps (modPort_keeps h (by exact fun _ hp => ⟨hp.1, Nat.zero_le _⟩))

theorem flushPort_keeps {n : Comp} (h : Keeps s t) : Keeps s (flushPort n t) :=
  flushPointer_keeps (flushKeys_keeps h)

theorem sendFrame_keeps {k : LinkId} {m : LinkMsg} (h : Keeps s t) : Keeps s (sendFrame k m t) :=
  modLink_keeps h (enqueueFrame_bounded m)

theorem sendKeys_keeps {k : LinkId} {ks : KeyState} (h : Keeps s t) : Keeps s (sendKeys k ks t) :=
  ite_keeps h (setLinkKeys_keeps (sendFrame_keeps h))

theorem sendPointer_keeps {k : LinkId} {f : PointerFrame} (h : Keeps s t) : Keeps s (sendPointer k f t) :=
  setLinkPointer_keeps (sendFrame_keeps h)

theorem releaseLink_keeps {k : LinkId} (h : Keeps s t) : Keeps s (releaseLink k t) := by
  have hk := sendKeys_keeps (k := k) (ks := KeyState.empty) h
  unfold releaseLink
  dsimp only
  split
  · exact ite_keeps hk (sendPointer_keeps hk)
  · exact hk

/-! ### The recipient set -/

theorem maskHeld_keeps (h : Keeps s t) : Keeps s (maskHeld t) := modRouter_keeps h

theorem releaseLeavers_keeps {old : State} (h : Keeps s t) : Keeps s (releaseLeavers old t) :=
  foldl_keeps (fun u _ => ite_keeps (releaseLink_keeps (.refl u)) (.refl u)) _
    (foldl_keeps (fun u _ => ite_keeps (releaseInput_keeps (.refl u)) (.refl u)) _ h)

theorem rederive_keeps {old : State} (h : Keeps s t) : Keeps s (rederive old t) :=
  ite_keeps (maskHeld_keeps (releaseLeavers_keeps h)) (releaseLeavers_keeps h)

/-! ### The focus -/

theorem clearCapture_keeps (h : Keeps s t) : Keeps s (clearCapture t) := by
  have hp : Keeps s (t.modPointer fun p => { p with capture := false }) :=
    modPointer_keeps h (by exact fun _ => ⟨rfl, rfl⟩)
  unfold clearCapture
  dsimp only
  split
  · split
    · exact clearCarry_keeps hp
    · exact hp
  · exact h

theorem checkLights_keeps (h : Keeps s t) : Keeps s (checkLights t) := ite_keeps (modKeyboard_keeps h (by exact id)) h

theorem setTally_keeps {l : LineId} (h : Keeps s t) : Keeps s (setTally t l) := by
  unfold setTally
  split
  · exact modLine_keeps h (by exact fun _ => rfl)
  · exact h

theorem tellTally_keeps (h : Keeps s t) : Keeps s (tellTally t) := foldl_keeps (fun u _ => setTally_keeps (.refl u)) _ h

theorem takeGlideZone_keeps {r : FocusTarget} (h : Keeps s t) : Keeps s (takeGlideZone r t) := by
  unfold takeGlideZone
  split
  · exact h
  · exact modPointer_keeps h (by exact fun _ => ⟨rfl, rfl⟩)
  · split
    · exact modPointer_keeps h (by exact fun _ => ⟨rfl, rfl⟩)
    · exact h

/-- The centre of a tile that is not empty lies in it (R30). -/
theorem centre_contained {b : Tile} (hw : 8 ≤ b.w) (hh : 8 ≤ b.h) :
    Tile.contains b (Tile.centre b).1 (Tile.centre b).2 = true := by
  simp [Tile.contains, Tile.centre]
  omega

theorem placeAt_keeps {m : Option Monitor} (h : Keeps s t) : Keeps s (placeAt m t) := by
  unfold placeAt
  split
  next b hb =>
    refine pointerMoved_keeps h fun hv _ => ⟨b, ?_, ?_⟩
    all_goals
      obtain ⟨_, -, hf⟩ := Option.bind_eq_some_iff.mp hb
      have hm := List.mem_of_find?_eq_some hf
    · exact hm
    · obtain ⟨-, -, hw, -, hh, -⟩ := hv.2.2.1 b hm
      exact centre_contained hw hh
  · exact h

theorem noticeFocus_keeps {old : State} (h : Keeps s t) : Keeps s (noticeFocus old t) := ite_keeps h (notify_keeps h)

theorem leaveTarget_keeps {old : FocusTarget} (h : Keeps s t) : Keeps s (leaveTarget old t) := by
  have hp : Keeps s (t.modPointer fun p => { p with capture := false }) :=
    modPointer_keeps h (by exact fun _ => ⟨rfl, rfl⟩)
  unfold leaveTarget
  dsimp only
  split
  · exact clearCarry_keeps hp
  · exact hp

theorem focusChange_keeps {r : FocusTarget} {o : Origin} {m : Option Monitor} {place : Bool} (h : Keeps s t) :
    Keeps s (focusChange r o m place t) := by
  have h7 := noticeFocus_keeps (old := t) (checkLights_keeps (tellTally_keeps (takeGlideZone_keeps (r := r)
    (releaseLeavers_keeps (old := t) (leaveTarget_keeps (old := t.focus.target)
      (setFocus_keeps (r := ⟨r, o, m⟩) (maskHeld_keeps h)))))))
  exact ite_keeps (placeAt_keeps h7) h7

theorem writePlaced_keeps {r : FocusTarget} {o : Origin} {m : Option Monitor} (h : Keeps s t) :
    Keeps s (writePlaced r o m t) :=
  ite_keeps (noticeFocus_keeps (placeAt_keeps (setFocus_keeps (clearCapture_keeps h)))) (focusChange_keeps h)

theorem focusBy_keeps {r : FocusTarget} {o : Origin} (h : Keeps s t) : Keeps s (focusBy r o t) := writePlaced_keeps h

theorem reevaluate_keeps {m : Monitor} (h : Keeps s t) : Keeps s (reevaluate m t) :=
  ite_keeps (noticeFocus_keeps (setFocus_keeps h)) (focusChange_keeps h)

theorem outputSet_keeps {o : OutputId} (h : Keeps s t) : Keeps s (outputSet o t) := by
  unfold outputSet
  split
  · exact h
  next m _ =>
    have hc : Keeps s (if pointerMonitor t = some m then clearCapture t else t) := ite_keeps (clearCapture_keeps h) h
    exact ite_keeps (reevaluate_keeps hc) hc

theorem sessionFocusEnd_keeps {k : LinkId} (h : Keeps s t) : Keeps s (sessionFocusEnd k t) :=
  ite_keeps (focusChange_keeps h) h

theorem focusBlank_keeps {old : State} (h : Keeps s t) : Keeps s (focusBlank old t) :=
  noticeFocus_keeps (releaseLeavers_keeps (clearCapture_keeps (setFocus_keeps (maskHeld_keeps h))))

/-! ### The crosspoint -/

theorem enterState_keeps {o : OutputId} {st : OutputState} (h : Keeps s t) : Keeps s (enterState o st t) :=
  notify_keeps (modOut_keeps h)

theorem enterLocking_keeps {o : OutputId} {v : InputState} (h : Keeps s t) : Keeps s (enterLocking o v t) :=
  enterState_keeps h

theorem setCrosspoint_keeps {o : OutputId} {r : Target} (h : Keeps s t) : Keeps s (setCrosspoint o r t) := by
  have ho := outputSet_keeps (o := o) (modOut_keeps (o := o) (f := fun x => { x with assignment := r }) h)
  cases r
  · exact enterState_keeps ho
  · exact enterLocking_keeps ho

theorem startSwitch_keeps {o : OutputId} (h : Keeps s t) : Keeps s (startSwitch o t) := by
  unfold startSwitch
  dsimp only
  split
  · exact h
  next r _ =>
    have he : Keeps s (enterState o (.blanking r (t.now + (t.out o).blankLead))
        ((t.modOut o fun r => { r with pendingSlot := none, lastStart := some t.now }).setCrosspointStart
          (some t.now))) := enterState_keeps (Keeps.of_same (modOut_keeps h) rfl)
    exact ite_keeps (setCrosspoint_keeps he) he

theorem followInput_keeps {i : Input} {v : InputState} {o : OutputId} (h : Keeps s t) :
    Keeps s (followInput i v t o) := by
  unfold followInput
  split
  · split
    · exact modOut_keeps h
    · exact ite_keeps (enterState_keeps h) (enterLocking_keeps h)
    · exact ite_keeps h (enterLocking_keeps h)
    · exact h
  · exact h

theorem sendModeFor_keeps {x : Head} {k : LinkId} (h : Keeps s t) : Keeps s (sendModeFor x t k) :=
  ite_keeps (sendFrame_keeps h) h

theorem changeInput_keeps {i : Input} {v : InputState} (h : Keeps s t) : Keeps s (changeInput i v t) := by
  have hf : Keeps s (allOutputs.foldl (followInput i v) (t.setInput i v)) :=
    foldl_keeps (fun u _ => followInput_keeps (.refl u)) _ (h.of_same rfl)
  unfold changeInput
  dsimp only
  split
  · exact h
  · split
    · exact notify_keeps (foldl_keeps (fun u _ => sendModeFor_keeps (.refl u)) _ hf)
    · exact notify_keeps hf

theorem switchTo_keeps {o : OutputId} {r : Target} : Keeps t (switchTo o r t).state := by
  exact judged_ite_keeps (.refl t) (judged_ite_keeps (.refl t)
    (judged_ite_keeps (modOut_keeps (.refl t)) (modOut_keeps (.refl t))))

theorem recallScene_keeps {c : Scene} : Keeps t (recallScene c t).state := by
  have hk : Keeps t ((c.entries.filter fun e => !entrySkipped t e).foldl
      (fun s e => takeTarget (monitorOut e.1) e.2 s) t) :=
    foldl_keeps (fun u _ => modOut_keeps (.refl u)) _ (.refl t)
  unfold recallScene
  dsimp only
  split
  · exact writePlaced_keeps hk
  · exact hk

theorem recallSlot_keeps {i : Fin 16} : Keeps t (recallSlot i t).state := by
  unfold recallSlot
  split
  · exact recallScene_keeps
  · exact .refl t

/-! ### Control -/

theorem writeHolder_keeps {n : Comp} {x : Holder} (h : Keeps s t) : Keeps s (writeHolder n x t) :=
  clearCarry_keeps (modControl_keeps h)

theorem endCaptureOn_keeps {n : Comp} (h : Keeps s t) : Keeps s (endCaptureOn n t) := ite_keeps (clearCapture_keeps h) h

theorem grantTo_keeps {n : Comp} {k : LinkId} {c : HolderCause} (h : Keeps s t) : Keeps s (grantTo n k c t) :=
  notify_keeps (sendFrame_keeps (endCaptureOn_keeps (rederive_keeps (writeHolder_keeps
    (releaseInput_keeps (modControl_keeps h))))))

theorem autoGrant_keeps {n : Comp} (h : Keeps s t) : Keeps s (autoGrant n t) := by
  unfold autoGrant
  split
  · split
    · exact grantTo_keeps h
    · exact h
  · exact h

theorem afterReturn_keeps {n : Comp} (h : Keeps s t) : Keeps s (afterReturn n t) := by
  unfold afterReturn
  split
  · exact ite_keeps (grantTo_keeps h) (autoGrant_keeps (modControl_keeps h))
  · exact autoGrant_keeps h

theorem returnToDesk_keeps {n : Comp} {k : LinkId} {c : HolderCause} (h : Keeps s t) :
    Keeps s (returnToDesk n k c t) :=
  afterReturn_keeps (notify_keeps (rederive_keeps (writeHolder_keeps (releaseInput_keeps h))))

theorem removeClaim_keeps {k : LinkId} {n : Comp} (h : Keeps s t) : Keeps s (removeClaim k t n) :=
  ite_keeps (notify_keeps (modControl_keeps h)) h

theorem endControl_keeps {k : LinkId} {c : HolderCause} (h : Keeps s t) : Keeps s (endControl k c t) :=
  foldl_keeps (fun u _ => ite_keeps (returnToDesk_keeps (.refl u)) (.refl u)) _
    (foldl_keeps (fun u _ => removeClaim_keeps (.refl u)) _ h)

theorem setViewer_keeps {k : LinkId} {v : ViewerControl} {c : ViewerCause} (h : Keeps s t) :
    Keeps s (setViewer k v c t) := by
  have h1 : Keeps s (t.modLink k fun l => { l with viewer := v }) := modLink_keeps h (by exact fun _ hl => hl)
  have h2 : Keeps s (if v = .held then setLinkPointer k none (setLinkKeys k KeyState.empty
      (t.modLink k fun l => { l with viewer := v })) else t.modLink k fun l => { l with viewer := v }) :=
    ite_keeps (setLinkPointer_keeps (setLinkKeys_keeps h1)) h1
  exact ite_keeps h (notify_keeps (rederive_keeps (ite_keeps (clearCapture_keeps h2) h2)))

theorem discardFrame_keeps {k : LinkId} (h : Keeps s t) : Keeps s (discardFrame k t) :=
  modLink_keeps h (by exact fun _ hl => hl)

theorem denyClaim_keeps {k : LinkId} {n : Comp} {r : DenyReason} (h : Keeps s t) : Keeps s (denyClaim k n r t) :=
  notify_keeps (sendFrame_keeps h)

theorem denyNoSession_keeps {k : LinkId} (h : Keeps s t) : Keeps s (denyNoSession k t) := by
  unfold denyNoSession
  split
  · exact denyClaim_keeps h
  · exact notify_keeps (sendFrame_keeps h)

theorem claimOn_keeps {k : LinkId} {n : Comp} {v : Bool} {kind : ClaimKind} (h : Keeps s t) :
    Keeps s (claimOn k n v kind t) := by
  refine ite_keeps (denyClaim_keeps h) (ite_keeps (denyClaim_keeps h) (ite_keeps (sendFrame_keeps h)
    (ite_keeps (discardFrame_keeps h) (ite_keeps (grantTo_keeps h) ?_))))
  cases kind
  · exact denyClaim_keeps h
  · exact notify_keeps (modControl_keeps h)

theorem takeClaim_keeps {k : LinkId} {kind : ClaimKind} (h : Keeps s t) : Keeps s (takeClaim k kind t) := by
  unfold takeClaim
  split
  · exact claimOn_keeps h
  · exact denyNoSession_keeps h

theorem takeRelease_keeps {k : LinkId} (h : Keeps s t) : Keeps s (takeRelease k t) := by
  unfold takeRelease
  split
  · exact ite_keeps (returnToDesk_keeps h) (ite_keeps (notify_keeps (modControl_keeps h)) (discardFrame_keeps h))
  · exact discardFrame_keeps h

theorem grantControl_keeps {n : Comp} {k : Option LinkId} : Keeps t (grantControl n k t).state := by
  unfold grantControl
  split
  · exact .refl t
  · split
    · exact .refl t
    · split
      · exact grantTo_keeps (.refl t)
      · exact modControl_keeps (.refl t)

theorem refuseClaim_keeps {n : Comp} {k : Option LinkId} : Keeps t (refuseClaim n k t).state := by
  unfold refuseClaim
  split
  · exact .refl t
  · exact notify_keeps (sendFrame_keeps (modControl_keeps (.refl t)))

theorem takeBack_keeps {n : Comp} : Keeps t (takeBack n t).state := by
  unfold takeBack
  split
  · exact .refl t
  · exact returnToDesk_keeps (modControl_keeps (sendFrame_keeps (modControl_keeps (.refl t))))

theorem claimControl_keeps {k : LinkId} {kind : ClaimKind} : Keeps t (claimControl k kind t).state := by
  unfold claimControl
  split
  · exact .refl t
  · split
    · exact .refl t
    · split
      · exact setViewer_keeps (sendFrame_keeps (.refl t))
      · exact .refl t

theorem releaseControl_keeps {k : LinkId} : Keeps t (releaseControl k t).state := by
  unfold releaseControl
  split
  · exact .refl t
  · split
    · exact .refl t
    · exact setViewer_keeps (sendFrame_keeps (.refl t))

/-! ### Remote records -/

theorem deliverMapped_keeps {f : Former} {x : Head} {hx hy : Nat} {b : Buttons} {w : Int} (h : Keeps s t) :
    Keeps s (deliverMapped f x hx hy b w t) :=
  deliverPointer_keeps (modPort_keeps h (by exact fun _ hp => hp))

theorem deliverRemote_keeps {x : Head} {f : PointerFrame} (h : Keeps s t) : Keeps s (deliverRemote x f t) := by
  unfold deliverRemote
  split
  · exact deliverMapped_keeps h
  all_goals exact deliverPointer_keeps h

/-! ### Wake -/

theorem notifyPower_keeps {n : Comp} {c : PowerCause} (h : Keeps s t) : Keeps s (notifyPower n c t) := notify_keeps h

theorem setAttempt_keeps {n : Comp} {a : Attempt} (h : Keeps s t) : Keeps s (setAttempt n a t) := modWake_keeps h

theorem setPulse_keeps {l : LineId} {b : Bool} (h : Keeps s t) : Keeps s (setPulse l b t) :=
  modLine_keeps h (by exact fun _ => rfl)

theorem endPulse_keeps {n : Comp} (h : Keeps s t) : Keeps s (endPulse n t) := by
  unfold endPulse
  split
  · exact setPulse_keeps h
  · exact h

theorem failWake_keeps {n : Comp} {r : WakeFailure} (h : Keeps s t) : Keeps s (failWake n r t) :=
  notifyPower_keeps (flushPort_keeps (setAttempt_keeps (endPulse_keeps h)))

theorem pulseDue_keeps {n : Comp} {f : Flight} {c : PowerCause} (h : Keeps s t) : Keeps s (pulseDue n f c t) := by
  unfold pulseDue
  split
  · exact notifyPower_keeps (setPulse_keeps (setAttempt_keeps h))
  · exact failWake_keeps h

theorem startAttempt_keeps {n : Comp} (h : Keeps s t) : Keeps s (startAttempt n t) := by
  have hb : ∀ f, Keeps s (beginSignal n f t) := fun f => notifyPower_keeps (setAttempt_keeps h)
  unfold startAttempt
  dsimp only
  split
  · exact ite_keeps (hb _) (failWake_keeps h)
  · exact pulseDue_keeps h
  · exact ite_keeps (hb _) (pulseDue_keeps h)

theorem wakeTrigger_keeps {n : Comp} (h : Keeps s t) : Keeps s (wakeTrigger n t).state := by
  unfold wakeTrigger
  split
  · exact h
  · split
    · exact h
    · exact startAttempt_keeps h

theorem wakeIfSuspended_keeps {n : Comp} {p : Bool} (h : Keeps s t) : Keeps s (wakeIfSuspended n p t) :=
  ite_keeps (ite_keeps (wakeTrigger_keeps h) h) h

theorem wakeActive_keeps {n : Comp} (h : Keeps s t) : Keeps s (wakeActive n t) := setAttempt_keeps (endPulse_keeps h)

theorem wakeBusReset_keeps {n : Comp} (h : Keeps s t) : Keeps s (wakeBusReset n t) := by
  unfold wakeBusReset
  split
  · exact setAttempt_keeps h
  · exact h

theorem wakeDetach_keeps {n : Comp} (h : Keeps s t) : Keeps s (wakeDetach n t) := by
  unfold wakeDetach
  split
  · split
    · exact pulseDue_keeps h
    · exact setAttempt_keeps h
  · exact pulseDue_keeps h
  · exact h

theorem pulseLineChanged_keeps {l : LineId} {n : Comp} (h : Keeps s t) : Keeps s (pulseLineChanged l t n) :=
  ite_keeps (failWake_keeps h) h

theorem setPowered_keeps {n : Comp} {p : Powered} (h : Keeps s t) : Keeps s (setPowered n p t) :=
  ite_keeps h (notifyPower_keeps (modWake_keeps h))

/-! ### The sessions and the links -/

theorem sendIf_keeps {k : LinkId} {f : Option LinkMsg} (h : Keeps s t) : Keeps s (sendIf k f t) := by
  cases f
  · exact h
  · exact sendFrame_keeps h

theorem notifyIf_keeps {f : Option SupFrame} (h : Keeps s t) : Keeps s (notifyIf f t) := by
  cases f
  · exact h
  · exact notify_keeps h

theorem setOutbound_keeps {k : LinkId} {v : Outbound} (h : Keeps s t) : Keeps s (setOutbound k v t) :=
  modLink_keeps h (by exact fun _ hl => hl)

theorem setInbound_keeps {k : LinkId} {v : Inbound} (h : Keeps s t) : Keeps s (setInbound k v t) :=
  modLink_keeps h (by exact fun _ hl => hl)

theorem outActivate_keeps {k : LinkId} {x : Head} {v : Bool} {c : ShareCause} (h : Keeps s t) :
    Keeps s (outActivate k x v c t) :=
  notify_keeps (sendFrame_keeps (modOut_keeps (setOutbound_keeps h)))

theorem outEnd_keeps {k : LinkId} {f : Option LinkMsg} {c : Option ShareCause} (h : Keeps s t) :
    Keeps s (outEnd k f c t) := by
  unfold outEnd
  split
  · exact h
  · exact notifyIf_keeps (sendIf_keeps (modOut_keeps (setOutbound_keeps h)))
  · exact notifyIf_keeps (sendIf_keeps (modOut_keeps (endControl_keeps (setOutbound_keeps h))))

theorem inActivate_keeps {k : LinkId} {o : Offer} (h : Keeps s t) : Keeps s (inActivate k o t) :=
  notify_keeps (changeInput_keeps (sendFrame_keeps (setInbound_keeps h)))

theorem darkenLane_keeps {k : LinkId} {m : Monitor} (h : Keeps s t) : Keeps s (darkenLane k t m) :=
  ite_keeps (modOut_keeps h) h

theorem inEnd_keeps {k : LinkId} {f : Option LinkMsg} {c : Option ShareCause} (h : Keeps s t) :
    Keeps s (inEnd k f c t) := by
  have hrest : ∀ {v : State} {g : Option SupFrame}, Keeps s v → Keeps s (notifyIf g (sendIf k f (sessionFocusEnd k
      (allMonitors.foldl (darkenLane k) (changeInput (.lane k) .absent v))))) := fun hv =>
    notifyIf_keeps (sendIf_keeps (sessionFocusEnd_keeps
      (foldl_keeps (fun u _ => darkenLane_keeps (.refl u)) _ (changeInput_keeps hv))))
  unfold inEnd
  split
  · exact h
  · exact notifyIf_keeps (sendIf_keeps (setInbound_keeps h))
  · have hi : Keeps s (setInbound k .none t) := setInbound_keeps h
    cases c
    · have hl : Keeps s ((setInbound k .none t).modLink k fun l => { l with viewer := .none }) :=
        modLink_keeps hi (by exact fun _ hl => hl)
      exact hrest (rederive_keeps (ite_keeps (clearCapture_keeps hl) hl))
    · exact hrest (setViewer_keeps hi)

theorem linkDown_keeps {k : LinkId} {c : LinkCause} (h : Keeps s t) : Keeps s (linkDown k c t) :=
  notify_keeps (endControl_keeps (inEnd_keeps (outEnd_keeps (modLink_keeps h (by exact fun _ hl => hl)))))

theorem sendAlive_keeps {k : LinkId} (h : Keeps s t) : Keeps s (sendAlive k t) :=
  modLink_keeps (sendFrame_keeps h) (by exact fun _ hl => hl)

theorem reconcile_keeps {k : LinkId} {a : Alive} (h : Keeps s t) : Keeps s (reconcile k a t) := by
  have r1 : ∀ {v}, Keeps s v → Keeps s (row1 k a v) := fun hv => by
    unfold row1; split
    · exact inEnd_keeps hv
    · exact hv
  have r2 : ∀ {v}, Keeps s v → Keeps s (row2 k a v) := fun hv => by
    unfold row2; split
    · exact inEnd_keeps hv
    · exact hv
  have r3 : ∀ {v}, Keeps s v → Keeps s (row3 k a v) := fun hv => by
    unfold row3; split
    · exact sendFrame_keeps hv
    · exact hv
  have r4 : ∀ {v}, Keeps s v → Keeps s (row4 k a v) := fun hv => ite_keeps (setViewer_keeps hv) hv
  have r5 : ∀ {v}, Keeps s v → Keeps s (row5 k a v) := fun hv => ite_keeps (setViewer_keeps hv) hv
  have r6 : ∀ {v}, Keeps s v → Keeps s (row6 k a v) := fun hv => ite_keeps (sendFrame_keeps hv) hv
  have r7 : ∀ {v}, Keeps s v → Keeps s (row7 k a v) := fun hv => by
    unfold row7; split
    · exact outActivate_keeps hv
    · exact hv
  have r8 : ∀ {v}, Keeps s v → Keeps s (row8 k a v) := fun hv => by
    unfold row8; split
    · exact outEnd_keeps hv
    · exact hv
  have r9 : ∀ {v}, Keeps s v → Keeps s (row9 k a v) := fun hv => by
    unfold row9; split
    · exact ite_keeps (returnToDesk_keeps hv) hv
    · exact hv
  exact r9 (r8 (r7 (r6 (r5 (r4 (r3 (r2 (r1 h))))))))

theorem takeAlive_keeps {k : LinkId} {a : Alive} (h : Keeps s t) : Keeps s (takeAlive k a t) := by
  have hr := reconcile_keeps (k := k) (a := a) (modLink_keeps (k := k) (f := learnPeer a) h (by exact fun _ hl => hl))
  exact ite_keeps hr (notify_keeps hr)

theorem takeOffer_keeps {k : LinkId} {o : Offer} (h : Keeps s t) : Keeps s (takeOffer k o t) := by
  unfold takeOffer
  split
  · exact ite_keeps (notify_keeps (setInbound_keeps h)) (notify_keeps (sendFrame_keeps h))
  · exact notify_keeps (sendFrame_keeps h)

theorem takeMode_keeps {k : LinkId} {m : Mode} {p : PointerMode} (h : Keeps s t) : Keeps s (takeMode k m p t) := by
  unfold takeMode
  split
  · exact discardFrame_keeps h
  · exact setInbound_keeps h
  · have hc : ∀ {v}, Keeps s (changeInput (.lane k) (laneState m) (setInbound k v t)) :=
      changeInput_keeps (setInbound_keeps h)
    exact ite_keeps (clearCapture_keeps hc) hc

theorem takeEnd_keeps {k : LinkId} {d : EndSide} {r : EndReason} (h : Keeps s t) : Keeps s (takeEnd k d r t) := by
  unfold takeEnd
  split
  · split
    · exact discardFrame_keeps h
    · exact inEnd_keeps h
  · split
    · exact discardFrame_keeps h
    · exact outEnd_keeps h

theorem takeKeys_keeps {k : LinkId} {ks : KeyState} (h : Keeps s t) : Keeps s (takeKeys k ks t) := by
  unfold takeKeys
  split
  · exact wakeIfSuspended_keeps (deliverKeys_keeps (modControl_keeps h))
  · exact discardFrame_keeps h

theorem takePointer_keeps {k : LinkId} {f : PointerFrame} (h : Keeps s t) : Keeps s (takePointer k f t) := by
  unfold takePointer
  split
  · exact wakeIfSuspended_keeps (deliverRemote_keeps (modControl_keeps h))
  · exact discardFrame_keeps h

theorem dispatchFrame_keeps {k : LinkId} {m : LinkMsg} (h : Keeps s t) : Keeps s (dispatchFrame k m t) := by
  cases m
  case alive a => exact takeAlive_keeps h
  case offer o => exact takeOffer_keeps h
  case accept =>
    unfold dispatchFrame takeAccept
    dsimp only
    split
    · exact outActivate_keeps h
    · exact discardFrame_keeps h
  case decline r =>
    unfold dispatchFrame takeDecline
    dsimp only
    split
    · exact discardFrame_keeps h
    · exact outEnd_keeps h
  case endSession d r => exact takeEnd_keeps h
  case mode m p => exact takeMode_keeps h
  case claim kind => exact takeClaim_keeps h
  case grant =>
    unfold dispatchFrame takeGrant
    dsimp only
    split
    · exact sendFrame_keeps h
    · exact setViewer_keeps h
    · exact h
  case deny r =>
    unfold dispatchFrame takeDeny
    dsimp only
    split
    · exact setViewer_keeps h
    · exact discardFrame_keeps h
  case release => exact takeRelease_keeps h
  case revoke =>
    unfold dispatchFrame takeRevoke
    dsimp only
    split
    · exact setViewer_keeps h
    · exact discardFrame_keeps h
  case keys ks => exact takeKeys_keeps h
  case pointer f => exact takePointer_keeps h

theorem frameIn_keeps {k : LinkId} {m : LinkMsg} (h : Keeps s t) : Keeps s (frameIn k m t) := by
  have hr : Keeps s (received k t) := modLink_keeps h (by exact fun _ hl => hl)
  have hst : Keeps s (stamp k (received k t)) := modLink_keeps hr (by exact fun _ hl => hl)
  exact ite_keeps (discardFrame_keeps hr) (ite_keeps (discardFrame_keeps hst) (dispatchFrame_keeps hst))

theorem malformed_keeps {k : LinkId} (h : Keeps s t) : Keeps s (malformed k t) :=
  modLink_keeps h (by exact fun _ hl => hl)

theorem wholeFrame_keeps {k : LinkId} {m : LinkMsg} (h : Keeps s t) : Keeps s (wholeFrame k m t) := by
  have hr : Keeps s (t.modLink k fun l => { l with receiver := [] }) := modLink_keeps h (by exact fun _ hl => hl)
  exact ite_keeps (frameIn_keeps hr) (malformed_keeps hr)

theorem scanLink_keeps {k : LinkId} {fuel : Nat} {bs : List Byte} (h : Keeps s t) : Keeps s (scanLink k fuel bs t) := by
  fun_induction scanLink k fuel bs t with
  | case1 => exact h
  | case2 => exact modLink_keeps h (by exact fun _ hl => hl)
  | case3 _ _ _ _ _ ih => exact ih h
  | case4 _ _ _ _ _ _ _ _ ih => exact ih (malformed_keeps h)
  | case5 => exact modLink_keeps h (by exact fun _ hl => hl)
  | case6 _ _ _ _ _ _ _ _ _ _ _ ih => exact ih (modLink_keeps h (by exact fun _ hl => hl))
  | case7 _ _ _ _ _ _ _ _ _ _ _ _ _ _ ih => exact ih (frameIn_keeps h)
  | case8 _ _ _ _ _ _ _ _ _ _ _ _ _ ih => exact ih (malformed_keeps h)
  | case9 => exact modLink_keeps h (by exact fun _ hl => hl)

theorem linkSent_bounded (l : Link) (h : l.sendQueue.length ≤ 32) : (linkSent l).sendQueue.length ≤ 32 := by
  unfold linkSent
  split
  · exact h
  · simp; omega

theorem setLink_keeps {k : LinkId} {on : Bool} (h : Keeps s t) : Keeps s (setLink k on t) := by
  have he : Keeps s (t.modLink k fun l => { l with enabled := on }) := modLink_keeps h (by exact fun _ hl => hl)
  exact ite_keeps h (ite_keeps (sendAlive_keeps he) (ite_keeps (linkDown_keeps he) he))

end Sys2Proof.Machine
end

section
/-!
SUPPORT. Actions, the desk keyboard, the lines, the desk pointer and the computer ports keep what `Keeps` names.
-/

namespace Sys2Proof.Machine

open Sys2Proof

variable {s t u : State}

/-! ### Privacy blank -/

theorem setBlankState_keeps {st : BlankState} {c : BlankCause} (h : Keeps s t) : Keeps s (setBlankState st c t) :=
  notify_keeps (modBlank_keeps h (by exact fun _ => rfl))

theorem leaveClear_keeps {src : Sources} {c : BlankCause} (h : Keeps s t) : Keeps s (leaveClear src c t) :=
  notify_keeps (focusBlank_keeps (modBlank_keeps h (by exact fun _ => rfl)))

theorem engageBy_keeps {src : Sources} {c : BlankCause} (h : Keeps s t) : Keeps s (engageBy src c t) := by
  unfold engageBy
  split
  · exact leaveClear_keeps h
  · exact ite_keeps h (setBlankState_keeps h)
  · exact setBlankState_keeps h

theorem assertLine_keeps {l : LineId} (h : Keeps s t) : Keeps s (assertLine l t) :=
  engageBy_keeps (ite_keeps h (modBlank_keeps h (by exact fun _ => rfl)))

theorem linesReleased_keeps (h : Keeps s t) : Keeps s (linesReleased t) := by
  unfold linesReleased
  split
  · exact ite_keeps (setBlankState_keeps h) (ite_keeps (setBlankState_keeps h) (setBlankState_keeps h))
  · exact h

theorem releaseLine_keeps {l : LineId} (h : Keeps s t) : Keeps s (releaseLine l t) := by
  have ha : Keeps s (t.modBlank fun u => { u with asserted := u.asserted.filter (· != l) }) :=
    modBlank_keeps h (by exact fun _ => rfl)
  exact ite_keeps (ite_keeps (linesReleased_keeps ha) ha) h

theorem resumeEffect_keeps (h : Keeps s t) : Keeps s (resumeEffect t) := by
  unfold resumeEffect
  split
  · exact h
  · exact setBlankState_keeps h

/-! ### Actions -/

theorem runBlank_keeps {src : FireSource} : Keeps t (runBlank src t).state := by
  unfold runBlank
  split <;> exact engageBy_keeps (.refl t)

theorem runWake_keeps {n : Option Comp} {src : FireSource} : Keeps t (runWake n src t).state := by
  unfold runWake
  split
  · exact wakeTrigger_keeps (focusBy_keeps (.refl t))
  · split
    · exact wakeTrigger_keeps (.refl t)
    · exact .refl t

theorem runStep_keeps {next : Bool} {src : FireSource} : Keeps t (runStep next src t).state := by
  unfold runStep
  split
  · exact focusBy_keeps (.refl t)
  · exact .refl t

theorem runResumeBlank_keeps : Keeps t (runResumeBlank t).state := by
  unfold runResumeBlank
  split
  · exact .refl t
  · exact resumeEffect_keeps (.refl t)

theorem runTakeBack_keeps : Keeps t (runTakeBack t).state := by
  unfold runTakeBack
  split
  · exact takeBack_keeps
  · exact .refl t

theorem runGrant_keeps : Keeps t (runGrant t).state := by
  unfold runGrant
  split
  · split
    · exact .refl t
    · exact grantControl_keeps
  · exact .refl t

theorem runClaim_keeps : Keeps t (runClaim t).state := by
  unfold runClaim
  split
  · split
    · exact claimControl_keeps
    · exact .refl t
  · exact .refl t

theorem runRelease_keeps : Keeps t (runRelease t).state := by
  unfold runRelease
  split
  · split
    · exact .refl t
    · exact releaseControl_keeps
  · exact .refl t

theorem runAction_keeps {a : Action} {src : FireSource} : Keeps t (runAction a src t).state := by
  cases a
  case lead =>
    exact modMatcher_keeps (f := fun m => { m with state := .command (t.now + m.commandWindow) }) (.refl t)
      fun _ => rfl
  case focus n => exact focusBy_keeps (.refl t)
  case focusNext => exact runStep_keeps
  case focusPrev => exact runStep_keeps
  case switch o r => exact switchTo_keeps
  case recallSlot i => exact recallSlot_keeps
  case broadcastToggle => exact rederive_keeps (modRouter_keeps (.refl t))
  case blank => exact runBlank_keeps
  case resumeBlank => exact runResumeBlank_keeps
  case wake n => exact runWake_keeps
  case takeBack => exact runTakeBack_keeps
  case grant => exact runGrant_keeps
  case claim => exact runClaim_keeps
  case release => exact runRelease_keeps
  case notify => exact notify_keeps (.refl t)

theorem fire_keeps {a : Action} {src : FireSource} (h : Keeps s t) : Keeps s (fire a src t) := by
  have hc : Keeps s (countFired t) := modMatcher_keeps h (by exact fun _ => rfl)
  have hr : Keeps s (runAction a src (countFired t)).state := hc.trans runAction_keeps
  exact ite_keeps (modMatcher_keeps hc (by exact fun _ => rfl))
    (ite_keeps hr (modMatcher_keeps hr (by exact fun _ => rfl)))

theorem qualifyingEdge_keeps {l : LineId} (h : Keeps s t) : Keeps s (qualifyingEdge l t) := by
  unfold qualifyingEdge
  split
  · exact h
  · exact ite_keeps (fire_keeps (h.of_same rfl)) (h.of_same rfl)

/-! ### The desk keyboard -/

theorem sendRecords_keeps (h : Keeps s t) : Keeps s (sendRecords t) :=
  foldl_keeps (fun u _ => ite_keeps (sendKeys_keeps (.refl u)) (.refl u)) _
    (foldl_keeps (fun u _ => ite_keeps (deliverKeys_keeps (.refl u)) (.refl u)) _ h)

theorem matchKey_keeps {e : KeyEvent} (h : Keeps s t) : Keeps s (matchKey e t) := by
  have h1 : Keeps s (t.modMatcher fun m => { m with state := (judgeKey t e).state }) :=
    modMatcher_keeps h (by exact fun _ => rfl)
  have hm : ∀ {c v}, Keeps s v → Keeps s (maskCode c v) := fun hv => ite_keeps hv (modRouter_keeps hv)
  unfold matchKey
  dsimp only
  split
  · split
    · exact fire_keeps (ite_keeps (ite_keeps (hm h1) h1) (modRouter_keeps h1))
    · exact ite_keeps (ite_keeps (hm h1) h1) (modRouter_keeps h1)
  · exact ite_keeps (ite_keeps (hm h1) h1) (modRouter_keeps h1)

theorem countAndWake_keeps {b : Bool} (h : Keeps s t) : Keeps s (countAndWake b t) := by
  unfold countAndWake
  split
  · split
    · split
      · exact wakeIfSuspended_keeps h
      · exact modPort_keeps h (by exact fun _ hp => hp)
    · exact h
  · exact h

theorem handleKey_keeps {e : KeyEvent} (h : Keeps s t) : Keeps s (handleKey e t) :=
  countAndWake_keeps (sendRecords_keeps (matchKey_keeps h))

/-- The held list takes a code only while it is not full (R47). -/
theorem KeyState.add_bounded {k : KeyState} {c : Nat} (hf : ¬ (!isModifier c && decide (32 ≤ k.keys.length)) = true) :
    (KeyState.add k c).keys.length ≤ 32 ∨ (KeyState.add k c).keys = k.keys := by
  unfold KeyState.add
  split
  · exact .inr rfl
  next hm =>
    left
    simp [hm] at hf ⊢
    omega

theorem raiseKey_keeps {e : KeyEvent} (h : Keeps s t) : Keeps s (raiseKey t e) := by
  unfold raiseKey
  dsimp only
  split
  · split
    · exact h
    · split
      · exact modKeyboard_keeps h (by exact id)
      next hf =>
        refine handleKey_keeps (modKeyboard_keeps h ?_)
        intro hk
        rcases KeyState.add_bounded hf with hl | hl
        · exact hl
        · exact (congrArg List.length hl).trans_le hk
  · split
    · refine handleKey_keeps (modKeyboard_keeps h ?_)
      intro hk
      show (KeyState.drop t.keyboard.held e.code).keys.length ≤ 32
      unfold KeyState.drop
      split
      · exact hk
      · exact (List.length_filter_le _ _).trans hk
    · exact h

theorem keyboardReport_keeps {m : Mods} {cs : List Byte} (h : Keeps s t) : Keeps s (keyboardReport m cs t) :=
  ite_keeps (modKeyboard_keeps h (by exact id)) (foldl_keeps (fun u _ => raiseKey_keeps (.refl u)) _ h)

theorem keyboardAttach_keeps (h : Keeps s t) : Keeps s (keyboardAttach t) :=
  checkLights_keeps (modKeyboard_keeps h (by exact fun _ => Nat.zero_le _))

theorem keyboardDetach_keeps (h : Keeps s t) : Keeps s (keyboardDetach t) :=
  sendRecords_keeps (modRouter_keeps (modMatcher_keeps (modKeyboard_keeps h (by exact fun _ => Nat.zero_le _))
    (by exact fun _ => rfl)))

theorem requestFocus_keeps {r : FocusTarget} : Keeps t (requestFocus r t).state := by
  unfold requestFocus
  split
  · exact judged_ite_keeps (focusBy_keeps (.refl t)) (.refl t)
  · exact focusBy_keeps (.refl t)

theorem setBroadcast_keeps {on : Bool} {m : Byte} (h : Keeps s t) : Keeps s (setBroadcast on m t) :=
  rederive_keeps (foldl_keeps (fun u _ => modComp_keeps (.refl u) (by exact fun _ => rfl)) _ (modRouter_keeps h))

/-! ### The lines -/

theorem handLevel_keeps {l : LineId} {level first : Bool} (h : Keeps s t) : Keeps s (handLevel l level first t) := by
  unfold handLevel
  split
  · exact ite_keeps (assertLine_keeps h) (ite_keeps h (releaseLine_keeps h))
  · exact setPowered_keeps h
  · exact ite_keeps (qualifyingEdge_keeps h) h
  · exact h

theorem acceptLevel_keeps {l : LineId} {level : Bool} (h : Keeps s t) : Keeps s (acceptLevel l level t) := by
  have hl : Keeps s (t.modLine l fun x => { x with filtered := some level, candidate := none }) :=
    modLine_keeps h (by exact fun _ => rfl)
  exact ite_keeps hl (notify_keeps (handLevel_keeps hl))

theorem propose_keeps {l : LineId} {level : Bool} (h : Keeps s t) : Keeps s (propose l level t) :=
  ite_keeps (acceptLevel_keeps h) (modLine_keeps h (by exact fun _ => rfl))

theorem refilter_keeps {l : LineId} (h : Keeps s t) : Keeps s (refilter l t) := by
  unfold refilter
  dsimp only
  split
  · split
    · exact ite_keeps h (propose_keeps h)
    · exact ite_keeps (modLine_keeps h (by exact fun _ => rfl)) h
    · exact propose_keeps h
    · exact ite_keeps h (propose_keeps h)
  · exact h

theorem filterEnd_keeps {l : LineId} (h : Keeps s t) : Keeps s (filterEnd l t) := by
  unfold filterEnd
  split
  · exact ite_keeps (acceptLevel_keeps (reach_keeps h)) h
  · exact h

theorem leaveConfig_keeps {l : LineId} (h : Keeps s t) : Keeps s (leaveConfig l t) := by
  unfold leaveConfig
  split
  · exact releaseLine_keeps h
  · exact setPowered_keeps h
  · exact h.of_same rfl
  · exact pulseLineChanged_keeps h
  · exact h

/-! ### The desk pointer -/

theorem contains_iff {b : Tile} {x y : Nat} :
    Tile.contains b x y = true ↔ b.x0 ≤ x ∧ x < b.x0 + b.w ∧ b.y0 ≤ y ∧ y < b.y0 + b.h := by
  simp [Tile.contains]

/-- A place is in a tile when it is in its span on both axes. -/
theorem contains_iff_axes {b : Tile} {p : DeskPointer} (a : Axis) :
    Tile.contains b p.px p.py = true ↔
      (Tile.first b a ≤ DeskPointer.pos p a ∧ DeskPointer.pos p a < Tile.first b a + Tile.size b a) ∧
        Tile.first b a.other ≤ DeskPointer.pos p a.other ∧
          DeskPointer.pos p a.other < Tile.first b a.other + Tile.size b a.other := by
  cases a <;> simp [contains_iff, Tile.first, Tile.size, DeskPointer.pos, Axis.other] <;> omega

@[simp] theorem setPos_pos (p : DeskPointer) (a : Axis) (v : Nat) : DeskPointer.pos (DeskPointer.setPos p a v) a = v :=
  by
  cases a <;> rfl

@[simp] theorem setPos_pos_other (p : DeskPointer) (a : Axis) (v : Nat) :
    DeskPointer.pos (DeskPointer.setPos p a v) a.other = DeskPointer.pos p a.other := by
  cases a <;> rfl

theorem pointerTile_mem {b : Tile} (h : pointerTile s = some b) :
    b ∈ s.layout ∧ Tile.contains b s.pointer.px s.pointer.py = true :=
  ⟨List.mem_of_find?_eq_some h, by simpa using List.find?_some h⟩

theorem neighbourAt_mem {l : List Tile} {a : Axis} {high : Bool} {b c : Tile} {q : Nat}
    (h : neighbourAt l a high b q = some c) :
    c ∈ l ∧ Tile.first c a.other ≤ q ∧ q < Tile.first c a.other + Tile.size c a.other := by
  refine ⟨List.mem_of_find?_eq_some h, ?_⟩
  have := List.find?_some h
  simp only [abuts, Bool.and_eq_true, decide_eq_true_eq] at this
  exact this.2

theorem Tile.size_pos {l : List Tile} (hv : validLayout l) {b : Tile} (hb : b ∈ l) (a : Axis) : 8 ≤ Tile.size b a := by
  obtain ⟨-, -, hw, -, hh, -⟩ := hv.2.2.1 b hb
  cases a
  · exact hw
  · exact hh

/-- A push out of the pointer's tile clamps within it or crosses into the neighbour (R22 to R25). -/
theorem pushOut_keeps {a : Axis} {high : Bool} {b : Tile} {o : Nat} (h : Keeps s t) (hb : b ∈ t.layout)
    (hc : Tile.contains b t.pointer.px t.pointer.py = true) : Keeps s (pushOut a high b o t) := by
  have hspan := (contains_iff_axes a).mp hc
  have clamp : validLayout t.layout →
      let p := DeskPointer.setPos t.pointer a (if high then Tile.last b a else Tile.first b a)
      Tile.contains b p.px p.py = true := fun hv => by
    have := Tile.size_pos hv hb a
    dsimp only
    rw [contains_iff_axes a, setPos_pos, setPos_pos_other]
    refine ⟨?_, hspan.2⟩
    cases high <;> simp [Tile.last] <;> omega
  unfold pushOut
  dsimp only
  split
  next c hn =>
    obtain ⟨hcl, hq⟩ := neighbourAt_mem hn
    split
    · exact pointerMoved_keeps h fun hv _ => ⟨b, hb, clamp hv⟩
    · refine pointerMoved_keeps h fun hv _ => ?_
      unfold pushEdge
      dsimp only
      split
      · have := Tile.size_pos hv hcl a
        refine ⟨c, hcl, ?_⟩
        rw [contains_iff_axes a, setPos_pos, setPos_pos_other]
        refine ⟨?_, by cases a <;> exact hq⟩
        cases high <;> simp [Tile.last] <;> omega
      · exact ⟨b, hb, clamp hv⟩
  · exact pointerMoved_keeps h fun hv _ => ⟨b, hb, clamp hv⟩

@[simp] theorem relieve_pos (a b : Axis) (m : Int) (p : DeskPointer) :
    DeskPointer.pos (relieve a m p) b = DeskPointer.pos p b := by
  unfold relieve
  split
  · split <;> cases b <;> rfl
  · rfl

theorem walk_keeps {a : Axis} {m : Int} (h : Keeps s t) : Keeps s (walk a m t) := by
  unfold walk
  split
  · exact h
  · split
    · exact h
    next b hb =>
      obtain ⟨hm, hc⟩ := pointerTile_mem hb
      have hr : Keeps s (t.modPointer (relieve a m)) :=
        modPointer_keeps h fun p => ⟨relieve_pos a .x m p, relieve_pos a .y m p⟩
      have hc' : Tile.contains b (t.modPointer (relieve a m)).pointer.px (t.modPointer (relieve a m)).pointer.py
          = true := by
        rw [contains_iff_axes a] at hc ⊢
        simpa using hc
      dsimp only
      split
      · exact pushOut_keeps hr hm hc'
      · split
        · exact pushOut_keeps hr hm hc'
        next hlo hhi =>
          refine pointerMoved_keeps hr fun _ _ => ⟨b, hm, ?_⟩
          have hspan := (contains_iff_axes a).mp hc'
          rw [contains_iff_axes a, setPos_pos, setPos_pos_other]
          refine ⟨?_, hspan.2⟩
          have hs := hspan.1
          simp only [Tile.last] at hhi
          omega

theorem emitRelative_keeps {e : Motion} (h : Keeps s t) : Keeps s (emitRelative e t) := by
  unfold emitRelative
  split
  · split
    · exact ite_keeps (deliverPointer_keeps h) h
    · split
      · exact ite_keeps (sendPointer_keeps h) h
      · exact h
    · exact h
  · exact h

theorem emitGlided_keeps {e : Motion} (h : Keeps s t) : Keeps s (emitGlided e t) := by
  unfold emitGlided
  split
  · exact h
  · split
    · exact h
    · split
      · exact ite_keeps (deliverMapped_keeps h) h
      · split
        · exact ite_keeps (sendPointer_keeps h) h
        · exact h
      · exact h

theorem glided_keeps {e : Motion} (h : Keeps s t) : Keeps s (glided e t) := by
  have hw : Keeps s (moveAndWalk e t) := walk_keeps (walk_keeps (modPointer_keeps h (by exact fun _ => ⟨rfl, rfl⟩)))
  refine emitGlided_keeps ?_
  unfold reevaluateIfMoved
  split
  · exact ite_keeps hw (reevaluate_keeps hw)
  · exact hw

theorem motion_keeps {e : Motion} (h : Keeps s t) : Keeps s (motion e t) := by
  have hc : Keeps s (captured e t) :=
    emitRelative_keeps (ite_keeps h (modPointer_keeps h (by exact fun _ => ⟨rfl, rfl⟩)))
  refine ite_keeps h ?_
  unfold wakeByButton
  split
  · exact ite_keeps (wakeIfSuspended_keeps (ite_keeps hc (glided_keeps h))) (ite_keeps hc (glided_keeps h))
  · exact ite_keeps hc (glided_keeps h)

theorem placePointer_keeps {m : Monitor} {x y : Nat} : Keeps t (placePointer m x y t).state := by
  unfold placePointer
  split
  · exact .refl t
  next b hb =>
    refine judged_ite_keeps (.refl t) (reevaluate_keeps (pointerMoved_keeps (.refl t) fun hv _ => ?_))
    have hm : b ∈ t.layout := List.mem_of_find?_eq_some hb
    obtain ⟨-, -, hw, -, hh, -⟩ := hv.2.2.1 b hm
    refine ⟨b, hm, ?_⟩
    simp [contains_iff, clampTo]
    omega

/-! ### The computer ports -/

theorem followMode_keeps {n : Comp} {old : State} (h : Keeps s t) : Keeps s (followMode n old t) := by
  have hm : ∀ v k, Keeps v (sendModeOfComp n v k) := fun v k => by
    unfold sendModeOfComp
    split
    · exact ite_keeps (sendFrame_keeps (.refl v)) (.refl v)
    · exact .refl v
  exact ite_keeps h (foldl_keeps hm _ (ite_keeps (clearCapture_keeps h) h))

theorem lightsChanged_keeps {n : Comp} (h : Keeps s t) : Keeps s (lightsChanged n t) :=
  ite_keeps (checkLights_keeps h) h

theorem setBus_keeps {n : Comp} {b : BusState} (h : Keeps s t) : Keeps s (setBus n b t) :=
  rederive_keeps (modPort_keeps h (by exact fun _ hp => hp))

theorem enterActive_keeps {n : Comp} (h : Keeps s t) : Keeps s (enterActive n t) :=
  notifyPower_keeps (wakeActive_keeps (setBus_keeps h))

theorem newest_length {α : Type} (q : List α) : (newest q).length ≤ q.length := by
  simp [newest]

theorem trimPort_bounded (p : Port) (h : Port.bounded p) : Port.bounded (trimPort p) :=
  ⟨(newest_length _).trans h.1, (newest_length _).trans h.2⟩

theorem resumePort_keeps {n : Comp} (h : Keeps s t) : Keeps s (resumePort n t) :=
  enterActive_keeps (modPort_keeps h trimPort_bounded)

theorem emptyPort_keeps {n : Comp} (h : Keeps s t) : Keeps s (emptyPort n t) :=
  followMode_keeps (lightsChanged_keeps (modPort_keeps (flushPort_keeps h) (by exact fun _ hp => hp)))

theorem attachPort_keeps {n : Comp} (h : Keeps s t) : Keeps s (attachPort n t) :=
  notifyPower_keeps (setBus_keeps (modPort_keeps h (by exact fun _ _ => ⟨Nat.zero_le _, Nat.zero_le _⟩)))

theorem detachPort_keeps {n : Comp} (h : Keeps s t) : Keeps s (detachPort n t) :=
  notifyPower_keeps (wakeDetach_keeps (setBus_keeps (emptyPort_keeps h)))

theorem resetPort_keeps {n : Comp} (h : Keeps s t) : Keeps s (resetPort n t) := by
  have hr : Keeps s (wakeBusReset n (setBus n .attached (emptyPort n t))) :=
    wakeBusReset_keeps (setBus_keeps (emptyPort_keeps h))
  exact ite_keeps hr (notifyPower_keeps hr)

theorem selectFormat_keeps {n : Comp} {i : Interface} {f : Format} (h : Keeps s t) :
    Keeps s (selectFormat n i f t) := by
  unfold selectFormat
  split
  · exact ite_keeps h (modPort_keeps (flushKeys_keeps h) (by exact fun _ hp => hp))
  · exact ite_keeps h (followMode_keeps (modPort_keeps (flushPointer_keeps h) (by exact fun _ hp => hp)))

theorem answerKeys_bounded (p : Port) (h : Port.bounded p) : Port.bounded (answerKeys p) := by
  obtain ⟨hk, hq⟩ := h
  unfold answerKeys
  split
  next r rest he => rw [he, List.length_cons] at hk; exact ⟨Nat.le_of_succ_le hk, hq⟩
  · exact ⟨hk, hq⟩

theorem answerPointer_bounded (m : PointerMode) (p : Port) (h : Port.bounded p) : Port.bounded (answerPointer m p) := by
  obtain ⟨hk, hq⟩ := h
  unfold answerPointer
  split
  next r rest he => rw [he, List.length_cons] at hq; exact ⟨hk, Nat.le_of_succ_le hq⟩
  · split
    · exact ⟨hk, hq⟩
    · split
      · exact ⟨hk, hq⟩
      · exact ⟨hk, hq⟩

theorem pollResumes_keeps {n : Comp} (h : Keeps s t) : Keeps s (pollResumes n t) := ite_keeps (resumePort_keeps h) h

theorem pollKeys_keeps {n : Comp} (h : Keeps s t) : Keeps s (pollKeys n t) := by
  unfold pollKeys
  split
  · exact h
  · exact modPort_keeps h (by exact fun _ hp => hp)
  · exact modPort_keeps (pollResumes_keeps h) answerKeys_bounded

theorem pollPointer_keeps {n : Comp} (h : Keeps s t) : Keeps s (pollPointer n t) := by
  unfold pollPointer
  split
  · exact h
  · exact modPort_keeps h (by exact fun _ hp => hp)
  · exact modPort_keeps (pollResumes_keeps h) (answerPointer_bounded _)

theorem clearOthers_keeps (h : Keeps s t) : Keeps s (clearOthers t) :=
  modSup_keeps (foldl_keeps (fun u _ => modLink_keeps (.refl u) (by exact fun _ hl => hl)) _
    (modMatcher_keeps (modKeyboard_keeps h (by exact id)) (by exact fun _ => rfl)))
    fun _ hp => hp

/-! ### The supervisor link's receiver and transmitter -/

theorem scanSup_bounded {fuel : Nat} {held input : List (Byte × Nat)} {p : Supervisor} (h : Supervisor.bounded p) :
    Supervisor.bounded (scanSup fuel held input p) := by
  fun_induction scanSup fuel held input p with
  | case1 => exact h
  | case2 => exact h
  | case3 _ _ _ _ _ ih => exact ih h
  | case4 _ _ _ _ _ ih => exact ih h
  | case5 _ _ _ _ _ _ _ _ ih => exact ih h
  | case6 _ _ _ _ _ _ _ _ _ ih => exact ih h
  | case7 _ _ _ _ _ _ _ _ _ _ r _ ih => exact ih (receiveRequest_bounded r h)
  | case8 _ _ _ _ _ _ _ _ _ _ _ ih => exact ih h
  | case9 _ _ _ _ _ _ _ _ _ _ ih => exact ih h

theorem byteError_bounded (p : Supervisor) (h : Supervisor.bounded p) : Supervisor.bounded (byteError p) := by
  unfold byteError
  split
  · exact h
  · exact scanSup_bounded h

theorem gapTimeout_bounded (p : Supervisor) (h : Supervisor.bounded p) : Supervisor.bounded (gapTimeout p) :=
  scanSup_bounded (p := { p with gapErrors := _ }) h

theorem transmitEnd_bounded (p : Supervisor) (h : Supervisor.bounded p) : Supervisor.bounded (transmitEnd p) := by
  unfold transmitEnd
  split
  · exact h
  · exact h

end Sys2Proof.Machine
end

section
/-!
SUPPORT. The layouts that SET_LAYOUT accepts (R9), what the requests that write settings respect, and that every command
other than a reset respects the lock and every command keeps the part sound.
-/

namespace Sys2Proof.Machine

open Sys2Proof

variable {s t u : State}

/-! ### Valid layouts -/

/-- Two tiles of one layout: of different monitors and without a desk unit in common (R9). -/
def tilesDisjoint (a b : Tile) : Prop :=
  a.monitor ≠ b.monitor ∧ ∀ x y : Nat, Tile.contains a x y = true → Tile.contains b x y = false

theorem tilesDisjoint_symm {a b : Tile} (h : tilesDisjoint a b) : tilesDisjoint b a :=
  ⟨h.1.symm, fun x y hb => by
    by_contra ha
    rw [h.2 x y (by simpa using ha)] at hb
    exact Bool.false_ne_true hb⟩

theorem inRange_iff {b : Tile} :
    Tile.inRange b = true ↔ b.x0 ≤ 16383 ∧ b.y0 ≤ 16383 ∧ 8 ≤ b.w ∧ b.w ≤ 16384 ∧ 8 ≤ b.h ∧ b.h ≤ 16384 ∧
      b.x0 + b.w ≤ 16384 ∧ b.y0 + b.h ≤ 16384 := by
  simp [Tile.inRange]

/-- Two tiles that are not empty overlap when they have a desk unit in common: the one at the greater of their first
columns and the greater of their first rows. -/
theorem overlaps_eq_false_iff {a b : Tile} (ha : Tile.inRange a = true) (hb : Tile.inRange b = true) :
    Tile.overlaps a b = false ↔ ∀ x y : Nat, Tile.contains a x y = true → Tile.contains b x y = false := by
  rw [inRange_iff] at ha hb
  simp only [← Bool.not_eq_true, contains_iff, Tile.overlaps, decide_eq_true_eq]
  constructor
  · intro h x y hx hy
    omega
  · intro h ho
    exact h (max a.x0 b.x0) (max a.y0 b.y0) (by omega) (by omega)

theorem tilesApart_iff {ts : List Tile} (h : ∀ b ∈ ts, Tile.inRange b = true) :
    tilesApart ts = true ↔ ts.Pairwise tilesDisjoint := by
  induction ts with
  | nil => simp [tilesApart]
  | cons a rest ih =>
    have ha := h a (by simp)
    have hr : ∀ b ∈ rest, Tile.inRange b = true := fun b hb => h b (by simp [hb])
    simp only [tilesApart, Bool.and_eq_true, List.all_eq_true, List.pairwise_cons, ih hr]
    refine and_congr_left fun _ => forall₂_congr fun b hb => ?_
    rw [tilesDisjoint, ← overlaps_eq_false_iff ha (hr b hb), bne_iff_ne, Bool.not_eq_true', ne_comm]

/-- The check of SET_LAYOUT accepts the layouts of R9. -/
theorem layoutOk_iff {ts : List Tile} : layoutOk ts = true ↔ validLayout ts := by
  unfold layoutOk validLayout
  simp only [Bool.and_eq_true, List.all_eq_true, decide_eq_true_eq]
  constructor
  · rintro ⟨⟨⟨h1, h4⟩, hr⟩, ha⟩
    exact ⟨h1, h4, fun b hb => inRange_iff.mp (hr b hb), (tilesApart_iff hr).mp ha⟩
  · rintro ⟨h1, h4, hr, ha⟩
    have hr' : ∀ b ∈ ts, Tile.inRange b = true := fun b hb => inRange_iff.mpr (hr b hb)
    exact ⟨⟨⟨h1, h4⟩, hr'⟩, (tilesApart_iff hr').mpr ha⟩

/-- The order of a tile list does not decide whether it is valid. -/
theorem validLayout_perm {ts us : List Tile} (h : ts.Perm us) (hv : validLayout ts) : validLayout us := by
  obtain ⟨h1, h4, hr, ha⟩ := hv
  rw [h.length_eq] at h1 h4
  exact ⟨h1, h4, fun b hb => hr b (h.mem_iff.mpr hb), h.pairwise ha fun hab => tilesDisjoint_symm hab⟩

theorem insertTile_perm (b : Tile) (ts : List Tile) : (insertTile b ts).Perm (b :: ts) := by
  induction ts with
  | nil => exact .refl _
  | cons c rest ih =>
    unfold insertTile
    split
    · exact .refl _
    · exact (ih.cons c).trans (.swap b c rest)

theorem sortTiles_perm (ts : List Tile) : (sortTiles ts).Perm ts := by
  induction ts with
  | nil => exact .refl _
  | cons b rest ih => exact (insertTile_perm b _).trans (ih.cons b)

/-! ### What a command other than a reset respects -/

/-- What the configuration lock asks of a command (R13 to R15): the level is written once and does not fall, and what the
level of `s` freezes stays as it was. -/
structure FrozenKept (s t : State) : Prop where
  lock : t.lock = s.lock ∨ (s.lock.used = false ∧ t.lock.used = true ∧ t.lock.level ≤ 3)
  level : (s.lock.used = false → s.lock.level = 0) →
    (t.lock.used = false → t.lock.level = 0) ∧ s.lock.level ≤ t.lock.level
  first : 1 ≤ s.lock.level → t.desk = s.desk ∧
    ∀ n, (t.comp n).zone = (s.comp n).zone ∧ (t.comp n).policy = (s.comp n).policy
  second : 2 ≤ s.lock.level → t.hotkeys = s.hotkeys ∧ Matcher.windows t.matcher = Matcher.windows s.matcher ∧
    (∀ l, (t.line l).config = (s.line l).config) ∧ BlankUnit.settings t.blank = BlankUnit.settings s.blank
  third : 3 ≤ s.lock.level → t.layout = s.layout ∧ t.heads = s.heads ∧
    ∀ n, (t.comp n).pointerMode = (s.comp n).pointerMode ∧ (t.comp n).vw = (s.comp n).vw ∧
      (t.comp n).vh = (s.comp n).vh

theorem frozenPart_eq_iff {c d : CompRecord} :
    CompRecord.frozenPart c = CompRecord.frozenPart d ↔ (c.zone = d.zone ∧ c.policy = d.policy) ∧
      c.pointerMode = d.pointerMode ∧ c.vw = d.vw ∧ c.vh = d.vh := by
  simp [CompRecord.frozenPart, and_assoc]

theorem Keeps.frozenKept (h : Keeps s t) : FrozenKept s t where
  lock := .inl h.lock
  level hl := by rw [h.lock]; exact ⟨hl, le_rfl⟩
  first _ := ⟨h.desk, fun n => (frozenPart_eq_iff.mp (h.comp n)).1⟩
  second _ := ⟨h.hotkeys, h.windows, h.configs, h.blank⟩
  third _ := ⟨h.layout, h.heads, fun n => (frozenPart_eq_iff.mp (h.comp n)).2⟩

theorem Keeps.frozenKept_trans (h : Keeps s t) (g : FrozenKept t u) : FrozenKept s u := by
  have hc := fun n => frozenPart_eq_iff.mp (h.comp n)
  obtain ⟨g1, g2, g3, g4, g5⟩ := g
  rw [h.lock] at g1 g2 g3 g4 g5
  refine ⟨g1, g2, fun hl => ?_, fun hl => ?_, fun hl => ?_⟩
  · exact ⟨(g3 hl).1.trans h.desk, fun n =>
      ⟨((g3 hl).2 n).1.trans (hc n).1.1, ((g3 hl).2 n).2.trans (hc n).1.2⟩⟩
  · obtain ⟨h1, h2, h3, h4⟩ := g4 hl
    exact ⟨h1.trans h.hotkeys, h2.trans h.windows, fun l => (h3 l).trans (h.configs l), h4.trans h.blank⟩
  · obtain ⟨h1, h2, h3⟩ := g5 hl
    obtain ⟨hp, hw, hh⟩ := forall_and.mp (fun n => (hc n).2) |>.imp_right forall_and.mp
    exact ⟨h1.trans h.layout, h2.trans h.heads, fun n =>
      ⟨(h3 n).1.trans (hp n), (h3 n).2.1.trans (hw n), (h3 n).2.2.trans (hh n)⟩⟩

theorem FrozenKept.trans_keeps (g : FrozenKept s t) (h : Keeps t u) : FrozenKept s u := by
  have hc := fun n => frozenPart_eq_iff.mp (h.comp n)
  obtain ⟨g1, g2, g3, g4, g5⟩ := g
  refine ⟨by rw [h.lock]; exact g1, by rw [h.lock]; exact g2, fun hl => ?_, fun hl => ?_, fun hl => ?_⟩
  · exact ⟨h.desk.trans (g3 hl).1, fun n =>
      ⟨(hc n).1.1.trans ((g3 hl).2 n).1, (hc n).1.2.trans ((g3 hl).2 n).2⟩⟩
  · obtain ⟨h1, h2, h3, h4⟩ := g4 hl
    exact ⟨h.hotkeys.trans h1, h.windows.trans h2, fun l => (h.configs l).trans (h3 l), h.blank.trans h4⟩
  · obtain ⟨h1, h2, h3⟩ := g5 hl
    obtain ⟨hp, hw, hh⟩ := forall_and.mp (fun n => (hc n).2) |>.imp_right forall_and.mp
    exact ⟨h.layout.trans h1, h.heads.trans h2, fun n =>
      ⟨(hp n).trans (h3 n).1, (hw n).trans (h3 n).2.1, (hh n).trans (h3 n).2.2⟩⟩

/-- A change that keeps a sound part sound and leaves what the lock freezes. -/
structure Respects (s t : State) : Prop where
  sound : Sound s → Sound t
  frozen : FrozenKept s t

theorem Keeps.respects (h : Keeps s t) : Respects s t := ⟨h.sound, h.frozenKept⟩

theorem Keeps.respects_trans (h : Keeps s t) (g : Respects t u) : Respects s u :=
  ⟨fun hs => g.sound (h.sound hs), h.frozenKept_trans g.frozen⟩

theorem Respects.trans_keeps (g : Respects s t) (h : Keeps t u) : Respects s u :=
  ⟨fun hs => h.sound (g.sound hs), g.frozen.trans_keeps h⟩

/-- The end of a command: the transmitter takes a frame. -/
theorem done_respects (h : Respects s u) (e : done u = .next t) : Respects s t := by
  obtain rfl : u.modSup transmitNext = t := by injection e
  exact h.trans_keeps (modSup_keeps (.refl u) fun _ => transmitNext_bounded)

theorem done_keeps (h : Keeps s u) (e : done u = .next t) : Respects s t := done_respects h.respects e

/-- A request that runs respects what its judgement respects. -/
theorem request_respects {r : Request} {judge : List Byte → State → Judged}
    (hj : ∀ b v, Respects v (judge b v).state) (e : done (runRequest r judge s) = .next t) : Respects s t := by
  refine done_respects ?_ e
  unfold runRequest
  dsimp only
  split
  · exact ((modSup_keeps (.refl s) fun _ => enterQueue_bounded r).respects_trans (hj _ _)).trans_keeps
      (modSup_keeps (.refl _) fun _ => finishRequest_bounded _)
  · exact (modSup_keeps (.refl s) fun _ => receiveRequest_bounded r).respects

theorem request_keeps {r : Request} {judge : List Byte → State → Judged}
    (hj : ∀ b v, Keeps v (judge b v).state) (e : done (runRequest r judge s) = .next t) : Respects s t :=
  request_respects (fun b v => (hj b v).respects) e

/-! ### The requests that write settings -/

theorem frozen_eq_false {n : Nat} : frozen n s = false ↔ s.lock.level < n := by simp [frozen]

theorem refuse_respects (c : ResultCode) : Respects t (refuse c t).state := (Keeps.refl t).respects

theorem judgeSetLock_respects (b : List Byte) : Respects t (judgeSetLock b t).state := by
  unfold judgeSetLock setLock
  split
  · split
    · exact refuse_respects _
    · split
      · exact refuse_respects _
      next hl hu =>
        refine ⟨fun hs => { hs with lock := ?_ }, ?_⟩
        · exact Nat.le_of_not_lt hl
        · refine { (Keeps.refl t).frozenKept with lock := ?_, level := ?_ }
          · exact .inr ⟨by simpa using hu, rfl, Nat.le_of_not_lt hl⟩
          · intro h
            refine ⟨fun h' => absurd h' (by simp [okay]), ?_⟩
            rw [h (by simpa using hu)]
            exact Nat.zero_le _
  · exact refuse_respects _

theorem modComp_respects {n : Comp} {r : CompRecord} (h : compLocked t (t.comp n) r = false) :
    Respects t (t.modComp n fun _ => r) := by
  simp only [compLocked, Bool.or_eq_false_iff, Bool.and_eq_false_iff, frozen_eq_false, bne_eq_false_iff_eq] at h
  obtain ⟨h1, h3⟩ := h
  have hc : ∀ m, (t.modComp n fun _ => r).comp m = if m = n then r else t.comp m := fun m => State.modComp_comp ..
  refine ⟨fun hs => { hs with }, { (Keeps.refl t).frozenKept with first := ?_, third := ?_ }⟩
  · intro hl
    obtain ⟨hz, hp⟩ := h1.resolve_left (by omega)
    refine ⟨rfl, fun m => ?_⟩
    rw [hc]
    split
    next e => rw [e]; exact ⟨hz, hp⟩
    · exact ⟨rfl, rfl⟩
  · intro hl
    obtain ⟨⟨hp, hw⟩, hh⟩ := h3.resolve_left (by omega)
    refine ⟨rfl, rfl, fun m => ?_⟩
    rw [hc]
    split
    next e => rw [e]; exact ⟨hp, hw, hh⟩
    · exact ⟨rfl, rfl, rfl⟩

/-- What SET_COMPUTER sets moving after the record is written. -/
theorem writeComp_keeps (n : Comp) (r : CompRecord) : Keeps (t.modComp n fun _ => r) (writeComp n r t) := by
  have hd : Keeps (t.modComp n fun _ => r) (rederive t (t.modComp n fun _ => r)) := rederive_keeps (.refl _)
  have hz : ∀ {v w}, Keeps v w → Keeps v (refreshGlideZone n w) :=
    fun hv => ite_keeps (modPointer_keeps hv (by exact fun _ => ⟨rfl, rfl⟩)) hv
  have hf := followMode_keeps (n := n) (old := t) (ite_keeps (c := r.zone = (t.comp n).zone) hd (hz hd))
  exact ite_keeps hf (autoGrant_keeps hf)

theorem judgeSetComputer_respects (b : List Byte) : Respects t (judgeSetComputer b t).state := by
  unfold judgeSetComputer setComputer
  split
  · split
    · split
      · split
        · exact refuse_respects _
        next hl => exact (modComp_respects (by simpa using hl)).trans_keeps (writeComp_keeps ..)
      · exact refuse_respects _
    · exact refuse_respects _
  · exact refuse_respects _

theorem setHeadMap_respects {x : Head} {m : HeadMap} (h : (frozen 3 t && m != t.headMap x) = false) :
    Respects t (t.setHeadMap x m) := by
  refine ⟨fun hs => { hs with }, { (Keeps.refl t).frozenKept with third := ?_ }⟩
  intro hl
  simp only [Bool.and_eq_false_iff, frozen_eq_false, bne_eq_false_iff_eq] at h
  refine ⟨rfl, ?_, fun _ => ⟨rfl, rfl, rfl⟩⟩
  exact upd_self t.heads (Head.idx x) (fun _ => m) (h.resolve_left (by omega))

theorem judgeSetHead_respects (b : List Byte) : Respects t (judgeSetHead b t).state := by
  unfold judgeSetHead setHead
  split
  · split
    · split
      · exact refuse_respects _
      next hl =>
        exact (setHeadMap_respects (by simpa using hl)).trans_keeps (ite_keeps (.refl _)
          (foldl_keeps (fun u _ => sendModeFor_keeps (.refl u)) _ (.refl _)))
    · exact refuse_respects _
  · exact refuse_respects _

/-- The place that a layout change gives the pointer lies in a tile of the new layout (R32). -/
theorem repositioned_contained {ts : List Tile} (hv : validLayout ts) (m : Option Monitor) (p : DeskPointer) :
    ∃ b ∈ ts, Tile.contains b (repositioned m ts p).1 (repositioned m ts p).2 = true := by
  unfold repositioned
  split
  next b hb =>
    obtain ⟨_, -, hf⟩ := Option.bind_eq_some_iff.mp hb
    have hm := List.mem_of_find?_eq_some hf
    obtain ⟨-, -, hw, -, hh, -⟩ := hv.2.2.1 b hm
    refine ⟨b, hm, ?_⟩
    simp [contains_iff, clampTo]
    omega
  · split
    next b rest _ =>
      obtain ⟨-, -, hw, -, hh, -⟩ := hv.2.2.1 b (by simp)
      exact ⟨b, by simp, centre_contained hw hh⟩
    · exact absurd hv.1 (by simp)

theorem changeLayout_respects {ts : List Tile} (hv : validLayout ts) (hl : t.lock.level < 3) :
    Respects t (changeLayout ts t) := by
  have hmoved : Respects t (movePointer (repositioned (pointerMonitor t) ts t.pointer).1
      (repositioned (pointerMonitor t) ts t.pointer).2 (t.setLayout ts)) :=
    ⟨fun hs => { hs with layout := hv, pointer := repositioned_contained hv _ _ },
      { (Keeps.refl t).frozenKept with third := fun h => absurd h (by omega) }⟩
  unfold changeLayout
  dsimp only
  split
  · split
    · exact hmoved.trans_keeps (reevaluate_keeps (.refl _))
    · exact hmoved
  · exact hmoved

theorem judgeSetLayout_respects (b : List Byte) : Respects t (judgeSetLayout b t).state := by
  unfold judgeSetLayout setLayout
  split
  · split
    · split
      · split
        next ts _ hok =>
          have hv := validLayout_perm (sortTiles_perm ts).symm (layoutOk_iff.mp hok)
          split
          · exact (Keeps.refl t).respects
          · split
            · exact refuse_respects _
            next hf => exact changeLayout_respects hv (by simpa [frozen] using hf)
        · exact refuse_respects _
      · exact refuse_respects _
    · exact refuse_respects _
  · exact refuse_respects _

theorem judgeSetDesk_respects (b : List Byte) : Respects t (judgeSetDesk b t).state := by
  unfold judgeSetDesk
  split
  · split
    · split
      · exact refuse_respects _
      next hl =>
        simp only [Bool.not_eq_true, Bool.and_eq_false_iff, frozen_eq_false, bne_eq_false_iff_eq] at hl
        refine ⟨fun hs => { hs with }, { (Keeps.refl t).frozenKept with first := fun h1 => ?_ }⟩
        exact ⟨hl.resolve_left (by omega), fun _ => ⟨rfl, rfl⟩⟩
    · exact refuse_respects _
  · exact refuse_respects _

theorem resetNamed_keeps {e : Option HotkeyEntry} (h : Keeps s t) : Keeps s (resetNamed e t) := by
  unfold resetNamed
  split
  · exact h.of_same rfl
  · exact h

/-- Two triggers exclude one another when they are equal, or are taps of one key or edges of one line (R79, R83). -/
theorem clash_iff {a b : Trigger} :
    clash a b = true ↔ a = b ∨ (∃ k c c', a = .tap k c ∧ b = .tap k c') ∨ ∃ l c c', a = .line l c ∧ b = .line l c' := by
  unfold clash
  cases a <;> cases b <;> simp
  all_goals exact or_congr_right eq_comm

theorem clash_symm {a b : Trigger} (h : clash a b = true) : clash b a = true := by
  rw [clash_iff] at h ⊢
  rcases h with rfl | ⟨k, c, d, ha, hb⟩ | ⟨l, c, d, ha, hb⟩
  · exact .inl rfl
  · exact .inr (.inl ⟨k, d, c, hb, ha⟩)
  · exact .inr (.inr ⟨l, d, c, hb, ha⟩)

theorem clash_comm (a b : Trigger) : clash a b = clash b a :=
  Bool.eq_iff_iff.mpr ⟨clash_symm, clash_symm⟩

theorem mem_allHotkeys : ∀ i : Fin 32, i ∈ allHotkeys := by decide

/-- A table entry that is written keeps the table apart when it excludes no other entry (R79, R83). -/
theorem setHotkey_sound {i : Fin 32} {x : Option HotkeyEntry}
    (hx : ∀ j d e, j ≠ i → t.hotkey j = some d → x = some e → clash e.trigger d.trigger = false) (hs : Sound t) :
    Sound (t.setHotkey i x) := by
  refine { hs with hotkeys := fun j k d e hjk hd he => ?_ }
  rw [State.setHotkey_hotkey] at hd he
  split at hd
  next hj =>
    rw [if_neg (by rintro rfl; exact hjk hj)] at he
    exact hx k e d (by rintro rfl; exact hjk hj) he hd
  · split at he
    next hk hj => rw [clash_comm]; exact hx j d e hk hd he
    · exact hs.hotkeys j k d e hjk hd he

theorem setHotkey_respects {i : Fin 32} {x : Option HotkeyEntry}
    (hx : ∀ j d e, j ≠ i → t.hotkey j = some d → x = some e → clash e.trigger d.trigger = false)
    (hl : 2 ≤ t.lock.level → t.hotkey i = x) : Respects t (t.setHotkey i x) := by
  refine ⟨setHotkey_sound hx, { (Keeps.refl t).frozenKept with second := fun h => ?_ }⟩
  exact ⟨upd_self t.hotkeys i (fun _ => x) (hl h).symm, rfl, fun _ => rfl, rfl⟩

theorem resetNamed_hotkey (e : Option HotkeyEntry) (j : Fin 32) : (resetNamed e t).hotkey j = t.hotkey j := by
  unfold resetNamed
  split <;> rfl

theorem resetNamed_lock (e : Option HotkeyEntry) : (resetNamed e t).lock = t.lock := by
  unfold resetNamed
  split <;> rfl

theorem judgeSetHotkey_respects (b : List Byte) : Respects t (judgeSetHotkey b t).state := by
  unfold judgeSetHotkey setHotkeyEntry
  split
  · split
    next i e _ _ =>
      dsimp only
      split
      · exact refuse_respects _
      · split
        · exact refuse_respects _
        next hc hl =>
          refine (resetNamed_keeps (resetNamed_keeps (.refl t))).respects_trans (setHotkey_respects ?_ ?_)
          · intro j d e' hj hd he
            obtain rfl : e = e' := by injection he
            rw [resetNamed_hotkey, resetNamed_hotkey] at hd
            simp only [Bool.not_eq_true, List.any_eq_false] at hc
            simpa [hj, hd] using hc j (mem_allHotkeys j)
          · rw [resetNamed_lock, resetNamed_lock, resetNamed_hotkey, resetNamed_hotkey]
            intro h2
            simp only [Bool.not_eq_true, Bool.and_eq_false_iff, frozen_eq_false, bne_eq_false_iff_eq] at hl
            exact hl.resolve_left (by omega)
    · exact refuse_respects _
  · exact refuse_respects _

theorem judgeClearHotkey_respects (b : List Byte) : Respects t (judgeClearHotkey b t).state := by
  unfold judgeClearHotkey
  split
  · split
    · split
      · exact refuse_respects _
      next hl =>
        refine (resetNamed_keeps (.refl t)).respects_trans (setHotkey_respects (by simp) ?_)
        rw [resetNamed_lock, resetNamed_hotkey]
        intro h2
        simp only [Bool.not_eq_true, Bool.and_eq_false_iff, frozen_eq_false] at hl
        simpa using hl.resolve_left (by omega)
    · exact refuse_respects _
  · exact refuse_respects _

theorem judgeSetHotkeyTiming_respects (b : List Byte) : Respects t (judgeSetHotkeyTiming b t).state := by
  unfold judgeSetHotkeyTiming
  split
  · dsimp only
    split
    · exact refuse_respects _
    next hl =>
      simp only [Bool.not_eq_true, Bool.and_eq_false_iff, Bool.or_eq_false_iff, frozen_eq_false,
        bne_eq_false_iff_eq] at hl
      refine ⟨fun hs => { hs with }, { (Keeps.refl t).frozenKept with second := fun h => ?_ }⟩
      obtain ⟨h1, h2⟩ := hl.resolve_left (by omega)
      exact ⟨rfl, Prod.ext h1 h2, fun _ => rfl, rfl⟩
  · exact refuse_respects _

theorem judgeSetBlank_respects (b : List Byte) : Respects t (judgeSetBlank b t).state := by
  unfold judgeSetBlank
  split
  · split
    · dsimp only
      split
      · exact refuse_respects _
      next hl =>
        simp only [Bool.not_eq_true, Bool.and_eq_false_iff, frozen_eq_false, bne_eq_false_iff_eq] at hl
        refine ⟨fun hs => { hs with }, { (Keeps.refl t).frozenKept with second := fun h => ?_ }⟩
        exact ⟨rfl, rfl, fun _ => rfl, congrArg BlankUnit.settings (hl.resolve_left (by omega))⟩
    · exact refuse_respects _
  · exact refuse_respects _

/-- A line that takes a configuration keeps the roles apart when no other line holds its role (R182). -/
theorem lineConfigured_sound {l : LineId} {f : Line → Line} {c : LineConfig} (hf : ∀ x, (f x).config = c)
    (hc : roleTaken t l c.role = false) (hs : Sound t) : Sound (t.modLine l f) := by
  have free : ∀ j n r, j ≠ l → r ∈ [Role.powerSense n, Role.tally n, Role.wakePulse n] → c.role = r →
      (t.line j).config.role ≠ r := by
    intro j n r hj hr hcr he
    have hany : (allLines.any fun j => j != l && (t.line j).config.role == c.role) = true := by
      rw [List.any_eq_true]
      exact ⟨j, mem_allLines j, by simp [hj, he, hcr]⟩
    simp only [List.mem_cons, List.not_mem_nil, or_false] at hr
    unfold roleTaken at hc
    rcases hr with rfl | rfl | rfl <;> rw [hcr] at hc hany <;> dsimp only at hc <;> rw [hany] at hc <;>
      exact Bool.noConfusion hc
  have hcfg : ∀ j, ((t.modLine l f).line j).config = if j = l then c else (t.line j).config := fun j => by
    rw [State.modLine_line]; split <;> simp [hf]
  refine { hs with roles := fun i j n r hij hr hi => ?_ }
  rw [hcfg] at hi ⊢
  split at hi
  next hil => rw [if_neg (by rintro rfl; exact hij hil)]; exact free j n r (by rintro rfl; exact hij hil) hr hi
  · split
    next hil hjl => exact fun he => free i n r hil hr he hi
    · exact hs.roles i j n r hij hr hi

theorem roleTaken_congr {l : LineId} {r : Role} (h : ∀ j, (t.line j).config = (s.line j).config) :
    roleTaken t l r = roleTaken s l r := by
  unfold roleTaken
  split <;> simp only [h]

theorem reconfigure_respects {l : LineId} {c : LineConfig} (hr : roleTaken t l c.role = false) (hl : t.lock.level < 2) :
    Respects t (reconfigure l c t) := by
  have hk := leaveConfig_keeps (l := l) (.refl t)
  refine (hk.respects_trans (u := (leaveConfig l t).modLine l _) ⟨?_, ?_⟩).trans_keeps (refilter_keeps (.refl _))
  · exact lineConfigured_sound (fun _ => rfl) ((roleTaken_congr hk.configs).trans hr)
  · refine { (Keeps.refl (leaveConfig l t)).frozenKept with second := fun h => absurd h ?_ }
    rw [hk.lock]
    omega

theorem judgeSetLine_respects (b : List Byte) : Respects t (judgeSetLine b t).state := by
  unfold judgeSetLine setLine
  split
  · split
    · split
      · exact refuse_respects _
      · split
        · exact refuse_respects _
        · split
          · exact (refilter_keeps (modLine_keeps (.refl t) (by exact fun _ => rfl))).respects
          next hr hl hc =>
            simp only [Bool.not_eq_true, Bool.and_eq_false_iff, frozen_eq_false, bne_eq_false_iff_eq] at hl
            exact reconfigure_respects (by simpa using hr) (hl.resolve_right hc)
    · exact refuse_respects _
  · exact refuse_respects _

end Sys2Proof.Machine
end

section
/-!
SUPPORT. The judgements of the requests that write no frozen setting keep what `Keeps` names, and every command is gone
through once: none but a reset changes what the lock freezes, and all keep a sound part sound.
-/

namespace Sys2Proof.Machine

open Sys2Proof

variable {s t u : State}

/-! ### The requests that write no frozen setting -/

theorem okay_keeps (h : Keeps t u) : Keeps t (okay u).state := h

theorem okayWith_keeps {b : List Byte} (h : Keeps t u) : Keeps t (okayWith b u).state := h

theorem setClasses_keeps {c : BitVec 8} : Keeps t (setClasses c t).state :=
  okayWith_keeps (modSup_keeps (.refl t) (by exact fun _ hp => hp))

theorem judgeGrantControl_keeps (b : List Byte) : Keeps t (judgeGrantControl b t).state := by
  unfold judgeGrantControl
  split
  · split
    · exact grantControl_keeps
    · exact .refl t
  · exact .refl t

theorem judgeRefuseClaim_keeps (b : List Byte) : Keeps t (judgeRefuseClaim b t).state := by
  unfold judgeRefuseClaim
  split
  · split
    · exact refuseClaim_keeps
    · exact .refl t
  · exact .refl t

theorem judgeTakeBack_keeps (b : List Byte) : Keeps t (judgeTakeBack b t).state := by
  unfold judgeTakeBack
  split
  · split
    · exact takeBack_keeps
    · exact .refl t
  · exact .refl t

theorem judgeClaimControl_keeps (b : List Byte) : Keeps t (judgeClaimControl b t).state := by
  unfold judgeClaimControl
  split
  · split
    · exact claimControl_keeps
    · exact .refl t
  · exact .refl t

theorem judgeReleaseControl_keeps (b : List Byte) : Keeps t (judgeReleaseControl b t).state := by
  unfold judgeReleaseControl
  split
  · split
    · exact releaseControl_keeps
    · exact .refl t
  · exact .refl t

theorem judgeSwitch_keeps (b : List Byte) : Keeps t (judgeSwitch b t).state := by
  unfold judgeSwitch
  split
  · split
    · exact switchTo_keeps
    · exact .refl t
  · exact .refl t

theorem judgeRecallScene_keeps (b : List Byte) : Keeps t (judgeRecallScene b t).state := by
  unfold judgeRecallScene
  split
  · split
    · exact recallSlot_keeps
    · exact .refl t
  · exact .refl t

theorem judgeStoreScene_keeps (b : List Byte) : Keeps t (judgeStoreScene b t).state := by
  unfold judgeStoreScene
  split
  · split
    · split
      · exact judged_ite_keeps ((Keeps.refl t).of_same rfl) (.refl t)
      · exact .refl t
    · exact .refl t
  · exact .refl t

theorem judgeSetOutput_keeps (b : List Byte) : Keeps t (judgeSetOutput b t).state := by
  unfold judgeSetOutput
  split
  · split
    · exact modOut_keeps (.refl t)
    · exact .refl t
  · exact .refl t

theorem judgeWake_keeps (b : List Byte) : Keeps t (judgeWake b t).state := by
  unfold judgeWake
  split
  · split
    · exact wakeTrigger_keeps (.refl t)
    · exact .refl t
  · exact .refl t

theorem judgeSetLink_keeps (b : List Byte) : Keeps t (judgeSetLink b t).state := by
  unfold judgeSetLink
  split
  · split
    · exact setLink_keeps (.refl t)
    · exact .refl t
  · exact .refl t

theorem judgeOfferShare_keeps (b : List Byte) : Keeps t (judgeOfferShare b t).state := by
  unfold judgeOfferShare
  split
  · split
    · exact judged_ite_keeps (.refl t) (judged_ite_keeps (.refl t) (judged_ite_keeps (.refl t) (judged_ite_keeps (.refl t)
        (judged_ite_keeps (.refl t) (notify_keeps (sendFrame_keeps (setOutbound_keeps (.refl t))))))))
    · exact .refl t
  · exact .refl t

theorem acceptShare_keeps {k : LinkId} : Keeps t (acceptShare k t).state := by
  unfold acceptShare
  split
  · exact .refl t
  · split
    · exact inActivate_keeps (.refl t)
    · exact .refl t

theorem declineShare_keeps {k : LinkId} : Keeps t (declineShare k t).state := by
  unfold declineShare
  split
  · exact .refl t
  · split
    · exact inEnd_keeps (.refl t)
    · exact .refl t

theorem endShare_keeps {k : LinkId} {side : Bool} : Keeps t (endShare k side t).state := by
  unfold endShare
  split
  · split
    · exact inEnd_keeps (.refl t)
    · exact .refl t
  · split
    · exact .refl t
    · exact outEnd_keeps (.refl t)

theorem judgeAcceptShare_keeps (b : List Byte) : Keeps t (judgeAcceptShare b t).state := by
  unfold judgeAcceptShare
  split
  · split
    · exact acceptShare_keeps
    · exact .refl t
  · exact .refl t

theorem judgeDeclineShare_keeps (b : List Byte) : Keeps t (judgeDeclineShare b t).state := by
  unfold judgeDeclineShare
  split
  · split
    · exact declineShare_keeps
    · exact .refl t
  · exact .refl t

theorem judgeEndShare_keeps (b : List Byte) : Keeps t (judgeEndShare b t).state := by
  unfold judgeEndShare
  split
  · split
    · exact endShare_keeps
    · exact .refl t
  · exact .refl t

theorem judgeBlank_keeps (b : List Byte) : Keeps t (judgeBlank b t).state := by
  unfold judgeBlank
  split
  · exact engageBy_keeps (.refl t)
  · exact .refl t

theorem judgeResume_keeps (b : List Byte) : Keeps t (judgeResume b t).state := by
  unfold judgeResume
  split
  · exact judged_ite_keeps (.refl t) (resumeEffect_keeps (.refl t))
  · exact .refl t

theorem judgeTrigger_keeps (b : List Byte) : Keeps t (judgeTrigger b t).state := by
  unfold judgeTrigger
  split
  · split
    · exact runAction_keeps
    · exact .refl t
  · exact .refl t

theorem judgeSetFocus_keeps (b : List Byte) : Keeps t (judgeSetFocus b t).state := by
  unfold judgeSetFocus
  split
  · split
    · exact requestFocus_keeps
    · exact .refl t
  · exact .refl t

theorem judgeSetBroadcast_keeps (b : List Byte) : Keeps t (judgeSetBroadcast b t).state := by
  unfold judgeSetBroadcast
  split
  · split
    · exact setBroadcast_keeps (.refl t)
    · exact .refl t
  · exact .refl t

theorem judgeDriveLine_keeps (b : List Byte) : Keeps t (judgeDriveLine b t).state := by
  unfold judgeDriveLine
  split
  · split
    · exact judged_ite_keeps (modLine_keeps (.refl t) (by exact fun _ => rfl)) (.refl t)
    · exact .refl t
  · exact .refl t

theorem judgeGetStatus_keeps (b : List Byte) : Keeps t (judgeGetStatus b t).state := by
  unfold judgeGetStatus
  split
  · exact okayWith_keeps (modSup_keeps (.refl t) (by exact fun _ hp => hp))
  · exact .refl t

theorem judgeReset_keeps (b : List Byte) : Keeps t (judgeReset b t).state := by
  unfold judgeReset
  split
  · exact .refl t
  · exact .refl t

theorem judgeSubscribe_keeps (b : List Byte) : Keeps t (judgeSubscribe b t).state := by
  unfold judgeSubscribe
  split
  · exact setClasses_keeps
  · exact .refl t

theorem judgeUnsubscribe_keeps (b : List Byte) : Keeps t (judgeUnsubscribe b t).state := by
  unfold judgeUnsubscribe
  split
  · exact setClasses_keeps
  · exact .refl t

theorem judgeSetPointer_keeps (b : List Byte) : Keeps t (judgeSetPointer b t).state := by
  unfold judgeSetPointer
  split
  · exact okay_keeps (modPointer_keeps (.refl t) (by exact fun _ => ⟨rfl, rfl⟩))
  · exact .refl t

theorem judgePlacePointer_keeps (b : List Byte) : Keeps t (judgePlacePointer b t).state := by
  unfold judgePlacePointer
  split
  · split
    · exact placePointer_keeps
    · exact .refl t
  · exact .refl t

theorem judgeClearCounters_keeps (b : List Byte) : Keeps t (judgeClearCounters b t).state := by
  unfold judgeClearCounters
  split
  · split
    · exact clearOthers_keeps (foldl_keeps (fun u _ => modPort_keeps (.refl u) (by exact fun _ hp => hp)) _ (.refl t))
    · exact .refl t
  · exact .refl t

theorem judgeSetPort_keeps (b : List Byte) : Keeps t (judgeSetPort b t).state := by
  unfold judgeSetPort
  split
  · split
    · exact modPort_keeps (.refl t) (by exact fun _ hp => hp)
    · exact .refl t
  · exact .refl t

/-! ### The readbacks -/

theorem judgeGetControl_keeps (b : List Byte) : Keeps t (judgeGetControl b t).state := by
  unfold judgeGetControl
  split
  · split
    · exact .refl t
    · exact .refl t
  · exact .refl t

theorem judgeGetOutput_keeps (b : List Byte) : Keeps t (judgeGetOutput b t).state := by
  unfold judgeGetOutput
  split
  · split
    · exact .refl t
    · exact .refl t
  · exact .refl t

theorem judgeGetHead_keeps (b : List Byte) : Keeps t (judgeGetHead b t).state := by
  unfold judgeGetHead
  split
  · split
    · exact .refl t
    · exact .refl t
  · exact .refl t

theorem judgeGetPower_keeps (b : List Byte) : Keeps t (judgeGetPower b t).state := by
  unfold judgeGetPower
  split
  · split
    · exact .refl t
    · exact .refl t
  · exact .refl t

theorem judgeGetLink_keeps (b : List Byte) : Keeps t (judgeGetLink b t).state := by
  unfold judgeGetLink
  split
  · split
    · exact .refl t
    · exact .refl t
  · exact .refl t

theorem judgeGetHotkey_keeps (b : List Byte) : Keeps t (judgeGetHotkey b t).state := by
  unfold judgeGetHotkey
  split
  · split
    · exact .refl t
    · exact .refl t
  · exact .refl t

theorem judgeGetPort_keeps (b : List Byte) : Keeps t (judgeGetPort b t).state := by
  unfold judgeGetPort
  split
  · split
    · exact .refl t
    · exact .refl t
  · exact .refl t

theorem judgeGetComputer_keeps (b : List Byte) : Keeps t (judgeGetComputer b t).state := by
  unfold judgeGetComputer
  split
  · split
    · exact .refl t
    · exact .refl t
  · exact .refl t

theorem judgeGetFocus_keeps (b : List Byte) : Keeps t (judgeGetFocus b t).state := by
  unfold judgeGetFocus
  split
  · exact .refl t
  · exact .refl t

theorem judgeGetLines_keeps (b : List Byte) : Keeps t (judgeGetLines b t).state := by
  unfold judgeGetLines
  split
  · exact .refl t
  · exact .refl t

theorem judgeGetPointer_keeps (b : List Byte) : Keeps t (judgeGetPointer b t).state := by
  unfold judgeGetPointer
  split
  · exact .refl t
  · exact .refl t

theorem judgeGetLayout_keeps (b : List Byte) : Keeps t (judgeGetLayout b t).state := by
  unfold judgeGetLayout
  split
  · exact .refl t
  · exact .refl t

/-! ### The commands -/

/-- Every command other than a reset keeps a sound part sound and leaves what the lock freezes. -/
theorem exec_respects {c : Instr} (hd : ∀ x, c ≠ .deviceReset x) (hw : c ≠ .warmReset) (h : exec c s = .next t) :
    Respects s t := by
  cases c with
  | deviceReset x => exact absurd rfl (hd x)
  | warmReset => exact absurd rfl hw
  | supervisorFrameReceived bs => exact done_keeps (modSup_keeps (.refl s) fun _ => scanSup_bounded) h
  | gapTimeout =>
    change execGapTimeout s = .next t at h
    unfold execGapTimeout at h
    split at h
    · exact done_keeps (modSup_keeps (reach_keeps (.refl s)) gapTimeout_bounded) h
    · exact done_keeps (.refl s) h
  | byteError => exact done_keeps (modSup_keeps (.refl s) byteError_bounded) h
  | transmitDone => exact done_keeps (modSup_keeps (.refl s) transmitEnd_bounded) h
  | unknownKind k tag b =>
    exact done_keeps (ite_keeps (modSup_keeps (.refl s) fun _ => receiveRequest_bounded _)
      (runRequest_keeps (fun _ v => .refl v) (.refl s))) h
  | getStatus tag b => exact request_keeps (fun b _ => judgeGetStatus_keeps b) h
  | reset tag b => exact request_keeps (fun b _ => judgeReset_keeps b) h
  | subscribe tag b => exact request_keeps (fun b _ => judgeSubscribe_keeps b) h
  | unsubscribe tag b => exact request_keeps (fun b _ => judgeUnsubscribe_keeps b) h
  | getComputer tag b => exact request_keeps (fun b _ => judgeGetComputer_keeps b) h
  | getLayout tag b => exact request_keeps (fun b _ => judgeGetLayout_keeps b) h
  | setPointer tag b => exact request_keeps (fun b _ => judgeSetPointer_keeps b) h
  | placePointer tag b => exact request_keeps (fun b _ => judgePlacePointer_keeps b) h
  | getPointer tag b => exact request_keeps (fun b _ => judgeGetPointer_keeps b) h
  | setFocus tag b => exact request_keeps (fun b _ => judgeSetFocus_keeps b) h
  | getFocus tag b => exact request_keeps (fun b _ => judgeGetFocus_keeps b) h
  | setBroadcast tag b => exact request_keeps (fun b _ => judgeSetBroadcast_keeps b) h
  | getPort tag b => exact request_keeps (fun b _ => judgeGetPort_keeps b) h
  | clearCounters tag b => exact request_keeps (fun b _ => judgeClearCounters_keeps b) h
  | setPort tag b => exact request_keeps (fun b _ => judgeSetPort_keeps b) h
  | getHotkey tag b => exact request_keeps (fun b _ => judgeGetHotkey_keeps b) h
  | trigger tag b => exact request_keeps (fun b _ => judgeTrigger_keeps b) h
  | switch tag b => exact request_keeps (fun b _ => judgeSwitch_keeps b) h
  | getOutput tag b => exact request_keeps (fun b _ => judgeGetOutput_keeps b) h
  | setOutput tag b => exact request_keeps (fun b _ => judgeSetOutput_keeps b) h
  | storeScene tag b => exact request_keeps (fun b _ => judgeStoreScene_keeps b) h
  | recallScene tag b => exact request_keeps (fun b _ => judgeRecallScene_keeps b) h
  | getHead tag b => exact request_keeps (fun b _ => judgeGetHead_keeps b) h
  | blank tag b => exact request_keeps (fun b _ => judgeBlank_keeps b) h
  | resume tag b => exact request_keeps (fun b _ => judgeResume_keeps b) h
  | setLink tag b => exact request_keeps (fun b _ => judgeSetLink_keeps b) h
  | getLink tag b => exact request_keeps (fun b _ => judgeGetLink_keeps b) h
  | offerShare tag b => exact request_keeps (fun b _ => judgeOfferShare_keeps b) h
  | acceptShare tag b => exact request_keeps (fun b _ => judgeAcceptShare_keeps b) h
  | declineShare tag b => exact request_keeps (fun b _ => judgeDeclineShare_keeps b) h
  | endShare tag b => exact request_keeps (fun b _ => judgeEndShare_keeps b) h
  | grantControl tag b => exact request_keeps (fun b _ => judgeGrantControl_keeps b) h
  | refuseClaim tag b => exact request_keeps (fun b _ => judgeRefuseClaim_keeps b) h
  | takeBack tag b => exact request_keeps (fun b _ => judgeTakeBack_keeps b) h
  | claimControl tag b => exact request_keeps (fun b _ => judgeClaimControl_keeps b) h
  | releaseControl tag b => exact request_keeps (fun b _ => judgeReleaseControl_keeps b) h
  | getControl tag b => exact request_keeps (fun b _ => judgeGetControl_keeps b) h
  | wake tag b => exact request_keeps (fun b _ => judgeWake_keeps b) h
  | getPower tag b => exact request_keeps (fun b _ => judgeGetPower_keeps b) h
  | getLines tag b => exact request_keeps (fun b _ => judgeGetLines_keeps b) h
  | driveLine tag b => exact request_keeps (fun b _ => judgeDriveLine_keeps b) h
  | setLock tag b => exact request_respects (fun b _ => judgeSetLock_respects b) h
  | setComputer tag b => exact request_respects (fun b _ => judgeSetComputer_respects b) h
  | setHead tag b => exact request_respects (fun b _ => judgeSetHead_respects b) h
  | setLayout tag b => exact request_respects (fun b _ => judgeSetLayout_respects b) h
  | setDesk tag b => exact request_respects (fun b _ => judgeSetDesk_respects b) h
  | setHotkey tag b => exact request_respects (fun b _ => judgeSetHotkey_respects b) h
  | clearHotkey tag b => exact request_respects (fun b _ => judgeClearHotkey_respects b) h
  | setHotkeyTiming tag b => exact request_respects (fun b _ => judgeSetHotkeyTiming_respects b) h
  | setBlank tag b => exact request_respects (fun b _ => judgeSetBlank_respects b) h
  | setLine tag b => exact request_respects (fun b _ => judgeSetLine_respects b) h
  | deskKeyboardReport m ks => exact done_keeps (ite_keeps (keyboardReport_keeps (.refl s)) (.refl s)) h
  | deskKeyboardAttach => exact done_keeps (keyboardAttach_keeps (.refl s)) h
  | deskKeyboardDetach => exact done_keeps (keyboardDetach_keeps (.refl s)) h
  | deskPointerReport dx dy w b => exact done_keeps (ite_keeps (motion_keeps ((Keeps.refl s).of_same rfl)) (.refl s)) h
  | deskPointerAttach => exact done_keeps ((Keeps.refl s).of_same rfl) h
  | deskPointerDetach => exact done_keeps (ite_keeps (motion_keeps ((Keeps.refl s).of_same rfl)) (.refl s)) h
  | tapWindowExpiry =>
    change execTapWindowExpiry s = .next t at h
    unfold execTapWindowExpiry at h
    split at h
    · exact done_keeps (modMatcher_keeps (reach_keeps (.refl s)) (by exact fun _ => rfl)) h
    · exact done_keeps (.refl s) h
  | commandWindowExpiry =>
    change execCommandWindowExpiry s = .next t at h
    unfold execCommandWindowExpiry at h
    split at h
    · exact done_keeps (modMatcher_keeps (reach_keeps (.refl s)) (by exact fun _ => rfl)) h
    · exact done_keeps (.refl s) h
  | lineWindowExpiry l =>
    change execLineWindowExpiry l s = .next t at h
    unfold execLineWindowExpiry at h
    split at h
    · exact done_keeps ((reach_keeps (.refl s)).of_same rfl) h
    · exact done_keeps (.refl s) h
  | portAttach n => exact done_keeps (ite_keeps (attachPort_keeps (.refl s)) (.refl s)) h
  | portConfigure n =>
    change execPortConfigure n s = .next t at h
    unfold execPortConfigure at h
    split at h
    · exact done_keeps (enterActive_keeps (.refl s)) h
    · exact done_keeps (resumePort_keeps (.refl s)) h
    · exact done_keeps (.refl s) h
  | portSuspend n => exact done_keeps (ite_keeps (notifyPower_keeps (setBus_keeps (.refl s))) (.refl s)) h
  | portResume n => exact done_keeps (ite_keeps (resumePort_keeps (.refl s)) (.refl s)) h
  | busReset n => exact done_keeps (ite_keeps (.refl s) (resetPort_keeps (.refl s))) h
  | portDetach n => exact done_keeps (ite_keeps (.refl s) (detachPort_keeps (.refl s))) h
  | formatSelect n i f => exact done_keeps (ite_keeps (.refl s) (selectFormat_keeps (.refl s))) h
  | remoteWakeSet n on => exact done_keeps (ite_keeps (.refl s) (modPort_keeps (.refl s) (by exact fun _ hp => hp))) h
  | lightReport n l =>
    exact done_keeps (ite_keeps (.refl s) (lightsChanged_keeps (modPort_keeps (.refl s) (by exact fun _ hp => hp)))) h
  | keyboardPoll n => exact done_keeps (pollKeys_keeps (.refl s)) h
  | pointerPoll n => exact done_keeps (pollPointer_keeps (.refl s)) h
  | signalFound x => exact done_keeps (ite_keeps (changeInput_keeps (.refl s)) (.refl s)) h
  | modeMeasured x m => exact done_keeps (changeInput_keeps (.refl s)) h
  | signalLost x => exact done_keeps (changeInput_keeps (.refl s)) h
  | switchStart =>
    change execSwitchStart s = .next t at h
    unfold execSwitchStart startNext at h
    split at h
    · split at h
      · exact done_keeps (startSwitch_keeps (reach_keeps (.refl s))) h
      · exact done_keeps (reach_keeps (.refl s)) h
    · exact done_keeps (.refl s) h
  | blankEnd o =>
    change execBlankEnd o s = .next t at h
    unfold execBlankEnd at h
    split at h
    · exact done_keeps (setCrosspoint_keeps (reach_keeps (.refl s))) h
    · exact done_keeps (.refl s) h
  | lockStable o =>
    change execLockStable o s = .next t at h
    unfold execLockStable at h
    split at h
    · exact done_keeps (enterState_keeps (reach_keeps (.refl s))) h
    · exact done_keeps (.refl s) h
  | lockTimeout o =>
    change execLockTimeout o s = .next t at h
    unfold execLockTimeout at h
    split at h
    · exact done_keeps (enterState_keeps (reach_keeps (.refl s))) h
    · exact done_keeps (.refl s) h
  | holdExpiry =>
    change execHoldExpiry s = .next t at h
    unfold execHoldExpiry at h
    split at h
    · exact done_keeps (setBlankState_keeps (reach_keeps (.refl s))) h
    · exact done_keeps (.refl s) h
  | linePinChange l level strong =>
    exact done_keeps (refilter_keeps (modLine_keeps (.refl s) (by exact fun _ => rfl))) h
  | lineFilterExpiry l => exact done_keeps (filterEnd_keeps (.refl s)) h
  | wakeSignalEnd n =>
    change execWakeSignalEnd n s = .next t at h
    unfold execWakeSignalEnd at h
    split at h
    · exact done_keeps (setAttempt_keeps (reach_keeps (.refl s))) h
    · exact done_keeps (.refl s) h
  | wakeBusStageEnd n =>
    change execWakeBusStageEnd n s = .next t at h
    unfold execWakeBusStageEnd at h
    split at h
    · exact done_keeps (pulseDue_keeps (reach_keeps (.refl s))) h
    · exact done_keeps (.refl s) h
  | wakePulseEnd n =>
    change execWakePulseEnd n s = .next t at h
    unfold execWakePulseEnd at h
    split at h
    · exact done_keeps (ite_keeps (setAttempt_keeps (setPulse_keeps (reach_keeps (.refl s))))
        (failWake_keeps (reach_keeps (.refl s)))) h
    · exact done_keeps (.refl s) h
  | wakeDeadline n =>
    change execWakeDeadline n s = .next t at h
    unfold execWakeDeadline at h
    split at h
    · exact done_keeps (failWake_keeps (reach_keeps (.refl s))) h
    · exact done_keeps (.refl s) h
  | quietTimeReached n =>
    change execQuietTimeReached n s = .next t at h
    unfold execQuietTimeReached at h
    split at h
    · exact done_keeps (autoGrant_keeps (reach_keeps (.refl s))) h
    · exact done_keeps (autoGrant_keeps (.refl s)) h
  | aliveTimer k => exact done_keeps (ite_keeps (sendAlive_keeps (reach_keeps (.refl s))) (.refl s)) h
  | linkSilence k =>
    change execLinkSilence k s = .next t at h
    unfold execLinkSilence at h
    split at h
    · exact done_keeps (linkDown_keeps (reach_keeps (.refl s))) h
    · exact done_keeps (.refl s) h
  | outboundOfferTimeout k =>
    change execOutboundOfferTimeout k s = .next t at h
    unfold execOutboundOfferTimeout at h
    split at h
    · exact done_keeps (outEnd_keeps (reach_keeps (.refl s))) h
    · exact done_keeps (.refl s) h
  | inboundOfferTimeout k =>
    change execInboundOfferTimeout k s = .next t at h
    unfold execInboundOfferTimeout at h
    split at h
    · exact done_keeps (inEnd_keeps (reach_keeps (.refl s))) h
    · exact done_keeps (.refl s) h
  | linkFrameDamaged k bs => exact done_keeps (scanLink_keeps (.refl s)) h
  | alive k a => exact done_keeps (wholeFrame_keeps (.refl s)) h
  | offer k o => exact done_keeps (wholeFrame_keeps (.refl s)) h
  | accept k => exact done_keeps (wholeFrame_keeps (.refl s)) h
  | decline k r => exact done_keeps (wholeFrame_keeps (.refl s)) h
  | endSession k d r => exact done_keeps (wholeFrame_keeps (.refl s)) h
  | mode k m p => exact done_keeps (wholeFrame_keeps (.refl s)) h
  | claim k kind => exact done_keeps (wholeFrame_keeps (.refl s)) h
  | grant k => exact done_keeps (wholeFrame_keeps (.refl s)) h
  | deny k r => exact done_keeps (wholeFrame_keeps (.refl s)) h
  | release k => exact done_keeps (wholeFrame_keeps (.refl s)) h
  | revoke k => exact done_keeps (wholeFrame_keeps (.refl s)) h
  | keys k ks => exact done_keeps (wholeFrame_keeps (.refl s)) h
  | pointer k f => exact done_keeps (wholeFrame_keeps (.refl s)) h
  | linkSendDone k => exact done_keeps (modLink_keeps (.refl s) linkSent_bounded) h
  | lengthError len => exact done_keeps (modSup_keeps (.refl s) fun _ => scanSup_bounded) h

end Sys2Proof.Machine
end

section
/-!
SUPPORT. Both resets leave a sound part: the tables take valid reset values, every line gives up its role, and the queues
that a reset does not empty are within their sizes already.
-/

namespace Sys2Proof.Machine

open Sys2Proof

variable {s t u : State}

@[simp] theorem pick_map {α β : Type} {n : Nat} (v : Vector α n) (f : α → β) (i : Fin n) :
    pick (v.map f) i = f (pick v i) := by simp [pick]

/-! ### The reset values of the tables -/

theorem defaultLayout_valid : validLayout defaultLayout := layoutOk_iff.mp (by decide)

/-- The pointer starts in the middle of the tile of M1 (R18). -/
theorem reset_contained : Tile.contains ⟨0, 0, 0, 1920, 1080⟩ DeskPointer.reset.px DeskPointer.reset.py = true :=
  by decide

theorem reset_inTile : ∃ b ∈ defaultLayout, Tile.contains b DeskPointer.reset.px DeskPointer.reset.py = true :=
  ⟨⟨0, 0, 0, 1920, 1080⟩, by simp [defaultLayout], reset_contained⟩

theorem defaultHotkeys_apart :
    ∀ i j : Fin 32, i ≠ j → ∀ d ∈ pick defaultHotkeys i, ∀ e ∈ pick defaultHotkeys j,
      clash d.trigger e.trigger = false := by
  decide +kernel

/-- A state whose tables and pointer hold the reset values, with no line in a role, is sound when its queues are within
their sizes. -/
theorem sound_of_resetTables (hl : s.layout = defaultLayout) (hp : s.pointer = DeskPointer.reset)
    (hk : s.lock = ⟨0, false⟩) (hh : s.hotkeys = defaultHotkeys) (hc : ∀ l, (s.line l).config = LineConfig.reset)
    (hkeys : s.keyboard.held.keys = [])
    (hports : ∀ n, Port.bounded (s.port n)) (hlinks : ∀ k, (s.link k).sendQueue.length ≤ 32)
    (hsup : Supervisor.bounded s.sup) : Sound s where
  layout := by rw [hl]; exact defaultLayout_valid
  pointer := by rw [hl, hp]; exact reset_inTile
  lock := by rw [hk]; exact Nat.zero_le 3
  hotkeys := by
    intro i j d e hij hd he
    simp only [State.hotkey, hh] at hd he
    exact defaultHotkeys_apart i j hij d hd e he
  roles := by
    intro l j n r _ hr hl
    rw [hc] at hl ⊢
    subst hl
    simp [LineConfig.reset] at hr
  held := by simp [hkeys]
  keyQueues n := (hports n).1
  pointerQueues n := (hports n).2
  sendQueues := hlinks
  requests := hsup.1
  replies := hsup.2.1
  notices := hsup.2.2

theorem reset_sound : Sound State.reset :=
  sound_of_resetTables rfl rfl rfl rfl (fun l => by simp [State.line, State.reset, Line.reset]) rfl
    (fun n => by simp [State.port, State.reset, Port.reset, Port.bounded])
    (fun k => by simp [State.link, State.reset, Link.reset])
    (by simp [State.reset, Supervisor.reset, Supervisor.bounded])

/-! ### The device reset -/

theorem deviceReset_sound (c : DeviceResetCause) (s : State) : Sound (deviceReset c s) :=
  sound_of_resetTables rfl rfl rfl rfl (fun l => by simp [State.line, deviceReset, lineAfterReset, Line.reset]) rfl
    (fun n => by simp [State.port, deviceReset, State.reset, Port.reset, Port.bounded])
    (fun k => by simp [State.link, deviceReset, Link.reset])
    (by simp [deviceReset, Supervisor.reset, Supervisor.bounded])

/-! ### The warm reset -/

theorem sendEnds_keeps {k : LinkId} (h : Keeps s t) : Keeps s (sendEnds t k) := by
  have h1 : Keeps s (if (t.link k).outbound = .none then t else sendFrame k (.endSession .owner .reset) t) :=
    ite_keeps h (sendFrame_keeps h)
  exact ite_keeps (ite_keeps h1 (sendFrame_keeps h1)) h

theorem resetSessions_keeps (h : Keeps s t) : Keeps s (resetSessions t) :=
  foldl_keeps (fun u _ => inEnd_keeps (outEnd_keeps (.refl u))) _
    ((foldl_keeps (fun u _ => sendEnds_keeps (.refl u)) _ h).of_same rfl)

theorem resetVideo_keeps (h : Keeps s t) : Keeps s (resetVideo t) :=
  foldl_keeps (fun u _ => modOut_keeps (.refl u)) _ (h.of_same rfl)

/-- The lines as the pulses leave them, each with its reset configuration (R184, steps 2 and 3). -/
def linesCleared (s : State) : State :=
  { s with wake := Vector.replicate 8 WakeRecord.reset, lines := s.lines.map warmLine }

@[simp] theorem linesCleared_line (s : State) (l : LineId) : (linesCleared s).line l = warmLine (s.line l) := by
  simp [State.line, linesCleared]

theorem linesCleared_link (s : State) (k : LinkId) : (linesCleared s).link k = s.link k := rfl

theorem linesCleared_sup (s : State) : (linesCleared s).sup = s.sup := rfl

theorem resetLines_eq (s : State) :
    resetLines s = allLines.foldl restartFilter (linesCleared (allComps.foldl endPulseOf s)) := rfl

theorem endPulses_keeps (h : Keeps s t) : Keeps s (allComps.foldl endPulseOf t) :=
  foldl_keeps (fun u _ => endPulse_keeps (.refl u)) _ h

theorem restartFilters_keeps (s : State) : Keeps s (allLines.foldl restartFilter s) :=
  foldl_keeps (fun u _ => refilter_keeps (.refl u)) _ (.refl s)

/-- After the line controller's warm reset no line has a role. -/
theorem resetLines_cleared (s : State) (l : LineId) : ((resetLines s).line l).config = LineConfig.reset := by
  rw [resetLines_eq, (restartFilters_keeps _).configs, linesCleared_line]
  rfl

theorem resetLines_sendQueues (h : Keeps s t) (hs : ∀ k, (s.link k).sendQueue.length ≤ 32) :
    ∀ k, ((resetLines t).link k).sendQueue.length ≤ 32 := by
  have he := (endPulses_keeps h).sendQueues hs
  rw [resetLines_eq]
  exact (restartFilters_keeps _).sendQueues fun k => by rw [linesCleared_link]; exact he k

theorem resetLines_sup (h : Keeps s t) (hs : Supervisor.bounded s.sup) : Supervisor.bounded (resetLines t).sup := by
  have he := (endPulses_keeps h).sup hs
  rw [resetLines_eq]
  exact (restartFilters_keeps _).sup (by rw [linesCleared_sup]; exact he)

theorem resetDeskSide_sound (hc : ∀ l, (s.line l).config = LineConfig.reset)
    (hq : ∀ k, (s.link k).sendQueue.length ≤ 32) (hsup : Supervisor.bounded s.sup) : Sound (resetDeskSide s) :=
  sound_of_resetTables rfl rfl rfl rfl hc rfl
    (fun n => by simp [State.port, resetDeskSide, warmPort, Port.reset, Port.bounded]) hq hsup

theorem warmLinks_keeps (s : State) : Keeps s (checkLights (allLinks.foldl warmAlive (allLinks.foldl warmLink s))) :=
  checkLights_keeps (foldl_keeps (fun u _ => sendAlive_keeps (.refl u)) _
    (foldl_keeps (fun u _ => modLink_keeps (.refl u) (by exact fun _ hl => hl)) _ (.refl s)))

theorem warmReset_lock (s : State) : (warmReset s).lock = ⟨0, false⟩ := by
  unfold warmReset
  dsimp only
  rw [(warmLinks_keeps _).lock]
  rfl

theorem supReplaced_sound (h : Sound s) {p : Supervisor} (hp : Supervisor.bounded p) : Sound { s with sup := p } :=
  { h with requests := hp.1, replies := hp.2.1, notices := hp.2.2 }

theorem warmReset_sound (hs : Sound s) : Sound (warmReset s) := by
  have hk : Keeps s (resetVideo (resetSessions s)) := resetVideo_keeps (resetSessions_keeps (.refl s))
  have hd : Sound (resetDeskSide (resetLines (resetVideo (resetSessions s)))) :=
    resetDeskSide_sound (resetLines_cleared _) (resetLines_sendQueues hk hs.sendQueues)
      (resetLines_sup hk ⟨hs.requests, hs.replies, hs.notices⟩)
  exact supReplaced_sound ((warmLinks_keeps _).sound hd) (by simp [warmSup, Supervisor.reset, Supervisor.bounded])

/-! ### Every step -/

theorem exec_sound {c : Instr} (hs : Sound s) (h : exec c s = .next t) : Sound t := by
  by_cases hd : ∃ x, c = .deviceReset x
  · obtain ⟨x, rfl⟩ := hd
    exact (done_keeps (.refl _) h).sound (deviceReset_sound x s)
  · by_cases hw : c = .warmReset
    · subst hw
      refine (done_keeps (.refl _) h).sound ?_
      split
      · exact warmReset_sound hs
      · exact hs
    · exact (exec_respects (fun x e => hd ⟨x, e⟩) hw h).sound hs

theorem step_sound (hs : Sound s) (h : step s = .next t) : Sound t := by
  unfold step at h
  split at h
  · exact exec_sound (Keeps.sound ((Keeps.refl s).of_same rfl) hs) h
  · split at h
    · exact exec_sound hs h
    · obtain rfl : tick s = t := by injection h
      exact Keeps.sound ((Keeps.refl s).of_same rfl) hs

end Sys2Proof.Machine
end

section
/-! The statements about the whole invariant (O59, O60) and about the configuration lock (O15, O14). -/

open Sys2Proof Sys2Proof.Machine

/-- Settles O59: every command is gone through once (`exec_respects`), and both resets lead to valid reset values. -/
theorem everyStepKeepsThePartSound : Obligations.EveryStepKeepsThePartSound := fun _ _ hs h => step_sound hs h

/-- Settles O60. -/
theorem resetIsSound : Obligations.ResetIsSound := by
  refine ⟨reset_sound, rfl, by decide, fun b hb => ?_⟩
  obtain rfl : ⟨0, 0, 0, 1920, 1080⟩ = b := by simpa [tileOf, State.reset, defaultLayout] using hb
  decide

/-- Settles O15: what `FrozenKept` says of every command, its packed settings written out. -/
theorem frozenFieldsKeepTheirValues : Obligations.FrozenFieldsKeepTheirValues := by
  intro c s t hd hw h
  obtain ⟨hlock, hlevel, hfirst, hsecond, hthird⟩ := (exec_respects hd hw h).frozen
  refine ⟨hlock, hlevel, hfirst, fun hl => ?_, hthird⟩
  simpa only [Matcher.windows, BlankUnit.settings, Prod.mk.injEq, and_assoc] using hsecond hl

/-- Settles O14: the request by its branches, the resets by their values, every other command by `exec_respects`. -/
theorem lockAcceptedOnce : Obligations.LockAcceptedOnce := by
  refine ⟨fun tag b s ht => ?_, rfl, fun cause s => ⟨_, rfl, rfl⟩, warmReset_lock, fun c s t hd hw h => ?_,
    fun tag s ht hl => ?_⟩
  · split
    next hb => exact exec_request _ judgeSetLock s ht _ _ _ (by simp [judgeSetLock, setLock, refuse, hb])
    next hb =>
      split
      next hu => exact exec_request _ judgeSetLock s ht _ _ _ (by simp [judgeSetLock, setLock, refuse, hb, hu])
      next hu => exact exec_request _ judgeSetLock s ht _ _ _ (by
        simp [judgeSetLock, setLock, okay, hb, hu]
        rfl)
  · obtain ⟨hlock, hlevel, -⟩ := (exec_respects hd hw h).frozen
    exact ⟨hlock, hlevel⟩
  · refine ⟨_, _, _, exec_request ⟨0x01, tag, []⟩ judgeGetStatus s ht _ _ _ rfl, ?_, rfl⟩
    simp
    omega

end

section
/-!
SUPPORT. What the bytes of a request name (R197): when a reader answers none, and that each reader gives back the value
whose bytes it reads.
-/

namespace Sys2Proof.Machine

open Sys2Proof

variable {b : Byte}

theorem byte_eq_zero_iff : b = 0 ↔ b.toNat = 0 := by simp [← BitVec.toNat_inj]

/-! ### Numbers -/

theorem num2_byte2 {n : Nat} (h : n ≤ 65535) : num2 (BitVec.ofNat 8 (n / 256)) (BitVec.ofNat 8 n) = n := by
  simp only [num2, BitVec.toNat_ofNat]
  omega

/-! ### Identities -/

theorem compOf_eq_none : compOf b = none ↔ b = 0 ∨ 8 < b.toNat := by
  rw [byte_eq_zero_iff]
  simp only [compOf, dite_eq_right_iff, reduceCtorEq, imp_false]
  omega

theorem compOf_eq_some {n : Comp} (h : b.toNat = n.val + 1) : compOf b = some n := by
  simp only [compOf, h]
  rw [dif_pos (by omega)]
  simp

theorem outputOf_eq_none : outputOf b = none ↔ b = 0 ∨ 6 < b.toNat := by
  rw [byte_eq_zero_iff]
  simp only [outputOf, dite_eq_right_iff, reduceCtorEq, imp_false]
  omega

theorem outputOf_eq_some {o : OutputId} (h : b.toNat = o.val + 1) : outputOf b = some o := by
  simp only [outputOf, h]
  rw [dif_pos (by omega)]
  simp

/-! ### Flags -/

theorem flagOf_eq_none : flagOf b = none ↔ 1 < b.toNat := by
  unfold flagOf
  split
  next h => simp [h]
  next h => simp [h]
  next h0 h1 => exact ⟨fun _ => Nat.lt_of_le_of_ne (Nat.pos_of_ne_zero h0) (Ne.symm h1), fun _ => rfl⟩

theorem flagOf_eq_some (h : ¬ 1 < b.toNat) : flagOf b = some (b == 1) := by
  obtain h | h : b = 0 ∨ b = 1 := by simp only [← BitVec.toNat_inj]; simp; omega
  · rw [h]; rfl
  · rw [h]; rfl

/-! ### What a request answers -/

/-- A request answered OK, once its judgement is known. -/
theorem answered_ok {r : Request} {judge : List Byte → State → Judged} {s u : State} (ht : takesTurn r s)
    (hj : judge r.body (begun r s) = okay u) {P : State → Prop} (hp : P u) :
    ∃ u, done (runRequest r judge s) = .next (replied r .ok [] u) ∧ P u :=
  ⟨u, exec_request r judge s ht _ _ _ hj, hp⟩

theorem frozen_iff {n : Nat} {s : State} : frozen n s = true ↔ n ≤ s.lock.level := by simp [frozen]

theorem frozen_bne_iff {α : Type} [BEq α] [LawfulBEq α] {n : Nat} {s : State} {x y : α} :
    (frozen n s && x != y) = true ↔ n ≤ s.lock.level ∧ x ≠ y := by
  rw [Bool.and_eq_true, frozen_iff, bne_iff_ne]

@[simp] theorem begun_frozen (r : Request) (s : State) (n : Nat) : frozen n (begun r s) = frozen n s := rfl

/-! ### The clamped settings -/

variable {s : State}

theorem judgeSetPort_of_comp {x : Byte} {n : Comp} (h : compOf b = some n) :
    judgeSetPort [b, x] s = okay (s.modPort n fun p => { p with flow := clampTo 1 16 x.toNat }) := by
  simp only [judgeSetPort, h]

theorem judgeSetPort_of_none {x : Byte} (h : compOf b = none) : judgeSetPort [b, x] s = refuse .badArg s := by
  simp only [judgeSetPort, h]

theorem judgeSetOutput_of_output {r1 r0 l1 l0 t1 t0 : Byte} {o : OutputId} (h : outputOf b = some o) :
    judgeSetOutput [b, r1, r0, l1, l0, t1, t0] s = okay (s.modOut o fun r =>
      { r with
        restTime := clampTo 20 2000 (num2 r1 r0)
        blankLead := clampTo 0 200 (num2 l1 l0)
        lockTimeout := clampTo 100 5000 (num2 t1 t0) }) := by
  simp only [judgeSetOutput, h]

theorem judgeSetOutput_of_none {r1 r0 l1 l0 t1 t0 : Byte} (h : outputOf b = none) :
    judgeSetOutput [b, r1, r0, l1, l0, t1, t0] s = refuse .badArg s := by
  simp only [judgeSetOutput, h]

theorem judgeSetBlank_of_none {h1 h0 x : Byte} (h : 1 < b.toNat ∨ 1 < x.toNat) :
    judgeSetBlank [b, h1, h0, x] s = refuse .badArg s := by
  simp only [judgeSetBlank]
  obtain h | h := h
  · rw [flagOf_eq_none.mpr h]
  · rw [flagOf_eq_none.mpr h]
    split
    next he => cases he
    · rfl

end Sys2Proof.Machine
end

section
/-! The settings that are clamped (O35). -/

open Sys2Proof Sys2Proof.Machine

/-- Settles O35: each request by the reader of its operand and the branches of its judgement. -/
theorem clampedSettingsWritten : Obligations.ClampedSettingsWritten := by
  intro tag b a1 a0 c1 c0 d1 d0 s
  refine ⟨?_, ?_, ?_, ?_, ?_⟩
  · intro r ht
    exact exec_request r judgeSetPointer s ht _ _ _ (by simp [r, judgeSetPointer, okay, clampTo]; rfl)
  · intro r ht
    exact ⟨fun hb => exec_request r judgeSetPort s ht _ _ _ (judgeSetPort_of_none (compOf_eq_none.mpr hb)),
      fun n hn => answered_ok ht (judgeSetPort_of_comp (compOf_eq_some hn))
        ⟨State.modPort_port_same .., fun m hm => State.modPort_port_ne _ _ _ _ hm, rfl⟩⟩
  · intro r ht
    exact ⟨fun hb => exec_request r judgeSetOutput s ht _ _ _ (judgeSetOutput_of_none (outputOf_eq_none.mpr hb)),
      fun o ho => answered_ok ht (judgeSetOutput_of_output (outputOf_eq_some ho))
        ⟨by simp [clampTo], fun m hm => State.modOut_out_ne _ _ _ _ hm, rfl⟩⟩
  · intro r x y ht
    split
    next hl =>
      refine exec_request r judgeSetHotkeyTiming s ht _ _ _ (if_pos ?_)
      simpa [frozen_iff, clampTo, x, y] using hl
    next hl =>
      refine exec_request r judgeSetHotkeyTiming s ht _ _ _ (if_neg ?_)
      simpa [frozen_iff, clampTo, x, y] using hl
  · intro r hold new ht
    split
    next hb => exact exec_request r judgeSetBlank s ht _ _ _ (judgeSetBlank_of_none hb)
    next hb =>
      obtain ⟨ha, hc⟩ := not_or.mp hb
      have hj : judgeSetBlank r.body (begun r s) =
          if frozen 2 (begun r s) && new != s.blank then refuse .locked (begun r s)
          else okayWith (blankSettings new) ((begun r s).modBlank fun _ => new) := by
        simp [judgeSetBlank, r, new, hold, flagOf_eq_some ha, flagOf_eq_some hc, clampTo]
      split
      next hl =>
        exact exec_request r judgeSetBlank s ht _ _ _ (hj.trans (if_pos (frozen_bne_iff.mpr hl)))
      next hl =>
        exact exec_request r judgeSetBlank s ht _ _ _ (hj.trans (if_neg (frozen_bne_iff.not.mpr hl)))

end

section
/-!
SUPPORT. MODE frames (R12, R145), the head maps and the desk settings.
-/

namespace Sys2Proof.Machine

open Sys2Proof

variable {s t u : State}

/-! ### What is done to each link in turn -/

theorem LinkId.zero_or_one (k : LinkId) : k = 0 ∨ k = 1 := by revert k; decide

/-- Each link is changed by its own function, and nothing else is. -/
def linksChanged (g : LinkId → Link → Link) (s u : State) : Prop :=
  (∀ k, u.link k = g k (s.link k)) ∧ u = { s with links := u.links }

/-- A step that changes one link, taken for both. -/
theorem allLinks_foldl {f : State → LinkId → State} {g : LinkId → Link → Link}
    (hf : ∀ u k, u = { s with links := u.links } → f u k = u.modLink k (g k)) : linksChanged g s (allLinks.foldl f s) := by
  have he : allLinks.foldl f s = (s.modLink 0 (g 0)).modLink 1 (g 1) := by
    simp only [allLinks, List.foldl_cons, List.foldl_nil]
    rw [hf s 0 rfl, hf (s.modLink 0 (g 0)) 1 rfl]
  rw [he]
  refine ⟨fun k => ?_, rfl⟩
  obtain rfl | rfl := LinkId.zero_or_one k
  · simp [State.modLink_link]
  · simp [State.modLink_link]

theorem modLink_self (s : State) (k : LinkId) (f : Link → Link) (h : f (s.link k) = s.link k) : s.modLink k f = s := by
  unfold State.modLink
  rw [upd_self _ _ _ h]

/-- A frame formed on the links that a condition picks. -/
theorem modLink_ite {k : LinkId} {c : Link → Prop} [DecidablePred c] {f : Link → Link} :
    (s.modLink k fun l => if c l then f l else l) = if c (s.link k) then s.modLink k f else s := by
  split
  next h => simp only [State.modLink, upd]; rw [show pick s.links k = s.link k from rfl, if_pos h]
  next h => exact modLink_self _ _ _ (if_neg h)

/-! ### MODE frames -/

/-- The link, with a MODE frame formed on it when the session it owns is ACTIVE on head `h`. -/
def modeFormedFor (s : State) (h : Head) (l : Link) : Link :=
  if Outbound.activeHead l.outbound = some h then enqueueFrame (.mode (sentMode s h) (effMode s h.comp)) l else l

theorem sendModes_changed (h : Head) (s : State) :
    linksChanged (fun _ => modeFormedFor s h) s (allLinks.foldl (sendModeFor h) s) := by
  refine allLinks_foldl fun u k hu => ?_
  have hm : sentMode u h = sentMode s h ∧ effMode u h.comp = effMode s h.comp := by rw [hu]; exact ⟨rfl, rfl⟩
  refine Eq.trans ?_ modLink_ite.symm
  rw [sendModeFor, hm.1, hm.2]
  rfl

/-! ### The head map and the desk settings -/

theorem compOf_byte (n : Comp) : compOf (BitVec.ofNat 8 (n.val + 1)) = some n :=
  compOf_eq_some (by rw [BitVec.toNat_ofNat]; omega)

theorem flagOf_byte (e : Bool) : flagOf (if e then 1 else 0) = some e := by cases e <;> rfl

theorem headMapOf_bytes {e : Bool} {ox oy w h : Nat} (hx : ox ≤ 65535) (hy : oy ≤ 65535) (hw : w ≤ 65535) (hh : h ≤ 65535) :
    headMapOf (if e then 1 else 0) (BitVec.ofNat 8 (ox / 256)) (BitVec.ofNat 8 ox) (BitVec.ofNat 8 (oy / 256))
      (BitVec.ofNat 8 oy) (BitVec.ofNat 8 (w / 256)) (BitVec.ofNat 8 w) (BitVec.ofNat 8 (h / 256)) (BitVec.ofNat 8 h) =
      if ox ≤ 16383 ∧ oy ≤ 16383 ∧ 1 ≤ w ∧ w ≤ 8192 ∧ 1 ≤ h ∧ h ≤ 8192 then some ⟨e, ox, oy, w, h⟩ else none := by
  simp only [headMapOf, flagOf_byte, num2_byte2 hx, num2_byte2 hy, num2_byte2 hw, num2_byte2 hh, Config.headSizeMax]

/-- What SET_HEAD makes of the bytes of a head and its map. -/
theorem judgeSetHead_bytes {x : Head} {e : Bool} {ox oy w h : Nat} (hx : ox ≤ 65535) (hy : oy ≤ 65535) (hw : w ≤ 65535)
    (hh : h ≤ 65535) :
    judgeSetHead (headBytes x ++ flag e ++ byte2 ox ++ byte2 oy ++ byte2 w ++ byte2 h) s =
      if ox ≤ 16383 ∧ oy ≤ 16383 ∧ 1 ≤ w ∧ w ≤ 8192 ∧ 1 ≤ h ∧ h ≤ 8192 then setHead x ⟨e, ox, oy, w, h⟩ s
      else refuse .badArg s := by
  obtain ⟨n, l⟩ := x
  have hl : letterByte l = [if l = .a then 0 else 1] := by cases l <;> rfl
  have ho : letterOf (if l = .a then 0 else 1) = some l := by cases l <;> rfl
  simp only [headBytes, compByte, byte1, byte2, flag, hl, List.cons_append, List.nil_append, judgeSetHead, compOf_byte, ho,
    headMapOf_bytes hx hy hw hh]
  by_cases hr : ox ≤ 16383 ∧ oy ≤ 16383 ∧ 1 ≤ w ∧ w ≤ 8192 ∧ 1 ≤ h ∧ h ≤ 8192
  · simp only [if_pos hr]
  · simp only [if_neg hr]

theorem letterOf_eq_none {b : Byte} (h : 1 < b.toNat) : letterOf b = none := by
  unfold letterOf
  split
  next h0 => omega
  next h1 => omega
  · rfl

theorem judgeSetHead_of_none {n l e x1 x0 y1 y0 w1 w0 h1 h0 : Byte}
    (h : compOf n = none ∨ letterOf l = none ∨ flagOf e = none) :
    judgeSetHead [n, l, e, x1, x0, y1, y0, w1, w0, h1, h0] s = refuse .badArg s := by
  simp only [judgeSetHead]
  split
  next hn hl hm =>
    obtain h | h | h := h
    · simp [h] at hn
    · simp [h] at hl
    · simp [headMapOf, h] at hm
  · rfl

/-- What a written head map sets moving: a MODE frame on each link whose session stands on the head, when the head's
effective size has changed. -/
theorem setHead_written {x : Head} {m : HeadMap} (h : ¬ (3 ≤ s.lock.level ∧ s.headMap x ≠ m)) :
    ∃ u, setHead x m s = okay u ∧ u.headMap x = m ∧ (∀ g, g ≠ x → u.headMap g = s.headMap g) ∧
      (∀ k, u.link k =
        if Outbound.activeHead (s.link k).outbound = some x ∧ effSize u x ≠ effSize s x then
          enqueueFrame (.mode (sentMode u x) (effMode s x.comp)) (s.link k)
        else s.link k) ∧
      u = { s with heads := u.heads, links := u.links } := by
  have hs : setHead x m s = okay (if effSize (s.setHeadMap x m) x = effSize s x then s.setHeadMap x m
      else allLinks.foldl (sendModeFor x) (s.setHeadMap x m)) :=
    if_neg fun hf => h (frozen_bne_iff.mp hf |>.imp_right Ne.symm)
  have hx : (s.setHeadMap x m).headMap x = m := State.setHeadMap_headMap_same ..
  have hg : ∀ g, g ≠ x → (s.setHeadMap x m).headMap g = s.headMap g := fun g hg => State.setHeadMap_headMap_ne _ _ _ _ hg
  by_cases he : effSize (s.setHeadMap x m) x = effSize s x
  · refine ⟨_, hs.trans (by rw [if_pos he]), hx, hg, fun k => ?_, rfl⟩
    rw [if_neg fun hk => hk.2 he]
    rfl
  · obtain ⟨hl, hu⟩ := sendModes_changed x (s.setHeadMap x m)
    refine ⟨_, hs.trans (by rw [if_neg he]), ?_, fun g hne => ?_, fun k => ?_, ?_⟩
    · rw [hu]; exact hx
    · rw [hu]; exact hg g hne
    · have hsz : effSize (allLinks.foldl (sendModeFor x) (s.setHeadMap x m)) x = effSize (s.setHeadMap x m) x := by
        rw [hu]; rfl
      have hsm : sentMode (allLinks.foldl (sendModeFor x) (s.setHeadMap x m)) x = sentMode (s.setHeadMap x m) x := by
        rw [hu]; rfl
      rw [hl, hsz, hsm]
      simp only [modeFormedFor, ne_eq, he, not_false_eq_true, and_true]
      rfl
    · rw [hu]; rfl

theorem zoneSetOf_of_not {b : Byte} (h : b = 0 ∨ 15 < b.toNat) : zoneSetOf b = none :=
  if_neg (by obtain rfl | h := h <;> simp; omega)

theorem crossingOf_eq_none {b : Byte} (h : 1 < b.toNat) : crossingOf b = none := by
  unfold crossingOf
  split
  next h0 => omega
  next h1 => omega
  · rfl

theorem crossingOf_eq_some {b : Byte} (h : ¬ 1 < b.toNat) : crossingOf b = some (if b = 0 then .free else .block) := by
  obtain h | h : b = 0 ∨ b = 1 := by simp only [← BitVec.toNat_inj]; simp; omega
  · rw [h]; rfl
  · rw [h]; rfl

theorem judgeSetDesk_of_none {z c : Byte} (h : zoneSetOf z = none ∨ crossingOf c = none) :
    judgeSetDesk [z, c] s = refuse .badArg s := by
  simp only [judgeSetDesk]
  split
  next hz hc =>
    obtain h | h := h
    · simp [h] at hz
    · simp [h] at hc
  · rfl

theorem judgeSetDesk_bytes {z c : Byte} (hz : ¬ (z = 0 ∨ 15 < z.toNat)) (hc : ¬ 1 < c.toNat) :
    judgeSetDesk [z, c] s =
      (let d : DeskSettings := ⟨z.setWidth 4, if c = 0 then .free else .block⟩
       if frozen 1 s && d != s.desk then refuse .locked s else okay (s.setDesk d)) := by
  have hr : zoneSetOf z = some (z.setWidth 4) := if_pos (by obtain ⟨h0, h1⟩ := not_or.mp hz; exact ⟨by omega, h0⟩)
  simp only [judgeSetDesk, hr, crossingOf_eq_some hc]

end Sys2Proof.Machine
end

section
/-! The head maps and the desk settings (O17). -/

open Sys2Proof Sys2Proof.Machine

/-- Settles O17: the range of the bytes, then the lock, then the written values with the MODE frames they call for. -/
theorem headMapAndDeskSettingsWritten : Obligations.HeadMapAndDeskSettingsWritten := by
  intro tag s
  refine ⟨?_, ?_, ?_⟩
  · intro x e ox oy w ht hox hoy hw hht r htt
    have hj := judgeSetHead_bytes (s := begun r s) (x := x) (e := e) hox hoy hw hht
    refine ⟨fun ho => exec_request r judgeSetHead s htt _ _ _ (hj.trans (if_neg (by omega))), fun ho => ?_⟩
    have hj := hj.trans (if_pos (by omega))
    refine ⟨fun hl => exec_request r judgeSetHead s htt _ _ _ 
      (hj.trans (if_pos (frozen_bne_iff.mpr (hl.imp_right Ne.symm)))), fun hl => ?_⟩
    · obtain ⟨u, hu, hp⟩ := setHead_written (s := begun r s) hl
      exact answered_ok htt (hj.trans hu) hp
  · intro n l e x1 x0 y1 y0 w1 w0 h1 h0 hb r ht
    refine exec_request r judgeSetHead s ht _ _ _ (judgeSetHead_of_none ?_)
    obtain hb | hb | hb | hb := hb
    · exact .inl (compOf_eq_none.mpr (.inl hb))
    · exact .inl (compOf_eq_none.mpr (.inr hb))
    · exact .inr (.inl (letterOf_eq_none hb))
    · exact .inr (.inr (flagOf_eq_none.mpr hb))
  · intro z c r new ht
    split
    next hb =>
      refine exec_request r judgeSetDesk s ht _ _ _ (judgeSetDesk_of_none ?_)
      obtain hb | hb | hb := hb
      · exact .inl (zoneSetOf_of_not (.inl hb))
      · exact .inl (zoneSetOf_of_not (.inr hb))
      · exact .inr (crossingOf_eq_none hb)
    next hb =>
      have hj := judgeSetDesk_bytes (s := begun r s) (fun h => hb (by tauto)) (fun h => hb (by tauto))
      split
      next hl =>
        exact exec_request r judgeSetDesk s ht _ _ _ (hj.trans (if_pos (frozen_bne_iff.mpr hl)))
      next hl =>
        exact exec_request r judgeSetDesk s ht _ _ _ (hj.trans (if_neg (frozen_bne_iff.not.mpr hl)))

end

section
/-!
SUPPORT. The hotkey table's entries (R79, R80, R83): the bytes of an entry name it again, and which line counters a written
entry clears (R95).
-/

namespace Sys2Proof.Machine

open Sys2Proof

variable {s t u : State} {b : Byte}

/-! ### The bytes of a trigger -/

/-- Each field of the trigger fits in its byte. -/
def Trigger.fits : Trigger → Prop
  | .tap k c => k ≤ 255 ∧ c ≤ 255
  | .chord _ k => k ≤ 255
  | .command k => k ≤ 255
  | .line _ c => c ≤ 255

/-- Each field of the trigger lies in the range that R79 gives it. -/
def Trigger.valid : Trigger → Prop
  | .tap k c => 4 ≤ k ∧ k ≤ 231 ∧ 2 ≤ c ∧ c ≤ 4
  | .chord m k => m ≠ 0 ∧ 4 ≤ k ∧ k ≤ 223
  | .command k => 4 ≤ k ∧ k ≤ 223
  | .line _ c => c = 1 ∨ c = 2 ∨ c = 4 ∨ c = 8

theorem toNat_byte {n : Nat} (h : n ≤ 255) : (BitVec.ofNat 8 n).toNat = n := by
  rw [BitVec.toNat_ofNat]
  omega

theorem lineOf_byte (l : LineId) : lineOf (BitVec.ofNat 8 l.val) = some l := by
  have h := toNat_byte (n := l.val) (by omega)
  simp only [lineOf, h, l.isLt, dite_true]

/-- The three bytes of a trigger, read again. -/
theorem triggerOf_bytes {x : Trigger} (h : Trigger.fits x) :
    ∃ k f1 f2, triggerBytes x = [k, f1, f2] ∧ (Trigger.valid x → triggerOf k f1 f2 = some x) ∧
      (¬ Trigger.valid x → triggerOf k f1 f2 = none) := by
  cases x with
  | tap k c =>
    obtain ⟨hk, hc⟩ := h
    refine ⟨1, BitVec.ofNat 8 k, BitVec.ofNat 8 c, rfl, fun hv => ?_, fun hv => ?_⟩
    · simpa [triggerOf, toNat_byte hk, toNat_byte hc, Trigger.valid] using hv
    · simpa [triggerOf, toNat_byte hk, toNat_byte hc, Trigger.valid] using hv
  | chord m k =>
    have hk : k ≤ 255 := h
    refine ⟨2, m, BitVec.ofNat 8 k, rfl, fun hv => ?_, fun hv => ?_⟩
    · simpa [triggerOf, toNat_byte hk, Trigger.valid] using hv
    · simpa [triggerOf, toNat_byte hk, Trigger.valid] using hv
  | command k =>
    have hk : k ≤ 255 := h
    refine ⟨3, BitVec.ofNat 8 k, 0, rfl, fun hv => ?_, fun hv => ?_⟩
    · simpa [triggerOf, toNat_byte hk, Trigger.valid] using hv
    · simpa [triggerOf, toNat_byte hk, Trigger.valid] using hv
  | line l c =>
    have hc : c ≤ 255 := h
    refine ⟨4, BitVec.ofNat 8 l.val, BitVec.ofNat 8 c, rfl, fun hv => ?_, fun hv => ?_⟩
    · simp only [triggerOf, lineOf_byte, toNat_byte hc]
      exact if_pos hv
    · simpa [triggerOf, lineOf_byte, toNat_byte hc, Trigger.valid] using hv

/-! ### The bytes of an action -/

theorem outputOf_byte (o : OutputId) : outputOf (BitVec.ofNat 8 (o.val + 1)) = some o :=
  outputOf_eq_some (toNat_byte (by omega))

theorem inputOf_byte (i : Input) : inputOf (BitVec.ofNat 8 ((Input.idx i).val + 1)) = some i := by
  cases i with
  | head h =>
    obtain ⟨n, l⟩ := h
    cases l
    · revert n; decide
    · revert n; decide
  | lane k => revert k; decide

theorem targetOf_bytes (x : Target) : ∃ b, targetByte x = [b] ∧ targetOf b = some x := by
  cases x with
  | none => exact ⟨0, rfl, rfl⟩
  | some i =>
    refine ⟨_, rfl, ?_⟩
    rw [targetOf, if_neg, inputOf_byte]
    · rfl
    · rw [byte_eq_zero_iff, toNat_byte (by omega)]
      omega

/-- The three bytes of an action, read again. -/
theorem actionOf_bytes (x : Action) : ∃ a b c, actionBytes x = [a, b, c] ∧ actionOf a b c = some x := by
  cases x with
  | focus n => exact ⟨1, _, 0, rfl, by simp [actionOf, compOf_byte]⟩
  | switch o r =>
    obtain ⟨c, hb, hc⟩ := targetOf_bytes r
    exact ⟨4, _, c, by rw [actionBytes, hb]; rfl, by simp [actionOf, outputOf_byte, hc]⟩
  | recallSlot i =>
    exact ⟨5, _, 0, rfl, by revert i; decide⟩
  | wake n =>
    cases n with
    | none => exact ⟨9, 0, 0, rfl, rfl⟩
    | some n => exact ⟨9, _, 0, rfl, by revert n; decide⟩
  | lead => exact ⟨0, 0, 0, rfl, rfl⟩
  | focusNext => exact ⟨2, 0, 0, rfl, rfl⟩
  | focusPrev => exact ⟨3, 0, 0, rfl, rfl⟩
  | broadcastToggle => exact ⟨6, 0, 0, rfl, rfl⟩
  | blank => exact ⟨7, 0, 0, rfl, rfl⟩
  | resumeBlank => exact ⟨8, 0, 0, rfl, rfl⟩
  | takeBack => exact ⟨10, 0, 0, rfl, rfl⟩
  | grant => exact ⟨11, 0, 0, rfl, rfl⟩
  | claim => exact ⟨12, 0, 0, rfl, rfl⟩
  | release => exact ⟨13, 0, 0, rfl, rfl⟩
  | notify => exact ⟨14, 0, 0, rfl, rfl⟩

/-! ### The bytes of an entry -/

theorem hotkeyIndexOf_eq_some {i : Fin 32} (h : b.toNat = i.val) : hotkeyIndexOf b = some i := by
  simp only [hotkeyIndexOf, h, i.isLt, dite_true]

theorem hotkeyIndexOf_eq_none (h : 31 < b.toNat) : hotkeyIndexOf b = none := dif_neg (by omega)

theorem judgeSetHotkey_bytes {e : HotkeyEntry} {i : Fin 32} (hf : Trigger.fits e.trigger) (hv : Trigger.valid e.trigger)
    (hi : b.toNat = i.val) : judgeSetHotkey (b :: hotkeyBytes (some e)) s = setHotkeyEntry i e s := by
  obtain ⟨k, f1, f2, ht, hread, -⟩ := triggerOf_bytes hf
  obtain ⟨a, x, y, ha, hact⟩ := actionOf_bytes e.action
  simp only [hotkeyBytes, ht, ha, List.cons_append, List.nil_append, judgeSetHotkey, hotkeyIndexOf_eq_some hi, hotkeyEntryOf,
    hread hv, hact]

theorem judgeSetHotkey_of_none {k f1 f2 a x y : Byte}
    (h : 31 < b.toNat ∨ triggerOf k f1 f2 = none ∨ actionOf a x y = none) :
    judgeSetHotkey [b, k, f1, f2, a, x, y] s = refuse .badArg s := by
  simp only [judgeSetHotkey]
  split
  next i e hi he =>
    obtain h | h | h := h
    · simp [hotkeyIndexOf_eq_none h] at hi
    · simp [hotkeyEntryOf, h] at he
    · simp [hotkeyEntryOf, h] at he
  · rfl

theorem judgeSetHotkey_bytes_of_not {e : HotkeyEntry} (hf : Trigger.fits e.trigger)
    (h : 31 < b.toNat ∨ ¬ Trigger.valid e.trigger) :
    judgeSetHotkey (b :: hotkeyBytes (some e)) s = refuse .badArg s := by
  obtain ⟨k, f1, f2, ht, -, hnone⟩ := triggerOf_bytes hf
  obtain ⟨a, x, y, ha, -⟩ := actionOf_bytes e.action
  simp only [hotkeyBytes, ht, ha, List.cons_append, List.nil_append]
  exact judgeSetHotkey_of_none (h.imp_right fun hv => .inl (hnone hv))

/-- A trigger kind or a line that names nothing (R79). -/
theorem triggerOf_eq_none {k f1 f2 : Byte} (h : k = 0 ∨ 4 < k.toNat ∨ (k = 4 ∧ 15 < f1.toNat)) : triggerOf k f1 f2 = none := by
  obtain rfl | h | ⟨rfl, h⟩ := h
  · rfl
  · unfold triggerOf
    dsimp only
    split
    any_goals omega
    rfl
  · have hl : lineOf f1 = none := dif_neg (by omega)
    simp [triggerOf, hl]

theorem targetOf_eq_none (h : 18 < b.toNat) : targetOf b = none := by
  have hn : headOfNumber b = none := dif_neg (by omega)
  have hi : inputOf b = none := by
    unfold inputOf
    split
    next h' => omega
    next h' => omega
    · rw [hn]; rfl
  rw [targetOf, if_neg, hi]
  · rfl
  · rw [byte_eq_zero_iff]
    omega

/-- An action or an argument that names nothing (R80). -/
theorem actionOf_eq_none {a x y : Byte}
    (h : 14 < a.toNat ∨ (a = 1 ∧ (x = 0 ∨ 8 < x.toNat)) ∨ (a = 4 ∧ (x = 0 ∨ 6 < x.toNat ∨ 18 < y.toNat)) ∨
      (a = 5 ∧ 15 < x.toNat) ∨ (a = 9 ∧ 8 < x.toNat)) : actionOf a x y = none := by
  obtain h | ⟨rfl, h⟩ | ⟨rfl, h⟩ | ⟨rfl, h⟩ | ⟨rfl, h⟩ := h
  · unfold actionOf
    split
    any_goals omega
    rfl
  · simp [actionOf, compOf_eq_none.mpr h]
  · obtain h | h | h := h
    · simp [actionOf, outputOf_eq_none.mpr (.inl h)]
    · simp [actionOf, outputOf_eq_none.mpr (.inr h)]
    · simp [actionOf, targetOf_eq_none h]
  · have hs : sceneSlotOf x = none := dif_neg (by omega)
    simp [actionOf, hs]
  · have hx : x ≠ 0 := by
      rw [Ne, byte_eq_zero_iff]
      omega
    exact (if_neg hx).trans (by rw [compOf_eq_none.mpr (.inr h)]; rfl)

/-! ### The entry that is written -/

/-- The entry, when there is one, counts edges of line `l`. -/
def namesLine (e : Option HotkeyEntry) (l : LineId) : Prop := ∃ d c, e = some d ∧ d.trigger = .line l c

/-- A line that the entry names has its counter at 0 and its window stopped, and every other line keeps both (R95). -/
theorem resetNamed_lineTrigger (e : Option HotkeyEntry) (s : State) (l : LineId) :
    (namesLine e l → (resetNamed e s).lineTrigger l = ⟨0, none⟩) ∧
      (¬ namesLine e l → (resetNamed e s).lineTrigger l = s.lineTrigger l) := by
  unfold resetNamed
  split
  next j c a =>
    refine ⟨fun ⟨d, c', hd, hl⟩ => ?_, fun hn => State.setLineTrigger_lineTrigger_ne _ _ _ _ fun hj => hn ?_⟩
    · obtain rfl : ⟨.line j c, a⟩ = d := by injection hd
      obtain rfl : j = l := by injection hl
      exact State.setLineTrigger_lineTrigger_same ..
    · exact ⟨_, c, rfl, by rw [hj]⟩
  next hno =>
    refine ⟨fun ⟨⟨x, a⟩, c, hd, hl⟩ => ?_, fun _ => rfl⟩
    exact absurd (hd.trans (by rw [show x = .line l c from hl])) (hno l c a)

theorem resetNamed_eq (e : Option HotkeyEntry) (s : State) :
    resetNamed e s = { s with lineTriggers := (resetNamed e s).lineTriggers } := by
  unfold resetNamed
  split <;> rfl

/-- The table's entry `i` is `x`, and the counters of the lines that the old or the new entry names are cleared. -/
def entryWritten (i : Fin 32) (x : Option HotkeyEntry) (s u : State) : Prop :=
  u.hotkey i = x ∧ (∀ j, j ≠ i → u.hotkey j = s.hotkey j) ∧
    (∀ l, (namesLine (s.hotkey i) l ∨ namesLine x l → u.lineTrigger l = ⟨0, none⟩) ∧
      (¬ (namesLine (s.hotkey i) l ∨ namesLine x l) → u.lineTrigger l = s.lineTrigger l)) ∧
    u = { s with hotkeys := u.hotkeys, lineTriggers := u.lineTriggers }

theorem setHotkey_entryWritten (i : Fin 32) (x : Option HotkeyEntry) (s : State) :
    entryWritten i x s ((resetNamed x (resetNamed (s.hotkey i) s)).setHotkey i x) := by
  refine ⟨State.setHotkey_hotkey_same .., fun j hj => ?_, fun l => ?_, ?_⟩
  · rw [State.setHotkey_hotkey_ne _ _ _ _ hj, resetNamed_hotkey, resetNamed_hotkey]
  · obtain ⟨hx, hx'⟩ := resetNamed_lineTrigger x (resetNamed (s.hotkey i) s) l
    obtain ⟨ho, ho'⟩ := resetNamed_lineTrigger (s.hotkey i) s l
    rw [State.setHotkey_lineTrigger]
    refine ⟨fun h => ?_, fun h => ?_⟩
    · by_cases hn : namesLine x l
      · exact hx hn
      · rw [hx' hn]; exact ho (h.resolve_right hn)
    · obtain ⟨h1, h2⟩ := not_or.mp h
      rw [hx' h2, ho' h1]
  · rw [resetNamed_eq x, resetNamed_eq (s.hotkey i)]
    rfl

/-- Another entry excludes the trigger (R79, R83). -/
def triggerExcluded (i : Fin 32) (x : Trigger) (s : State) : Prop :=
  ∃ j d, j ≠ i ∧ s.hotkey j = some d ∧ (d.trigger = x ∨ (∃ k c c', d.trigger = .tap k c ∧ x = .tap k c') ∨
    ∃ l c c', d.trigger = .line l c ∧ x = .line l c')

theorem any_clash_iff {i : Fin 32} {x : Trigger} :
    (allHotkeys.any fun j => j != i && match s.hotkey j with
      | some d => clash x d.trigger
      | none => false) = true ↔ triggerExcluded i x s := by
  simp only [List.any_eq_true, Bool.and_eq_true, bne_iff_ne, triggerExcluded, ← clash_iff]
  refine exists_congr fun j => ⟨fun ⟨_, hj, h⟩ => ?_, fun ⟨d, hj, hd, h⟩ => ⟨mem_allHotkeys j, hj, ?_⟩⟩
  · split at h
    next d hd => exact ⟨d, hj, hd, clash_symm h⟩
    · cases h
  · rw [hd]
    exact clash_symm h

theorem setHotkeyEntry_excluded {i : Fin 32} {e : HotkeyEntry} (h : triggerExcluded i e.trigger s) :
    setHotkeyEntry i e s = refuse .badArg s := if_pos (any_clash_iff.mpr h)

theorem setHotkeyEntry_apart {i : Fin 32} {e : HotkeyEntry} (h : ¬ triggerExcluded i e.trigger s) :
    setHotkeyEntry i e s =
      if frozen 2 s && s.hotkey i != some e then refuse .locked s
      else okay ((resetNamed (some e) (resetNamed (s.hotkey i) s)).setHotkey i (some e)) :=
  if_neg (any_clash_iff.not.mpr h)

theorem judgeClearHotkey_of_none (h : 31 < b.toNat) : judgeClearHotkey [b] s = refuse .badArg s := by
  simp only [judgeClearHotkey, hotkeyIndexOf_eq_none h]

theorem judgeClearHotkey_of_index {i : Fin 32} (h : b.toNat = i.val) :
    judgeClearHotkey [b] s =
      if frozen 2 s && s.hotkey i != none then refuse .locked s
      else okay ((resetNamed none (resetNamed (s.hotkey i) s)).setHotkey i none) := by
  have hs : (s.hotkey i).isSome = (s.hotkey i != none) := by cases s.hotkey i <;> rfl
  simp only [judgeClearHotkey, hotkeyIndexOf_eq_some h, hs]
  rfl

end Sys2Proof.Machine
end

section
/-! The hotkey table (O36). -/

open Sys2Proof Sys2Proof.Machine

/-- Settles O36: the bytes name an entry or nothing, another entry excludes it or not, and the lock freezes it or not. -/
theorem hotkeyTableWritten : Obligations.HotkeyTableWritten := by
  intro tag b e s valid held named excluded written
  refine ⟨?_, ?_, ?_⟩
  · intro hf r ht
    refine ⟨fun hb => exec_request r judgeSetHotkey s ht _ _ _ ?_, fun i hi hv hx => ?_⟩
    · by_cases hn : 31 < b.toNat ∨ ¬ Trigger.valid e.trigger
      · exact judgeSetHotkey_bytes_of_not hf hn
      · obtain ⟨h1, h2⟩ := not_or.mp hn
        obtain hb | hb | ⟨i, hi, hx⟩ := hb
        · exact absurd hb h1
        · exact absurd hb h2
        · exact (judgeSetHotkey_bytes hf (not_not.mp h2) hi).trans (setHotkeyEntry_excluded hx)
    · have hj := (judgeSetHotkey_bytes (s := begun r s) hf hv hi).trans (setHotkeyEntry_apart hx)
      exact ⟨fun hl => exec_request r judgeSetHotkey s ht _ _ _ (hj.trans (if_pos (frozen_bne_iff.mpr hl))),
        fun hl => answered_ok ht (hj.trans (if_neg (frozen_bne_iff.not.mpr hl)))
          (setHotkey_entryWritten i (some e) (begun r s))⟩
  · intro k f1 f2 a x y ut ua r hb ht
    exact exec_request r judgeSetHotkey s ht _ _ _
      (judgeSetHotkey_of_none (.inr (hb.imp triggerOf_eq_none actionOf_eq_none)))
  · intro r ht
    refine ⟨fun hb => exec_request r judgeClearHotkey s ht _ _ _ (judgeClearHotkey_of_none hb), fun i hi => ?_⟩
    have hj := judgeClearHotkey_of_index (s := begun r s) hi
    exact ⟨fun hl => exec_request r judgeClearHotkey s ht _ _ _ (hj.trans (if_pos (frozen_bne_iff.mpr hl))),
      fun hl => answered_ok ht (hj.trans (if_neg (frozen_bne_iff.not.mpr hl)))
        (setHotkey_entryWritten i none (begun r s))⟩

end

section
/-! The device reset (O12). -/

namespace Sys2Proof.Machine

open Sys2Proof

/-- READY is being sent already, so that the transmitter takes no other frame. -/
theorem exec_deviceReset (c : DeviceResetCause) (s : State) : exec (.deviceReset c) s = .next (deviceReset c s) := by
  have hb : transmitNext (deviceReset c s).sup = (deviceReset c s).sup :=
    transmitNext_busy _ _ rfl
  exact congrArg (fun p => Host.Outcome.next { deviceReset c s with sup := p }) hb

theorem deviceReset_link (c : DeviceResetCause) (s : State) (k : LinkId) : (deviceReset c s).link k = Link.reset s.now :=
  pick_replicate ..

theorem deviceReset_line (c : DeviceResetCause) (s : State) (l : LineId) :
    (deviceReset c s).line l = Line.reset s.now (s.line l).wireLevel (s.line l).wireStrong :=
  pick_map ..

end Sys2Proof.Machine
end

section

open Sys2Proof Sys2Proof.Machine

/-- Settles O12: the state after a device reset, block by block. -/
theorem deviceResetValues : Obligations.DeviceResetValues := by
  intro c s
  refine ⟨_, exec_deviceReset c s, ?_, deviceReset_link c s, deviceReset_line c s, rfl⟩
  cases c
  · rfl
  · rfl

end

section
/-!
SUPPORT. What a request that only reads answers (R197): the fields of what its byte names, or BAD_ARG, in the state as it was.
-/

namespace Sys2Proof.Machine

open Sys2Proof

variable {s : State}

/-- The answer of a readback: OK with the fields, or BAD_ARG where there are none. -/
def readback (r : Request) (fields : Option (List Byte)) (s : State) : State :=
  match fields with
  | some f => replied r .ok f (begun r s)
  | none => replied r .badArg [] (begun r s)

/-- The judgement of a readback of the thing that its byte names. -/
def readsNamed {α : Type} (find : Byte → Option α) (reply : α → State → List Byte) (judge : List Byte → State → Judged) :
    Prop :=
  ∀ b u, judge [b] u = match find b with
    | some x => okayWith (reply x u) u
    | none => refuse .badArg u

theorem readsNamed_answers {α : Type} {find : Byte → Option α} {reply : α → State → List Byte}
    {judge : List Byte → State → Judged} (hj : readsNamed find reply judge) {kind tag b : Byte} {fields : α → List Byte}
    (hf : ∀ x, reply x (begun ⟨kind, tag, [b]⟩ s) = fields x) (ht : takesTurn ⟨kind, tag, [b]⟩ s) :
    done (runRequest ⟨kind, tag, [b]⟩ judge s) = .next (readback ⟨kind, tag, [b]⟩ ((find b).map fields) s) := by
  cases h : find b with
  | none => exact exec_request _ judge s ht _ _ _ (by rw [hj, h]; rfl)
  | some x => exact exec_request _ judge s ht _ _ _ (by rw [hj, h, ← hf x]; rfl)

theorem judgeGetComputer_reads : readsNamed compOf compReply judgeGetComputer := by
  intro b u
  simp only [judgeGetComputer]
  cases compOf b <;> rfl

theorem judgeGetPort_reads : readsNamed compOf portReply judgeGetPort := by
  intro b u
  simp only [judgeGetPort]
  cases compOf b <;> rfl

theorem judgeGetHotkey_reads : readsNamed hotkeyIndexOf hotkeyReply judgeGetHotkey := by
  intro b u
  simp only [judgeGetHotkey]
  cases hotkeyIndexOf b <;> rfl

theorem judgeGetOutput_reads : readsNamed outputOf outputReply judgeGetOutput := by
  intro b u
  simp only [judgeGetOutput]
  cases outputOf b <;> rfl

theorem judgeGetHead_reads : readsNamed inputOf headReply judgeGetHead := by
  intro b u
  simp only [judgeGetHead]
  cases inputOf b <;> rfl

theorem judgeGetLink_reads : readsNamed linkOf linkReply judgeGetLink := by
  intro b u
  simp only [judgeGetLink]
  cases linkOf b <;> rfl

theorem judgeGetControl_reads : readsNamed compOf controlReply judgeGetControl := by
  intro b u
  simp only [judgeGetControl]
  cases compOf b <;> rfl

theorem judgeGetPower_reads : readsNamed compOf powerReply judgeGetPower := by
  intro b u
  simp only [judgeGetPower]
  cases compOf b <;> rfl

/-- The bytes of an effective pointer mode (R4). -/
theorem pointerModeByte_effMode (s : State) (n : Comp) :
    pointerModeByte (effMode s n) =
      if (s.comp n).pointerMode = .relative ∨ (s.port n).pointerFormat = .boot then [1] else [0] := by
  unfold effMode
  split
  · rfl
  · rfl

theorem poweredBytes_eq (p : Powered) :
    poweredBytes p = match p with
      | .powered => [1, 0]
      | .unpowered => [1, 1]
      | .unknown => [0, 0] := by
  cases p <;> rfl

/-! ### The fields that stand in some states only -/

/-- The time to a deadline, where there is one. -/
def timeLeft (s : State) (t : Option Nat) : List Byte := optional 4 timeBytes (t.map (· - s.now))

/-- The time since a moment, where there is one. -/
def timeSince (s : State) (t : Option Nat) : List Byte := optional 4 timeBytes (t.map (s.now - ·))

/-- The state of an output: the target and the end of BLANKING, the deadline and the start of LOCKING (R116). -/
def outputStateFields (s : State) : OutputState → List Byte
  | .blanking x e => 1 :: targetByte x ++ timeLeft s (some e) ++ timeLeft s none ++ timeLeft s none
  | .locking d st => [0, 0] ++ timeLeft s none ++ timeLeft s (some d) ++ timeSince s st
  | _ => [0, 0] ++ timeLeft s none ++ timeLeft s none ++ timeLeft s none

theorem outputReply_fields (o : OutputId) (s : State) :
    outputReply o s =
      targetByte (s.out o).assignment ++ outputStateByte (s.out o).state ++ pictureByte (presented s o) ++
        optional 1 targetByte (s.out o).pendingSlot ++ outputStateFields s (s.out o).state ++
        timeSince s (s.out o).lastStart ++ byte2 (s.out o).restTime ++ byte1 (s.out o).blankLead ++
        byte2 (s.out o).lockTimeout := by
  simp only [outputReply]
  cases (s.out o).state with
  | blanking x e => simp [outputStateFields, timeLeft, timeSince, optional]
  | locking d st => simp [outputStateFields, timeLeft, timeSince, optional]
  | dark => simp [outputStateFields, timeLeft, timeSince, optional]
  | showing => simp [outputStateFields, timeLeft, timeSince, optional]
  | noSignal => simp [outputStateFields, timeLeft, timeSince, optional]

theorem pictureByte_eq (shown : Bool) : pictureByte shown = if shown then [0] else [1] := by cases shown <;> rfl

/-- The state of the hotkey matcher (R85). -/
def matcherFields (s : State) : MatcherState → List Byte
  | .idle => [0, 0, 0, 0, 0, 0, 0] ++ timeLeft s none ++ timeLeft s none
  | .tapping k t p d => 1 :: (1 :: byte1 k) ++ (1 :: byte1 t) ++ (1 :: flag p) ++ timeLeft s d ++ timeLeft s none
  | .command d => [2, 0, 0, 0, 0, 0, 0] ++ timeLeft s none ++ timeLeft s (some d)

theorem matcherBytes_eq (s : State) (m : MatcherState) : matcherBytes s.now m = matcherFields s m := by
  cases m <;> rfl

/-- The session that a link owns (R149). -/
def outboundFields (s : State) : Outbound → List Byte
  | .none => [0, 0, 0, 0, 0, 0] ++ timeLeft s none
  | .offered h v t => 1 :: (1 :: headBytes h) ++ (1 :: flag v) ++ timeLeft s (some (t + 15000))
  | .active h v => 2 :: (1 :: headBytes h) ++ (1 :: flag v) ++ timeLeft s none

theorem outbound_fields (s : State) (x : Outbound) (rest : List Byte) :
    outboundByte x ++ (optional 2 headBytes ((Outbound.share x).map Prod.fst) ++
      (optional 1 flag ((Outbound.share x).map Prod.snd) ++
        (optional 4 timeBytes ((Outbound.offerTime x).map (offerLeft s)) ++ rest))) = outboundFields s x ++ rest := by
  cases x with
  | none => rfl
  | offered h v t => simp [outboundFields, outboundByte, Outbound.share, Outbound.offerTime, timeLeft, optional]; rfl
  | active h v => simp [outboundFields, outboundByte, Outbound.share, Outbound.offerTime, timeLeft, optional]

/-- The fields of an offer that a link keeps, each with its presence byte (R149). -/
def offerFields (o : Offer) : List Byte :=
  (1 :: headBytes o.head) ++ (1 :: byte2 o.mode.width ++ byte2 o.mode.height ++ byte2 o.mode.refresh) ++
    (1 :: pointerModeByte o.pointerMode) ++ (1 :: byte1 o.zone.val)

/-- The session that a link views (R149). -/
def inboundFields (s : State) : Inbound → List Byte
  | .none => [0] ++ [0, 0, 0] ++ [0, 0, 0, 0, 0, 0, 0] ++ [0, 0] ++ [0, 0] ++ timeLeft s none
  | .offeredIn o t => 1 :: offerFields o ++ timeLeft s (some (t + 15000))
  | .active o => 2 :: offerFields o ++ timeLeft s none

theorem inbound_fields (s : State) (x : Inbound) (rest : List Byte) :
    inboundByte x ++ (optional 2 headBytes ((Inbound.offer x).map Offer.head) ++
      (optional 6 modeBytes ((Inbound.offer x).map Offer.mode) ++
        (optional 1 pointerModeByte ((Inbound.offer x).map Offer.pointerMode) ++
          (optional 1 (fun z : Zone => byte1 z.val) ((Inbound.offer x).map Offer.zone) ++
            (optional 4 timeBytes ((Inbound.offerTime x).map (offerLeft s)) ++ rest))))) = inboundFields s x ++ rest := by
  cases x with
  | none => rfl
  | offeredIn o t =>
    simp [inboundFields, offerFields, inboundByte, Inbound.offer, Inbound.offerTime, modeBytes, timeLeft, optional]; rfl
  | active o =>
    simp [inboundFields, offerFields, inboundByte, Inbound.offer, Inbound.offerTime, modeBytes, timeLeft, optional]

theorem linkReply_fields (k : LinkId) (s : State) :
    linkReply k s =
      flag (s.link k).enabled ++ flag (s.link k).up ++ timeSince s (s.link k).lastValid ++ zoneSetByte (s.link k).peerZones ++
        optional 1 outboundSummaryByte (s.link k).peerOutbound ++ optional 1 flag (s.link k).peerControlToYou ++
        optional 1 inboundSummaryByte (s.link k).peerInbound ++ optional 1 viewerByte (s.link k).peerViewer ++
        outboundFields s (s.link k).outbound ++ inboundFields s (s.link k).inbound ++ viewerByte (s.link k).viewer ++
        linkCountBytes (s.link k).counters := by
  unfold linkReply
  dsimp only
  simp only [List.append_assoc]
  rw [outbound_fields, inbound_fields]
  rfl

/-- The attempt of a wake record (R177). -/
def attemptFields (s : State) (x : Attempt) : List Byte :=
  let flying (f : Flight) : List Byte := 1 :: methodByte f.method ++ timeSince s (some f.start)
  match x with
  | .none => [0, 0, 0] ++ timeSince s none ++ [0, 0, 0, 0] ++ timeLeft s none ++ timeLeft s none ++ [0, 0]
  | .busSignal f e => 1 :: flying f ++ [0, 0, 0, 0] ++ timeLeft s (some e) ++ timeLeft s (some f.deadline) ++ [0, 0]
  | .pulse f l e =>
    2 :: flying f ++ [0, 0] ++ (1 :: byte1 l.val) ++ timeLeft s (some e) ++ timeLeft s (some f.deadline) ++ [0, 0]
  | .wait f w e =>
    3 :: flying f ++ (1 :: waitKindByte w) ++ [0, 0] ++ timeLeft s (some e) ++ timeLeft s (some f.deadline) ++ [0, 0]
  | .failed r => [4, 0, 0] ++ timeSince s none ++ [0, 0, 0, 0] ++ timeLeft s none ++ timeLeft s none ++ (1 :: failureByte r)

theorem attempt_fields (s : State) (x : Attempt) (rest : List Byte) :
    attemptByte x ++ (optional 1 methodByte ((Attempt.flight x).map Flight.method) ++
      (optional 4 timeBytes ((Attempt.flight x).map fun f => s.now - f.start) ++
        (optional 1 waitKindByte (Attempt.waitKind x) ++
          (optional 1 (fun l : LineId => byte1 l.val) (Attempt.pulseLine x) ++
            (optional 4 timeBytes ((Attempt.stageEnd x).map (· - s.now)) ++
              (optional 4 timeBytes ((Attempt.flight x).map fun f => f.deadline - s.now) ++
                (optional 1 failureByte (Attempt.reason x) ++ rest))))))) = attemptFields s x ++ rest := by
  cases x <;>
    simp only [attemptFields, attemptByte, Attempt.flight, Attempt.waitKind, Attempt.pulseLine, Attempt.stageEnd,
      Attempt.reason, timeLeft, timeSince, optional, Option.map_some, Option.map_none, List.append_assoc,
      List.cons_append, List.nil_append] <;>
    rfl

/-- The number of a line that may be none. -/
def lineNumber (l : Option LineId) : List Byte := optional 1 (fun l : LineId => byte1 l.val) l

theorem powerReply_fields (n : Comp) (s : State) :
    powerReply n s =
      busByte (s.port n).bus ++ flag (s.port n).remoteWake ++ flag (s.comp n).autoWake ++ methodByte (s.comp n).method ++
        byte2 (s.comp n).wakeTimeout ++ byte2 (s.comp n).pulseWidth ++ attemptFields s (s.wakeOf n).attempt ++
        lineNumber (wakeLine s n) ++ poweredBytes (s.wakeOf n).powered ++ lineNumber (senseLine s n) := by
  simp only [powerReply, List.append_assoc, attempt_fields, lineNumber]

end Sys2Proof.Machine
end

section
/-! The readbacks (O9). -/

open Sys2Proof Sys2Proof.Machine

/-- Settles O9: the reader of the byte, and the reply of what it names, field by field. -/
theorem readbacksChangeNothing : Obligations.ReadbacksChangeNothing := by
  intro tag b s answer ago left lineNo counts detected showing computer layout pointer focus port hotkey output head link
    control power line
  refine ⟨?_, ?_, ?_, ?_, ?_, ?_, ?_, ?_, ?_, ?_, ?_, ?_⟩
  · refine readsNamed_answers judgeGetComputer_reads fun n => ?_
    show compReply n s = computer n
    simp only [compReply, computer, pointerModeByte_effMode]
  · exact fun ht => exec_request _ judgeGetLayout s ht _ _ _ rfl
  · refine fun ht => exec_request _ judgeGetPointer s ht _ _ _ (congrArg (okayWith · _) ?_)
    show pointerReply s = pointer
    simp only [pointerReply, pointer]
    rcases s.pointer.pressure.edge with _ | ⟨m, e⟩ <;> cases pointerMonitor s <;> rfl
  · exact fun ht => exec_request _ judgeGetFocus s ht _ _ _ rfl
  · refine readsNamed_answers judgeGetPort_reads fun n => ?_
    show portReply n s = port n
    simp [portReply, port, counterBytes, counts, lightBytes, buttonByte]
  · refine readsNamed_answers judgeGetHotkey_reads fun i => ?_
    show hotkeyReply i s = hotkey i
    simp only [hotkeyReply, matcherBytes_eq, List.append_assoc, hotkey]
    simp [counts]
    rfl
  · refine readsNamed_answers judgeGetOutput_reads fun o => ?_
    refine (outputReply_fields o s).trans ?_
    rw [pictureByte_eq]
    rfl
  · refine readsNamed_answers judgeGetHead_reads fun i => ?_
    show headReply i s = head i
    simp only [headReply, head]
    cases i with
    | head h => rfl
    | lane k =>
      simp only [activeOffer]
      cases (s.link k).inbound <;> rfl
  · refine readsNamed_answers judgeGetLink_reads fun k => ?_
    refine (linkReply_fields k s).trans ?_
    rfl
  · refine readsNamed_answers judgeGetControl_reads fun k => ?_
    show controlReply k s = control k
    rfl
  · refine readsNamed_answers judgeGetPower_reads fun n => ?_
    refine (powerReply_fields n s).trans ?_
    rw [poweredBytes_eq]
    rfl
  · refine fun ht => exec_request _ judgeGetLines s ht _ _ _ (congrArg (okayWith · _) ?_)
    refine congrArg (List.flatMap · _) (funext fun l => ?_)
    show lineReply (s.line l) = line l
    simp only [lineReply, line]
    cases (s.line l).config.role <;> rfl

end

section
/-!
SUPPORT. How the links and the capture follow an effective pointer mode (R28, R145), and what a computer tells its port.
-/

namespace Sys2Proof.Machine

open Sys2Proof

variable {s t u : State} {n : Comp}

/-! ### The effective pointer mode -/

theorem effMode_relative : effMode s n = .relative ↔ (s.comp n).pointerMode = .relative ∨ (s.port n).pointerFormat = .boot := by
  unfold effMode
  split
  next h => simp [h]
  next h => simp [h]

/-- The link, with a MODE frame formed on it when the session it owns is ACTIVE on a head of the computer (R145). -/
def modeFormedOf (s : State) (n : Comp) (l : Link) : Link :=
  match Outbound.activeHead l.outbound with
  | some h => if h.comp = n then enqueueFrame (.mode (sentMode s h) (effMode s n)) l else l
  | none => l

theorem sendModesOf_changed (n : Comp) (s : State) :
    linksChanged (fun _ => modeFormedOf s n) s (allLinks.foldl (sendModeOfComp n) s) := by
  refine allLinks_foldl fun u k hu => ?_
  have hm : ∀ h, sentMode u h = sentMode s h ∧ effMode u n = effMode s n := by rw [hu]; exact fun _ => ⟨rfl, rfl⟩
  have hself : modeFormedOf s n (u.link k) = u.link k → u.modLink k (modeFormedOf s n) = u := modLink_self u k _
  unfold sendModeOfComp
  split
  next h hh =>
    split
    next hn =>
      rw [(hm h).1, (hm h).2]
      simp only [sendFrame, State.modLink, upd]
      rw [show modeFormedOf s n (pick u.links k) = enqueueFrame (.mode (sentMode s h) (effMode s n)) (pick u.links k) by
        simp only [modeFormedOf]
        rw [show Outbound.activeHead (pick u.links k).outbound = some h from hh]
        exact if_pos hn]
    next hn =>
      refine (hself ?_).symm
      simp only [modeFormedOf, hh]
      exact if_neg hn
  next hh =>
    refine (hself ?_).symm
    simp only [modeFormedOf, hh]

theorem Port.carry_self {p : Port} (hx : p.cx = 0) (hy : p.cy = 0) : { p with cx := 0, cy := 0 } = p := by
  cases p
  subst hx hy
  rfl

/-- A capture on a computer whose carry is empty ends without more. -/
theorem clearCapture_of_empty (ht : s.focus.target = .loc n) (hx : (s.port n).cx = 0) (hy : (s.port n).cy = 0) :
    clearCapture s = s.modPointer fun p => { p with capture := false } := by
  unfold clearCapture
  split
  · simp only [ht]
    exact modPort_self _ _ _ (Port.carry_self hx hy)
  next hc =>
    have hf : s.pointer.capture = false := by simpa using hc
    simp [State.modPointer, ← hf]

theorem followMode_same (h : effMode t n = effMode s n) : followMode n t s = s := if_pos h

theorem followMode_changed (h : effMode t n ≠ effMode s n) :
    followMode n t s =
      allLinks.foldl (sendModeOfComp n) (if effMode s n = .absolute ∧ s.focus.target = .loc n then clearCapture s else s) :=
  if_neg h

/-! ### Format selections -/

/-- The keyboard format of a port is written, its queue flushed and its last record none (R65). -/
theorem keyFormat_written (n : Comp) (f : Format) (s : State) :
    let u := (flushKeys n s).modPort n fun p => { p with keyFormat := f }
    u.port n = { s.port n with
      keyFormat := f, keyQueue := []
      counters := { (s.port n).counters with
        keyFlushed := min ((s.port n).counters.keyFlushed + (s.port n).keyQueue.length) 4294967295 } } ∧
    (∀ m, m ≠ n → u.port m = s.port m) ∧ u.lastKey n = none ∧ (∀ m, m ≠ n → u.lastKey m = s.lastKey m) ∧
    u = { s with ports := u.ports, router := { s.router with lastKey := u.router.lastKey } } := by
  refine ⟨?_, fun m hm => ?_, ?_, fun m hm => ?_, rfl⟩
  · simp [flushKeys, setLastKey, countBy, Config.countMax]
  · simp [flushKeys, setLastKey, State.modPort_port, hm]
  · exact (setLastKey_lastKey ..).trans (if_pos rfl)
  · exact (setLastKey_lastKey ..).trans (if_neg hm)

/-- The pointer format of a port is written, its queue flushed, its carry and its last record gone (R65). -/
theorem pointerFormat_written (n : Comp) (f : Format) (s : State) :
    let u := (flushPointer n s).modPort n fun p => { p with pointerFormat := f }
    u.port n = { s.port n with
      pointerFormat := f, pointerQueue := [], cx := 0, cy := 0, buttons := 0
      counters := { (s.port n).counters with
        pointerFlushed := min ((s.port n).counters.pointerFlushed + (s.port n).pointerQueue.length) 4294967295 } } ∧
    (∀ m, m ≠ n → u.port m = s.port m) ∧ u.lastPointer n = none ∧ (∀ m, m ≠ n → u.lastPointer m = s.lastPointer m) ∧
    u = { s with ports := u.ports, router := { s.router with lastPointer := u.router.lastPointer } } := by
  refine ⟨?_, fun m hm => ?_, ?_, fun m hm => ?_, rfl⟩
  · simp [flushPointer, setLastPointer, countBy, Config.countMax]
  · simp [flushPointer, setLastPointer, State.modPort_port, hm]
  · exact (setLastPointer_lastPointer ..).trans (if_pos rfl)
  · exact (setLastPointer_lastPointer ..).trans (if_neg hm)

theorem effMode_of_relative (h : (s.comp n).pointerMode = .relative) : effMode s n = .relative :=
  effMode_relative.mpr (.inl h)

theorem effMode_of_absolute (h : (s.comp n).pointerMode = .absolute) :
    effMode s n = if (s.port n).pointerFormat = .boot then .relative else .absolute := by
  simp [effMode, h]

/-- What a changed pointer format sets moving, from the state `u` that it leaves: MODE frames and the end of a capture,
where the computer's own pointer mode is ABSOLUTE (R4, R28, R145). -/
theorem formatFollowed {f : Format} (hf : (s.port n).pointerFormat ≠ f) (hu : (u.port n).pointerFormat = f)
    (hx : (u.port n).cx = 0) (hy : (u.port n).cy = 0)
    (hs : u = { s with ports := u.ports, router := u.router }) :
    (∀ k, (followMode n s u).link k =
      match Outbound.activeHead (s.link k).outbound with
      | some h =>
        if h.comp = n ∧ (s.comp n).pointerMode = .absolute then
          enqueueFrame (.mode (sentMode s h) (if f = .boot then .relative else .absolute)) (s.link k)
        else s.link k
      | none => s.link k) ∧
    (followMode n s u).pointer = { s.pointer with capture :=
      s.pointer.capture && !(f == .full && (s.comp n).pointerMode == .absolute && s.focus.target == .loc n) } ∧
    followMode n s u = { u with pointer := (followMode n s u).pointer, links := (followMode n s u).links } := by
  have hc : ∀ m, u.comp m = s.comp m := by rw [hs]; exact fun _ => rfl
  have hl : ∀ k, u.link k = s.link k := by rw [hs]; exact fun _ => rfl
  have hp : u.pointer = s.pointer := by rw [hs]
  have ht : u.focus = s.focus := by rw [hs]
  cases hm : (s.comp n).pointerMode with
  | relative =>
    rw [followMode_same (by rw [effMode_of_relative hm, effMode_of_relative (by rw [hc, hm])])]
    refine ⟨fun k => ?_, ?_, rfl⟩
    · rw [hl]
      cases Outbound.activeHead (s.link k).outbound <;> simp
    · have hb : (PointerMode.relative == PointerMode.absolute) = false := rfl
      simp [hp, hb]
  | absolute =>
    have hmu : effMode u n = if f = .boot then .relative else .absolute := by
      rw [effMode_of_absolute (by rw [hc, hm]), hu]
    have hne : effMode s n ≠ effMode u n := by
      rw [hmu, effMode_of_absolute hm]
      generalize (s.port n).pointerFormat = g at hf
      cases f <;> cases g <;> simp at hf ⊢
    rw [followMode_changed hne]
    have hca : (if effMode u n = .absolute ∧ u.focus.target = .loc n then clearCapture u else u) =
        u.modPointer fun p => { p with capture := p.capture && !(f == .full && s.focus.target == .loc n) } := by
      by_cases hb : f = .full ∧ s.focus.target = .loc n
      · obtain ⟨rfl, hb⟩ := hb
        rw [if_pos ⟨hmu.trans rfl, ht ▸ hb⟩, clearCapture_of_empty (ht ▸ hb) hx hy]
        simp [hb]
      · rw [if_neg]
        · have hb' : (f == .full && s.focus.target == .loc n) = false := by
            rw [Bool.and_eq_false_iff, beq_eq_false_iff_ne, beq_eq_false_iff_ne]
            exact not_and_or.mp hb
          simp [hb', State.modPointer]
        · rw [hmu, ht]
          cases f
          · exact fun h => hb ⟨rfl, h.2⟩
          · exact fun h => by cases h.1
    rw [hca]
    obtain ⟨hlinks, hrest⟩ := sendModesOf_changed n
      (u.modPointer fun p => { p with capture := p.capture && !(f == .full && s.focus.target == .loc n) })
    refine ⟨fun k => ?_, ?_, ?_⟩
    · have hsm : ∀ g x, sentMode (u.modPointer g) x = sentMode s x := by rw [hs]; exact fun _ _ => rfl
      rw [hlinks, State.modPointer_link, hl]
      simp only [modeFormedOf, hsm]
      cases Outbound.activeHead (s.link k).outbound with
      | none => rfl
      | some x => simp only [and_true]; rw [← hmu]; rfl
    · rw [hrest]
      simp [hp]
    · rw [hrest]
      rfl

/-! ### Light reports -/

/-- The lights that an attached keyboard has been sent are the wanted ones (R57). -/
theorem checkLights_effect (s : State) :
    (checkLights s).keyboard = { s.keyboard with
      lightsSent := if s.keyboard.attached = true then some (wantedLights s) else s.keyboard.lightsSent } ∧
    checkLights s = { s with keyboard := (checkLights s).keyboard } := by
  unfold checkLights
  split
  next h =>
    simp only [Bool.and_eq_true] at h
    exact ⟨by simp [h.1], rfl⟩
  next h =>
    refine ⟨?_, rfl⟩
    split
    next ha =>
      have hl : s.keyboard.lightsSent = some (wantedLights s) := by simpa [ha] using h
      rw [← hl]
    · rfl

theorem lightsChanged_effect (n : Comp) (l : Lights) (s : State) :
    let u := s.modPort n fun p => { p with lights := l }
    (lightsChanged n u).keyboard = { s.keyboard with
      lightsSent :=
        if s.focus.target = .loc n ∧ s.keyboard.attached = true then some l else s.keyboard.lightsSent } ∧
    lightsChanged n u = { u with keyboard := (lightsChanged n u).keyboard } := by
  intro u
  have hf : u.focus.target = s.focus.target := rfl
  by_cases ht : s.focus.target = .loc n
  · have hw : wantedLights u = l := by simp [wantedLights, ht, u]
    obtain ⟨hk, hr⟩ := checkLights_effect u
    rw [show lightsChanged n u = checkLights u from if_pos (hf.trans ht)]
    refine ⟨?_, hr⟩
    rw [hk, hw]
    simp only [ht, true_and]
    rfl
  · rw [show lightsChanged n u = u from if_neg (by rw [hf]; exact ht)]
    refine ⟨?_, rfl⟩
    simp [ht, u]

end Sys2Proof.Machine
end

section
/-! What a computer tells its port (O33). -/

open Sys2Proof Sys2Proof.Machine

/-- Settles O33: a DETACHED port takes nothing, and elsewhere each report is its write and what follows it. -/
theorem computerTellsThePort : Obligations.ComputerTellsThePort := by
  intro n f on l s p
  refine ⟨fun hd => ⟨fun i => congrArg done (if_pos hd), congrArg done (if_pos hd), congrArg done (if_pos hd)⟩, fun hd => ?_⟩
  have hsel : ∀ i, exec (.formatSelect n i f) s = .next (handedOn (selectFormat n i f s)) := fun i => congrArg done (if_neg hd)
  refine ⟨fun hf => ?_, fun hf => ?_, fun hf => ?_, fun hf => ?_, ?_, ?_⟩
  · exact (hsel .keyboard).trans (congrArg _ (congrArg _ (if_pos hf)))
  · exact (hsel .pointer).trans (congrArg _ (congrArg _ (if_pos hf)))
  · obtain ⟨h1, h2, h3, h4, -⟩ := keyFormat_written n f s
    exact ⟨_, (hsel .keyboard).trans (congrArg _ (congrArg _ (if_neg hf))), h1, h2, h3, h4, rfl⟩
  · obtain ⟨h1, h2, h3, h4, h5⟩ := pointerFormat_written n f s
    obtain ⟨hk, hp, hr⟩ := formatFollowed hf (by rw [h1]) (by rw [h1]) (by rw [h1]) (h5.trans rfl)
    refine ⟨_, (hsel .pointer).trans (congrArg _ (congrArg _ (if_neg hf))), ?_, ?_, ?_, ?_, hk, hp, ?_⟩
    · rw [hr]; exact h1
    · rw [hr]; exact h2
    · rw [hr]; exact h3
    · rw [hr]; exact h4
    · rw [hr]; rfl
  · exact ⟨_, congrArg done (if_neg hd), State.modPort_port_same .., fun m hm => State.modPort_port_ne _ _ _ _ hm, rfl⟩
  · obtain ⟨hk, hr⟩ := lightsChanged_effect n l s
    refine ⟨_, congrArg done (if_neg hd), ?_, fun m hm => ?_, hk, ?_⟩
    · rw [hr]; exact State.modPort_port_same ..
    · rw [hr]; exact State.modPort_port_ne _ _ _ _ hm
    · rw [hr]; rfl

end

section
/-!
SUPPORT. What a change of the focus and a re-evaluation leave behind (R26, R38 to R40, R53, R55, R56), in the terms of the
statements.
-/

namespace Sys2Proof.Machine

open Sys2Proof

variable {old s t u x : State}

/-! ### The releases, from the state before the change -/

/-- A state about to release its leavers has the last records, the quiet timers, the links and, but for a carry that has
been cleared, the ports that it had in `old`. -/
structure BeforeRelease (old s : State) : Prop where
  now : s.now = old.now
  port : ∀ m, s.port m = old.port m ∨ s.port m = carryCleared (old.port m)
  controls : s.controls = old.controls
  links : s.links = old.links
  lastKey : s.router.lastKey = old.router.lastKey
  lastPointer : s.router.lastPointer = old.router.lastPointer
  linkKeys : s.router.linkKeys = old.router.linkKeys
  linkPointer : s.router.linkPointer = old.router.linkPointer

variable (hb : BeforeRelease old s)

include hb

theorem BeforeRelease.bus (m : Comp) : (s.port m).bus = (old.port m).bus := by
  obtain h | h := hb.port m <;> rw [h]
  rfl

theorem BeforeRelease.keyFormat (m : Comp) : (s.port m).keyFormat = (old.port m).keyFormat := by
  obtain h | h := hb.port m <;> rw [h]
  rfl

theorem BeforeRelease.emptyRecordDue (m : Comp) : Machine.emptyRecordDue s m = Machine.emptyRecordDue old m :=
  emptyRecordDue_congr (hb.bus m) (hb.keyFormat m) (by unfold State.lastKey; rw [hb.lastKey])

theorem BeforeRelease.noButtonsDue (m : Comp) : Machine.noButtonsDue s m = Machine.noButtonsDue old m :=
  noButtonsDue_congr (hb.bus m) (by unfold State.lastPointer; rw [hb.lastPointer])

theorem BeforeRelease.releasedPort (m : Comp) (p : Port) : Machine.releasedPort s m p = Machine.releasedPort old m p := by
  unfold Machine.releasedPort
  rw [hb.emptyRecordDue, hb.noButtonsDue]

/-- The release of those that have left, seen from `old` in a state `u` with the ports, the control records and the router
that the release has left. -/
theorem BeforeRelease.computersReleased (h : LeaversReleased old s t) (ha : Alike t u)
    (hrk : u.router.lastKey = t.router.lastKey) (hrp : u.router.lastPointer = t.router.lastPointer) (hn : u.now = t.now) : computersReleased s.port old u := by
  intro m
  have hrec : isRecipient u m = isRecipient s m := (ha.recipient m).trans (h.recipients m)
  obtain ⟨hport, hkey, hptr⟩ := h.letGo m
  have htouch := h.touches m
  have hup : u.port m = t.port m := by unfold State.port; rw [ha.ports]
  have huc : u.control m = t.control m := by unfold State.control; rw [ha.controls]
  have huk : u.lastKey m = t.lastKey m := by unfold State.lastKey; rw [hrk]
  have hul : u.lastPointer m = t.lastPointer m := by unfold State.lastPointer; rw [hrp]
  have hsk : s.lastKey m = old.lastKey m := by unfold State.lastKey; rw [hb.lastKey]
  have hsl : s.lastPointer m = old.lastPointer m := by unfold State.lastPointer; rw [hb.lastPointer]
  have hsc : s.control m = old.control m := by unfold State.control; rw [hb.controls]
  unfold computerLetGo releaseTouches
  unfold releaseTouches at htouch
  rw [hrec, hup, huk, hul, huc, hn, hport, hkey, hptr, htouch, hb.releasedPort, hb.emptyRecordDue, hb.noButtonsDue, hsk, hsl, hsc]
  exact ⟨⟨rfl, rfl, rfl⟩, rfl⟩

theorem BeforeRelease.link (k : LinkId) : s.link k = old.link k := by unfold State.link; rw [hb.links]

theorem BeforeRelease.linkKeys_eq (k : LinkId) : s.linkKeys k = old.linkKeys k := by
  unfold State.linkKeys; rw [hb.linkKeys]

theorem BeforeRelease.linkPointer_eq (k : LinkId) : s.linkPointer k = old.linkPointer k := by
  unfold State.linkPointer; rw [hb.linkPointer]

theorem BeforeRelease.linksReleased (h : LeaversReleased old s t) (hl : u.links = t.links) (hr : u.router = t.router)
    (hf : u.focus = t.focus) (hbl : u.blank = t.blank) : linksReleased old u := by
  intro k
  have hlink : ∀ j, u.link j = t.link j := fun j => by unfold State.link; rw [hl]
  have huk : u.linkKeys k = t.linkKeys k := by unfold State.linkKeys; rw [hr]
  have hup : u.linkPointer k = t.linkPointer k := by unfold State.linkPointer; rw [hr]
  have hrec : linkIsRecipient u k = linkIsRecipient s k :=
    (linkIsRecipient_congr hf hbl (fun j => by rw [hlink]) k).trans (h.linkRecipients k)
  have hgone : linkGone old s k = (linkIsRecipient old k && !linkIsRecipient u k) := by
    rw [hrec, linkGone, hb.link]
    cases ho : linkIsRecipient old k
    · rfl
    · have hv : ((old.link k).viewer == .held) = true := by
        unfold linkIsRecipient at ho
        simp only [Bool.and_eq_true] at ho
        exact ho.2
      rw [hv, Bool.and_true]
  have hrel : releasedLink s k = releasedLink old k :=
    releasedLink_congr (hb.link k) (hb.linkKeys_eq k) (hb.linkPointer_eq k)
  dsimp only
  rw [hlink, huk, hup, h.link, h.keys, h.pointer, hgone, hrel, hb.link, hb.linkKeys_eq, hb.linkPointer_eq]
  exact ⟨rfl, rfl, rfl⟩

omit hb

/-! ### A change of the focus -/

/-- The state that leaves the old target, its record written and every held key masked (R40, steps 1 to 4). -/
def targetLeft (r : FocusRecord) (s : State) : State := leaveTarget s.focus.target ((maskHeld s).setFocus r)

theorem targetLeft_eq (r : FocusRecord) (s : State) :
    targetLeft r s = { s with
      router := (maskHeld s).router, focus := r, pointer := { s.pointer with capture := false }
      ports := (targetLeft r s).ports } := by
  unfold targetLeft leaveTarget
  split <;> rfl

theorem targetLeft_port (r : FocusRecord) (s : State) (m : Comp) :
    (targetLeft r s).port m = if s.focus.target = .loc m then carryCleared (s.port m) else s.port m :=
  leaveTarget_port ..

theorem targetLeft_before (r : FocusRecord) (s : State) : BeforeRelease s (targetLeft r s) := by
  refine ⟨?_, fun m => ?_, ?_, ?_, ?_, ?_, ?_, ?_⟩
  case refine_2 =>
    rw [targetLeft_port]
    split
    · exact .inr rfl
    · exact .inl rfl
  all_goals rw [targetLeft_eq] <;> rfl

theorem takeGlideZone_eq (r : FocusTarget) (s : State) :
    takeGlideZone r s = { s with pointer := { s.pointer with
      glideZone := (takeGlideZone r s).pointer.glideZone, glideFrom := (takeGlideZone r s).pointer.glideFrom } } := by
  unfold takeGlideZone
  split
  · rfl
  · rfl
  · split <;> rfl

theorem noticeFocus_eq (old s : State) : noticeFocus old s = { s with sup := toldFocus old s s.sup } := by
  unfold noticeFocus toldFocus
  split <;> rfl

/-- A change of the focus to the record `r`, the pointer staying where it is (R18, R38, R40). -/
structure FocusMoved (r : FocusRecord) (s u : State) : Prop where
  focus : u.focus = r
  refocused : refocused s u
  lines : linesFollow s u
  broadcast : u.router.broadcast = s.router.broadcast
  pointer : u.pointer = { s.pointer with
    capture := false, glideZone := u.pointer.glideZone, glideFrom := u.pointer.glideFrom }
  rest : u = { s with
    pointer := u.pointer, focus := u.focus, router := u.router, ports := u.ports, controls := u.controls
    keyboard := u.keyboard, lines := u.lines, links := u.links, sup := toldWrite s u s.sup }

/-- The steps of a focus change after the releases: the glide zone, the TALLY lines, the lights and the notice. -/
def focusTold (old : State) (s : State) : State :=
  noticeFocus old (checkLights (tellTally (takeGlideZone s.focus.target s)))

/-- What those steps write, each from the state they begin in. -/
theorem focusTold_effect (old s : State) :
    (∀ l, (focusTold old s).line l = talliedLine s.focus.target (s.line l)) ∧
    (focusTold old s).keyboard = { s.keyboard with
      lightsSent := if s.keyboard.attached = true then some (wantedLights s) else s.keyboard.lightsSent } ∧
    focusTold old s = { s with
      pointer := (takeGlideZone s.focus.target s).pointer, lines := (focusTold old s).lines
      keyboard := (focusTold old s).keyboard, sup := toldFocus old s s.sup } := by
  obtain ⟨hl, ht⟩ := tellTally_effect (takeGlideZone s.focus.target s)
  obtain ⟨hk, hc⟩ := checkLights_effect (tellTally (takeGlideZone s.focus.target s))
  have hg := takeGlideZone_eq s.focus.target s
  have hn : focusTold old s = noticeFocus old (checkLights (tellTally (takeGlideZone s.focus.target s))) := rfl
  generalize takeGlideZone s.focus.target s = x at *
  generalize tellTally x = y at *
  generalize checkLights y = z at *
  rw [noticeFocus_eq] at hn
  generalize focusTold old s = u at *
  have hw : wantedLights y = wantedLights s := by rw [ht, hg]; rfl
  refine ⟨fun l => ?_, ?_, ?_⟩
  · rw [hn, hc]
    refine (hl l).trans ?_
    rw [hg]
    rfl
  · rw [hn]
    refine hk.trans ?_
    rw [hw, ht, hg]
  · have hs : toldFocus old z z.sup = toldFocus old s s.sup := by
      unfold toldFocus
      rw [hc, ht, hg]
    rw [hn, hs, hc, ht]
    have hp := congrArg State.pointer hg
    conv_lhs => rw [hg]
    conv_rhs => rw [hp]

theorem focusChange_eq (r : FocusTarget) (o : Origin) (tile : Option Monitor) (s : State) :
    focusChange r o tile false s = focusTold s (releaseLeavers s (targetLeft ⟨r, o, tile⟩ s)) := by
  have hr : (releaseLeavers s (targetLeft ⟨r, o, tile⟩ s)).focus = ⟨r, o, tile⟩ :=
    (releaseLeavers_effect _ _).releases.focus.trans (by rw [targetLeft_eq])
  unfold focusTold
  rw [hr]
  simp only [focusChange, targetLeft, Bool.false_eq_true, if_false]

/-! ### The whole change -/

theorem releasedLink_inbound (s : State) (k : LinkId) : (releasedLink s k).inbound = (s.link k).inbound := by
  have he : ∀ m l, (enqueueFrame m l).inbound = l.inbound := fun m l => (enqueueFrame_fields m l).2.2.1
  unfold releasedLink
  dsimp only
  have hl : (if s.linkKeys k = ⟨0, []⟩ then s.link k else enqueueFrame (.keys ⟨0, []⟩) (s.link k)).inbound =
      (s.link k).inbound := by
    split
    · rfl
    · exact he _ _
  split
  · split
    · exact hl
    · exact (he _ _).trans hl
  · split
    · exact hl
    · exact (he _ _).trans hl
  · exact hl

theorem LeaversReleased.activeOffer (h : LeaversReleased old s t) (k : LinkId) : activeOffer t k = activeOffer s k := by
  have hi : (t.link k).inbound = (s.link k).inbound := by
    rw [h.link]
    split
    · exact releasedLink_inbound s k
    · rfl
  unfold Machine.activeOffer
  rw [hi]

theorem takeGlideZone_loc (n : Comp) (s : State) :
    (takeGlideZone (.loc n) s).pointer.glideZone = (s.comp n).zone ∧
      (takeGlideZone (.loc n) s).pointer.glideFrom = .loc n := ⟨rfl, rfl⟩

theorem takeGlideZone_rem {k : LinkId} {o : Offer} (h : activeOffer s k = some o) :
    (takeGlideZone (.rem k) s).pointer.glideZone = o.zone ∧ (takeGlideZone (.rem k) s).pointer.glideFrom = .rem k := by
  simp only [takeGlideZone, h]
  exact ⟨rfl, rfl⟩

theorem talliedLine_follows {f : FocusTarget} (hne : u.focus.target ≠ s.focus.target) (hf : u.focus.target = f)
    (h : ∀ l, u.line l = talliedLine f (s.line l)) : linesFollow s u := by
  refine ⟨fun l n hr => ?_, fun l hr => ?_⟩
  · rw [if_neg hne, h, hf]
    simp only [talliedLine, hr]
    rfl
  · rw [h]
    unfold talliedLine
    split
    next n hn => exact absurd hn (hr n)
    · rfl

theorem pushKey_lights (r : KeyRecord) (p : Port) : (pushKey r p).lights = p.lights := by
  unfold pushKey
  dsimp only
  split <;> rfl

theorem pushPointer_lights (r : PointerRecord) (p : Port) : (pushPointer r p).lights = p.lights := by
  unfold pushPointer
  dsimp only
  split <;> rfl

theorem releasedPort_lights (s : State) (m : Comp) (p : Port) : (releasedPort s m p).lights = p.lights := by
  unfold releasedPort
  cases Machine.emptyRecordDue s m <;> cases Machine.noButtonsDue s m <;>
    simp [pushKey_lights, pushPointer_lights]

theorem LeaversReleased.lights (h : LeaversReleased old s t) (m : Comp) : (t.port m).lights = (s.port m).lights := by
  rw [(h.letGo m).1]
  split
  · exact releasedPort_lights ..
  · rfl

/-- A change of the focus target, step by step (R40). -/
theorem focusChange_moved {r : FocusTarget} (o : Origin) (tile : Option Monitor) (hne : r ≠ s.focus.target) :
    FocusMoved ⟨r, o, tile⟩ s (focusChange r o tile false s) := by
  obtain ⟨hsup, hfocus⟩ := focusChange_sup r o tile false s
  rw [focusChange_eq] at hsup hfocus ⊢
  have hb := targetLeft_before ⟨r, o, tile⟩ s
  have h4 := targetLeft_eq ⟨r, o, tile⟩ s
  have hp4 := funext (targetLeft_port ⟨r, o, tile⟩ s)
  have hrel := releaseLeavers_effect s (targetLeft ⟨r, o, tile⟩ s)
  generalize targetLeft ⟨r, o, tile⟩ s = w at *
  generalize releaseLeavers s w = x at *
  obtain ⟨hlines, hkeys, hu⟩ := focusTold_effect s x
  generalize focusTold s x = u at *
  have hx := hrel.releases
  have hxf : x.focus = ⟨r, o, tile⟩ := by rw [hx, h4]
  have hxk : x.keyboard = s.keyboard := by rw [hx, h4]
  have hxp : x.pointer = { s.pointer with capture := false } := by rw [hx, h4]
  have hxl : ∀ l, x.line l = s.line l := by rw [hx, h4]; exact fun _ => rfl
  have hxc : ∀ n, x.comp n = s.comp n := by rw [hx, h4]; exact fun _ => rfl
  have hxo : ∀ k, activeOffer x k = activeOffer s k := fun k => (hrel.activeOffer k).trans (by rw [h4]; rfl)
  have hxm : x.router.mask = (maskHeld s).router.mask := by rw [hrel.router, h4]
  have hxb : x.router.broadcast = s.router.broadcast := by rw [hrel.router, h4]; rfl
  have hxi : ∀ n, (x.port n).lights = (s.port n).lights := by
    intro n
    rw [hrel.lights, hp4]
    dsimp only
    split <;> rfl
  have ha : Alike x u := by rw [hu]; exact ⟨rfl, rfl, rfl, rfl, rfl, rfl⟩
  have hur : u.router = x.router := by rw [hu]
  have hul : u.links = x.links := by rw [hu]
  have hun : u.now = x.now := by rw [hu]
  have hup : u.pointer = (takeGlideZone r x).pointer := by rw [hu, hxf]
  have hglide : u.pointer = { s.pointer with
      capture := false, glideZone := u.pointer.glideZone, glideFrom := u.pointer.glideFrom } := by
    have := congrArg State.pointer (takeGlideZone_eq r x)
    rw [hup]
    refine this.trans ?_
    rw [hxp]
  have hut : u.focus.target = r := by rw [hfocus]
  refine ⟨hfocus, ⟨?_, ?_, ?_, ?_, ?_, ?_, ?_, ?_⟩, ?_, ?_, hglide, ?_⟩
  · rw [hglide]
  · intro c
    rw [hur, hxm]
    exact maskHeld_heldMasked rfl rfl c
  · have := hb.computersReleased hrel ha (by rw [hur]) (by rw [hur]) hun
    rwa [hp4] at this
  · exact hb.linksReleased hrel hul hur ha.focus ha.blank
  · rw [hkeys, hxk, wantedLights, hxf, hut]
    cases r with
    | loc n => simp only [hxi]; split <;> rfl
    | rem k => split <;> rfl
    | none => split <;> rfl
  · intro hr
    obtain rfl : r = .none := hut.symm.trans hr
    rw [hup, show takeGlideZone .none x = x from rfl, hxp]
    exact ⟨rfl, rfl⟩
  · intro n hr
    obtain rfl : r = .loc n := hut.symm.trans hr
    obtain ⟨hz, hf⟩ := takeGlideZone_loc n x
    rw [hup, hut, ← hxc]
    exact ⟨hz, hf⟩
  · intro k o' hr ho
    obtain rfl : r = .rem k := hut.symm.trans hr
    rw [hup, hut]
    exact takeGlideZone_rem ((hxo k).trans ho)
  · exact talliedLine_follows (by rw [hut]; exact hne) hut fun l => by rw [hlines, hxl, hxf]
  · rw [hur, hxb]
  · rw [← hsup, hu, hx, h4]

/-! ### A re-evaluation of the focus -/

/-- The focus is re-evaluated for monitor `m`: a changed target acts as at every focus change, and an unchanged one has only
its record written (R26, R39, R40). -/
structure Reevaluated (m : Monitor) (s u : State) : Prop where
  focus : u.focus = ⟨formedTarget s (assignmentOf s m), .glide, some m⟩
  same : u.focus.target = s.focus.target → u.pointer = s.pointer ∧ u.ports = s.ports ∧ targetKept s u
  changed : u.focus.target ≠ s.focus.target → refocused s u
  lines : linesFollow s u
  broadcast : u.router.broadcast = s.router.broadcast
  pointer : u.pointer = { s.pointer with
    capture := u.pointer.capture, glideZone := u.pointer.glideZone, glideFrom := u.pointer.glideFrom }
  rest : u = { s with
    pointer := u.pointer, focus := u.focus, router := u.router, ports := u.ports, controls := u.controls
    keyboard := u.keyboard, lines := u.lines, links := u.links, sup := toldWrite s u s.sup }

theorem reevaluate_effect (m : Monitor) (s : State) : Reevaluated m s (reevaluate m s) := by
  obtain ⟨hsup, hfocus⟩ := reevaluate_sup m s
  by_cases ht : formedTarget s (assignmentOf s m) = s.focus.target
  · have hr : reevaluate m s = noticeFocus s (s.setFocus ⟨formedTarget s (assignmentOf s m), .glide, some m⟩) := if_pos ht
    rw [noticeFocus_eq] at hr
    have hkeep : (reevaluate m s).focus.target = s.focus.target := by rw [hfocus]; exact ht
    refine ⟨hfocus, fun _ => ?_, fun h => absurd hkeep h, ⟨fun l n _ => ?_, fun l _ => ?_⟩, ?_, ?_, ?_⟩
    · rw [hr]
      exact ⟨rfl, rfl, rfl, rfl, rfl, rfl, rfl, rfl⟩
    · rw [if_pos hkeep, hr]
      rfl
    · rw [hr]
      rfl
    · rw [hr]
      rfl
    · rw [hr]
      rfl
    · rw [← hsup, hr]
      rfl
  · have hr : reevaluate m s = focusChange (formedTarget s (assignmentOf s m)) .glide (some m) false s := if_neg ht
    have hm := focusChange_moved (s := s) .glide (some m) ht
    rw [← hr] at hm
    have hne : (reevaluate m s).focus.target ≠ s.focus.target := by rw [hfocus]; exact ht
    refine ⟨hfocus, fun h => absurd h hne, fun _ => hm.refocused, hm.lines, hm.broadcast, ?_, hm.rest⟩
    rw [hm.pointer]

end Sys2Proof.Machine
end

section
/-!
SUPPORT. The bytes of a tile list name it again (R9), the order by monitor is unique, and where a layout change leaves the
pointer (R32).
-/

namespace Sys2Proof.Machine

open Sys2Proof

variable {s t u : State} {ts new : List Tile}

/-! ### The bytes of a tile list -/

theorem monitorOf_byte (m : Monitor) : monitorOf (BitVec.ofNat 8 (m.val + 1)) = some m := by revert m; decide

theorem monitorOf_eq_none {b : Byte} (h : b = 0 ∨ 4 < b.toNat) : monitorOf b = none := by
  rw [byte_eq_zero_iff] at h
  exact dif_neg (by omega)

/-- Each number of the tile fits in two bytes. -/
def Tile.fits (b : Tile) : Prop := b.x0 ≤ 65535 ∧ b.y0 ≤ 65535 ∧ b.w ≤ 65535 ∧ b.h ≤ 65535

theorem tilesOf_bytes (h : ∀ b ∈ ts, Tile.fits b) : tilesOf (ts.flatMap tileBytes) = some ts := by
  induction ts with
  | nil => rfl
  | cons b ts ih =>
    obtain ⟨hx, hy, hw, hh⟩ := h b (by simp)
    have hr := ih fun c hc => h c (List.mem_cons_of_mem b hc)
    simp only [List.flatMap_cons, tileBytes, monitorByte, byte1, byte2, List.cons_append, List.nil_append, tilesOf,
      monitorOf_byte, hr, num2_byte2 hx, num2_byte2 hy, num2_byte2 hw, num2_byte2 hh]

theorem tileBytes_length (ts : List Tile) : (ts.flatMap tileBytes).length = 9 * ts.length := by
  induction ts with
  | nil => rfl
  | cons b ts ih =>
    rw [List.flatMap_cons, List.length_append, ih, List.length_cons]
    simp only [tileBytes, monitorByte, byte1, byte2, List.length_append, List.length_cons, List.length_nil]
    omega

/-- Whole tiles before bytes that name no tile list. -/
theorem tilesOf_append_none {rest : List Byte} (hr : tilesOf rest = none) :
    ∀ before : List Byte, before.length % 9 = 0 → tilesOf (before ++ rest) = none
  | [], _ => hr
  | m :: x1 :: x0 :: y1 :: y0 :: w1 :: w0 :: h1 :: h0 :: before, h => by
    have ih := tilesOf_append_none hr before (by simp only [List.length_cons] at h; omega)
    simp only [List.cons_append, tilesOf, ih]
    split
    next he => cases he
    · rfl
  | [_], h | [_, _], h | [_, _, _], h | [_, _, _, _], h | [_, _, _, _, _], h | [_, _, _, _, _, _], h
  | [_, _, _, _, _, _, _], h | [_, _, _, _, _, _, _, _], h => by simp at h

theorem tilesOf_none {m x1 x0 y1 y0 w1 w0 h1 h0 : Byte} {rest : List Byte} (h : m = 0 ∨ 4 < m.toNat) :
    tilesOf (m :: x1 :: x0 :: y1 :: y0 :: w1 :: w0 :: h1 :: h0 :: rest) = none := by
  simp only [tilesOf, monitorOf_eq_none h]

/-! ### The order by monitor -/

theorem insertTile_sorted (b : Tile) (h : ts.Pairwise fun a c => a.monitor ≤ c.monitor) :
    (insertTile b ts).Pairwise fun a c => a.monitor ≤ c.monitor := by
  induction ts with
  | nil => simp [insertTile]
  | cons c ts ih =>
    obtain ⟨hc, hts⟩ := List.pairwise_cons.mp h
    unfold insertTile
    split
    next hle =>
      refine List.pairwise_cons.mpr ⟨fun d hd => ?_, h⟩
      obtain rfl | hd := List.mem_cons.mp hd
      · exact hle
      · exact le_trans hle (hc d hd)
    next hle =>
      refine List.pairwise_cons.mpr ⟨fun d hd => ?_, ih hts⟩
      obtain rfl | hd := List.mem_cons.mp ((insertTile_perm b ts).mem_iff.mp hd)
      · exact le_of_lt (not_le.mp hle)
      · exact hc d hd

theorem sortTiles_sorted (ts : List Tile) : (sortTiles ts).Pairwise fun a c => a.monitor ≤ c.monitor := by
  induction ts with
  | nil => exact .nil
  | cons b ts ih => exact insertTile_sorted b ih

/-- A list of tiles of distinct monitors has one order by monitor. -/
theorem sortTiles_eq (hp : new.Perm ts) (hs : new.Pairwise fun a b => a.monitor < b.monitor) : sortTiles ts = new := by
  have hnew : new.Pairwise fun a b => a.monitor ≤ b.monitor := hs.imp le_of_lt
  refine List.Perm.eq_of_pairwise (fun a b ha hb h1 h2 => ?_) (sortTiles_sorted ts) hnew ((sortTiles_perm ts).trans hp.symm)
  have ha' : a ∈ new := ((sortTiles_perm ts).trans hp.symm).mem_iff.mp ha
  exact List.inj_on_of_nodup_map (List.pairwise_map.mpr (hs.imp ne_of_lt)) ha' hb (le_antisymm h1 h2)

/-! ### SET_LAYOUT -/

theorem judgeSetLayout_bytes (hl : ts.length ≤ 27) (hf : ∀ b ∈ ts, Tile.fits b) :
    judgeSetLayout (listBytes tileBytes ts) s =
      if layoutOk ts then setLayout (sortTiles ts) s else refuse .badArg s := by
  have hn : (BitVec.ofNat 8 ts.length).toNat = ts.length := toNat_byte (by omega)
  simp only [listBytes, byte1, List.cons_append, List.nil_append, judgeSetLayout, tileBytes_length, hn, if_true,
    tilesOf_bytes hf]

theorem judgeSetLayout_none {c : Byte} {rest : List Byte} (hl : rest.length = 9 * c.toNat) (hr : tilesOf rest = none) :
    judgeSetLayout (c :: rest) s = refuse .badArg s := by
  simp only [judgeSetLayout, hl, if_true, hr]

/-! ### Where a layout change leaves the pointer -/

theorem tileOf_of_mem {b : Tile} (hd : ts.Pairwise fun a c => a.monitor ≠ c.monitor) (hb : b ∈ ts) :
    tileOf ts b.monitor = some b := by
  have hs : (tileOf ts b.monitor).isSome := by
    unfold tileOf
    rw [List.find?_isSome]
    exact ⟨b, hb, by simp⟩
  obtain ⟨c, hc⟩ := Option.isSome_iff_exists.mp hs
  have hm : c.monitor = b.monitor := by simpa using List.find?_some hc
  rw [hc, List.inj_on_of_nodup_map (List.pairwise_map.mpr hd) (List.mem_of_find?_eq_some hc) hb hm]

theorem repositioned_of_tile {m : Monitor} {b : Tile} (h : tileOf ts m = some b) (p : DeskPointer) :
    repositioned (some m) ts p =
      (max b.x0 (min (b.x0 + b.w - 1) p.px), max b.y0 (min (b.y0 + b.h - 1) p.py)) := by
  simp only [repositioned, Option.bind_some, h, clampTo]

theorem repositioned_of_none {b : Tile} {rest : List Tile} {m : Option Monitor}
    (h : ∀ n, m = some n → ∀ c ∈ b :: rest, c.monitor ≠ n) (p : DeskPointer) :
    repositioned m (b :: rest) p = (b.x0 + b.w / 2, b.y0 + b.h / 2) := by
  have hn : m.bind (tileOf (b :: rest)) = none := by
    cases m with
    | none => rfl
    | some n =>
      refine List.find?_eq_none.mpr fun c hc => ?_
      simpa using h n rfl c hc
  simp only [repositioned, hn]
  rfl

/-- The layout has been written and the pointer put into it, before the focus is looked at (R32). -/
def layoutMoved (ts : List Tile) (s : State) : State :=
  movePointer (repositioned (pointerMonitor s) ts s.pointer).1 (repositioned (pointerMonitor s) ts s.pointer).2
    (s.setLayout ts)

theorem layoutMoved_monitor (hv : validLayout ts) (s : State) : ∃ m, pointerMonitor (layoutMoved ts s) = some m := by
  obtain ⟨b, hb, hc⟩ := repositioned_contained hv (pointerMonitor s) s.pointer
  have hs : (pointerTile (layoutMoved ts s)).isSome := List.find?_isSome.mpr ⟨b, hb, hc⟩
  obtain ⟨c, hc⟩ := Option.isSome_iff_exists.mp hs
  exact ⟨c.monitor, congrArg (Option.map Tile.monitor) hc⟩

theorem changeLayout_of_away (h : ∀ m, pointerMonitor s = some m → s.focus.tile ≠ some m) :
    changeLayout ts s = layoutMoved ts s := by
  refine if_neg fun ⟨hs, ht⟩ => ?_
  obtain ⟨m, hm⟩ := Option.isSome_iff_exists.mp hs
  exact h m hm (ht.trans hm)

theorem changeLayout_of_focused {m m' : Monitor} (hm : pointerMonitor s = some m) (ht : s.focus.tile = some m)
    (hm' : pointerMonitor (layoutMoved ts s) = some m') : changeLayout ts s = reevaluate m' (layoutMoved ts s) := by
  have h : (pointerMonitor s).isSome = true ∧ s.focus.tile = pointerMonitor s := by rw [hm, ht]; exact ⟨rfl, rfl⟩
  refine (if_pos h).trans ?_
  rw [show pointerMonitor (movePointer _ _ (s.setLayout ts)) = some m' from hm']
  rfl

theorem layoutMoved_held (hd : new.Pairwise fun a c => a.monitor ≠ c.monitor) {b : Tile} (hb : b ∈ new)
    (hm : pointerMonitor s = some b.monitor) :
    (layoutMoved new s).pointer.px = max b.x0 (min (b.x0 + b.w - 1) s.pointer.px) ∧
      (layoutMoved new s).pointer.py = max b.y0 (min (b.y0 + b.h - 1) s.pointer.py) := by
  have hr := repositioned_of_tile (tileOf_of_mem hd hb) s.pointer
  rw [← hm] at hr
  exact ⟨congrArg Prod.fst hr, congrArg Prod.snd hr⟩

theorem layoutMoved_centred {b : Tile} {rest : List Tile}
    (h : ∀ n, pointerMonitor s = some n → ∀ c ∈ b :: rest, c.monitor ≠ n) :
    (layoutMoved (b :: rest) s).pointer.px = b.x0 + b.w / 2 ∧ (layoutMoved (b :: rest) s).pointer.py = b.y0 + b.h / 2 := by
  have hr := repositioned_of_none h s.pointer
  exact ⟨congrArg Prod.fst hr, congrArg Prod.snd hr⟩

/-- What a layout change does after the write and the move (R32): the pointer's place is that of `layoutMoved`, the focus is
re-evaluated when the pointer was on the focus tile, and nothing else follows. -/
structure LayoutChanged (new : List Tile) (s u : State) : Prop where
  layout : u.layout = new
  px : u.pointer.px = (layoutMoved new s).pointer.px
  py : u.pointer.py = (layoutMoved new s).pointer.py
  rx : u.pointer.rx = 0
  ry : u.pointer.ry = 0
  pressure : u.pointer.pressure = ⟨none, 0, none⟩
  focused : ∀ m, pointerMonitor s = some m → s.focus.tile = some m →
    ∃ m', pointerMonitor u = some m' ∧ u.focus = ⟨formedTarget s (assignmentOf s m'), .glide, some m'⟩ ∧
      (u.focus.target = s.focus.target → u.pointer.capture = s.pointer.capture ∧ u.ports = s.ports ∧ targetKept s u) ∧
      (u.focus.target ≠ s.focus.target → refocused s u)
  away : (∀ m, pointerMonitor s = some m → s.focus.tile ≠ some m) → u = layoutMoved new s
  lines : linesFollow s u
  rest : u = { s with
    layout := u.layout, pointer := u.pointer, focus := u.focus, router := u.router, ports := u.ports
    controls := u.controls, keyboard := u.keyboard, lines := u.lines, links := u.links, sup := toldWrite s u s.sup }

theorem toldWrite_same (hf : u.focus = s.focus) (h : ∀ m, isRecipient u m = isRecipient s m) (p : Supervisor) :
    toldWrite s u p = p := by
  unfold toldWrite toldFocus
  rw [if_pos hf, toldLeavers_same h]

theorem linesFollow_same (ht : u.focus.target = s.focus.target) (h : ∀ l, u.line l = s.line l) : linesFollow s u :=
  ⟨fun l _ _ => (h l).trans (if_pos ht).symm, fun l _ => h l⟩

theorem changeLayout_changed (hv : validLayout new) (s : State) : LayoutChanged new s (changeLayout new s) := by
  by_cases hm : ∃ m, pointerMonitor s = some m ∧ s.focus.tile = some m
  · obtain ⟨m, hm, ht⟩ := hm
    obtain ⟨m', hm'⟩ := layoutMoved_monitor hv s
    rw [changeLayout_of_focused hm ht hm']
    obtain ⟨hfocus, hsame, hchanged, hlines, -, hpointer, hrest⟩ := reevaluate_effect m' (layoutMoved new s)
    generalize reevaluate m' (layoutMoved new s) = u at *
    have hl : u.layout = new := by rw [hrest]; rfl
    have hpx : u.pointer.px = (layoutMoved new s).pointer.px := by rw [hpointer]
    have hpy : u.pointer.py = (layoutMoved new s).pointer.py := by rw [hpointer]
    refine ⟨hl, hpx, hpy, by rw [hpointer]; rfl, by rw [hpointer]; rfl, by rw [hpointer]; rfl, fun _ _ _ => ?_,
      fun ha => absurd ht (ha m hm), hlines, hrest.trans (by rw [hl]; rfl)⟩
    refine ⟨m', ?_, hfocus, fun h => ?_, hchanged⟩
    · unfold pointerMonitor pointerTile
      rw [hl, hpx, hpy]
      exact hm'
    · obtain ⟨hp, hports, hkept⟩ := hsame h
      exact ⟨by rw [hp]; rfl, hports, hkept⟩
  · have ha : ∀ m, pointerMonitor s = some m → s.focus.tile ≠ some m := fun m hm' ht => hm ⟨m, hm', ht⟩
    rw [changeLayout_of_away ha]
    refine ⟨rfl, rfl, rfl, rfl, rfl, rfl, fun m hm' ht => absurd ht (ha m hm'), fun _ => rfl,
      linesFollow_same rfl fun _ => rfl, ?_⟩
    have hsup : toldWrite s (layoutMoved new s) s.sup = s.sup := toldWrite_same rfl (fun _ => rfl) _
    rw [hsup]
    rfl

end Sys2Proof.Machine
end

section
/-! The tile list (O18). -/

open Sys2Proof Sys2Proof.Machine

/-- Settles O18: the list read is the list told, its order by monitor is unique, and a pointer on the focus tile has the
focus re-evaluated. -/
theorem layoutWrittenWhole : Obligations.LayoutWrittenWhole := by
  refine ⟨fun tag ts s hl hf => ?_, fun tag c m x1 x0 y1 y0 w1 w0 h1 h0 before after s hb ha hm => ?_⟩
  · intro r ht
    have hj := judgeSetLayout_bytes (s := begun r s) hl hf
    refine ⟨fun hv => ?_, fun new hv hp hs => ?_⟩
    · rw [if_neg (by rwa [layoutOk_iff])] at hj
      exact exec_request r judgeSetLayout s ht _ _ _ hj
    rw [if_pos (layoutOk_iff.mpr hv), sortTiles_eq hp hs] at hj
    refine ⟨fun he => ?_, fun he h3 => ?_, fun he h3 => ?_⟩
    · exact exec_request r judgeSetLayout s ht _ _ _ (hj.trans (if_pos he))
    · exact exec_request r judgeSetLayout s ht _ _ _ (hj.trans ((if_neg he).trans (if_pos (frozen_iff.mpr h3))))
    have hc : judgeSetLayout r.body (begun r s) = okay (changeLayout new (begun r s)) :=
      hj.trans ((if_neg he).trans (if_neg (by rw [frozen_iff]; exact Nat.not_le.mpr h3)))
    have hd : new.Pairwise fun a c => a.monitor ≠ c.monitor := hs.imp ne_of_lt
    have hch := changeLayout_changed (validLayout_perm hp.symm hv) (begun r s)
    refine answered_ok ht hc ⟨hch.layout, hch.rx, hch.ry, hch.pressure, fun m b hm hb he => ?_, fun b rest hn hm => ?_,
      hch.focused, fun haway => ?_, hch.lines, hch.rest⟩
    · rw [hch.px, hch.py]
      exact layoutMoved_held hd hb (hm.trans (congrArg some he.symm))
    · rw [hch.px, hch.py, hn]
      exact layoutMoved_centred fun n hn' c hc => hm n hn' c (by rw [hn]; exact hc)
    · rw [hch.away haway]
      rfl
  · intro r ht
    have hl : (before ++ m :: x1 :: x0 :: y1 :: y0 :: w1 :: w0 :: h1 :: h0 :: after).length = 9 * c.toNat := by
      simp only [List.length_append, List.length_cons]
      omega
    have hj := judgeSetLayout_none (s := begun r s) hl (tilesOf_append_none (tilesOf_none hm) before hb)
    refine exec_request r judgeSetLayout s ht _ _ _ (Eq.trans ?_ hj)
    simp only [r, List.cons_append, List.append_assoc, List.nil_append]

end

section
/-!
SUPPORT. The bytes of a computer record (R2), and what a written one sets moving: the recipients derived afresh, the glide
zone, the MODE frames and the capture, and the automatic grant (R3, R4, R155).
-/

namespace Sys2Proof.Machine

open Sys2Proof

variable {s t u v w x : State} {n : Comp} {r : CompRecord}

/-! ### The bytes of a record -/

theorem zoneOf_byte (z : Zone) : zoneOf (BitVec.ofNat 8 z.val) = some z := by revert z; decide

theorem zoneOf_eq_none {b : Byte} (h : 3 < b.toNat) : zoneOf b = none := dif_neg (by omega)

theorem pointerModeOf_eq_none {b : Byte} (h : 1 < b.toNat) : pointerModeOf b = none := by
  unfold pointerModeOf
  split
  · omega
  · omega
  · rfl

theorem sharePolicyOf_eq_none {b : Byte} (h : 3 < b.toNat) : sharePolicyOf b = none := by
  unfold sharePolicyOf
  split
  · omega
  · omega
  · omega
  · omega
  · rfl

theorem wakeMethodOf_eq_none {b : Byte} (h : 2 < b.toNat) : wakeMethodOf b = none := by
  unfold wakeMethodOf
  split
  · omega
  · omega
  · omega
  · rfl

/-- Bytes that name no record. -/
theorem compRecordOf_none {old : CompRecord} {z p sp q1 q0 aw wm t1 t0 w1 w0 vw1 vw0 vh1 vh0 : Byte}
    (h : 3 < z.toNat ∨ 1 < p.toNat ∨ 3 < sp.toNat ∨ 1 < aw.toNat ∨ 2 < wm.toNat ∨
      num2 vw1 vw0 = 0 ∨ 16384 < num2 vw1 vw0 ∨ num2 vh1 vh0 = 0 ∨ 16384 < num2 vh1 vh0) :
    compRecordOf old z p sp q1 q0 aw wm t1 t0 w1 w0 vw1 vw0 vh1 vh0 = none := by
  unfold compRecordOf
  split
  next hz hp hsp haw hwm =>
    obtain h | h | h | h | h | h := h
    · simp [zoneOf_eq_none h] at hz
    · simp [pointerModeOf_eq_none h] at hp
    · simp [sharePolicyOf_eq_none h] at hsp
    · simp [flagOf_eq_none.mpr h] at haw
    · simp [wakeMethodOf_eq_none h] at hwm
    · exact if_neg (by omega)
  · rfl

theorem judgeSetComputer_none {c z p sp q1 q0 aw wm t1 t0 w1 w0 vw1 vw0 vh1 vh0 : Byte}
    (h : c = 0 ∨ 8 < c.toNat ∨ 3 < z.toNat ∨ 1 < p.toNat ∨ 3 < sp.toNat ∨ 1 < aw.toNat ∨ 2 < wm.toNat ∨
      num2 vw1 vw0 = 0 ∨ 16384 < num2 vw1 vw0 ∨ num2 vh1 vh0 = 0 ∨ 16384 < num2 vh1 vh0) :
    judgeSetComputer [c, z, p, sp, q1, q0, aw, wm, t1, t0, w1, w0, vw1, vw0, vh1, vh0] s = refuse .badArg s := by
  rw [← or_assoc] at h
  simp only [judgeSetComputer]
  obtain h | h := h
  · simp only [compOf_eq_none.mpr h]
  · simp only [compRecordOf_none h]
    split <;> rfl

/-- The bytes of a record are read as the record, clamped. -/
theorem judgeSetComputer_bytes {z : Zone} {p : PointerMode} {sp : SharePolicy} {q wt pw vw vh : Nat} {aw : Bool}
    {wm : WakeMethod} (hq : q ≤ 65535) (hwt : wt ≤ 65535) (hpw : pw ≤ 65535) (hvw : 1 ≤ vw) (hvw' : vw ≤ 16384)
    (hvh : 1 ≤ vh) (hvh' : vh ≤ 16384) :
    judgeSetComputer (compByte n ++ byte1 z.val ++ pointerModeByte p ++ policyByte sp ++ byte2 q ++ flag aw ++
        methodByte wm ++ byte2 wt ++ byte2 pw ++ byte2 vw ++ byte2 vh) s =
      setComputer n
        { zone := z, pointerMode := p, member := (s.comp n).member, policy := sp, quietTime := min 60000 q, autoWake := aw
          method := wm, wakeTimeout := max 1000 (min 30000 wt), pulseWidth := max 50 (min 5000 pw), vw := vw, vh := vh } s := by
  have hp : ∃ b, pointerModeByte p = [b] ∧ pointerModeOf b = some p := by cases p <;> exact ⟨_, rfl, rfl⟩
  have hsp : ∃ b, policyByte sp = [b] ∧ sharePolicyOf b = some sp := by cases sp <;> exact ⟨_, rfl, rfl⟩
  have hwm : ∃ b, methodByte wm = [b] ∧ wakeMethodOf b = some wm := by cases wm <;> exact ⟨_, rfl, rfl⟩
  obtain ⟨bp, hp, hp'⟩ := hp
  obtain ⟨bs, hsp, hsp'⟩ := hsp
  obtain ⟨bw, hwm, hwm'⟩ := hwm
  have hin : 1 ≤ vw ∧ vw ≤ 16384 ∧ 1 ≤ vh ∧ vh ≤ 16384 := ⟨hvw, hvw', hvh, hvh'⟩
  simp only [compByte, byte1, byte2, flag, hp, hsp, hwm, List.cons_append, List.nil_append, judgeSetComputer, compOf_byte,
    compRecordOf, zoneOf_byte, hp', hsp', hwm', flagOf_byte, num2_byte2 hq, num2_byte2 hwt, num2_byte2 hpw,
    num2_byte2 (show vw ≤ 65535 by omega), num2_byte2 (show vh ≤ 65535 by omega), if_pos hin, clampTo, Nat.zero_max]

theorem compLocked_iff {old new : CompRecord} : compLocked s old new = true ↔
    (1 ≤ s.lock.level ∧ (new.zone ≠ old.zone ∨ new.policy ≠ old.policy)) ∨
      (3 ≤ s.lock.level ∧ (new.pointerMode ≠ old.pointerMode ∨ new.vw ≠ old.vw ∨ new.vh ≠ old.vh)) := by
  simp [compLocked, frozen_iff, or_assoc]

/-! ### The recipients derived afresh -/

/-- The recipients have been derived afresh in `v`, which has the records of `s` but for those of the computers: who has
left is released, and when someone has joined every held key is masked (R49, R53, R55). -/
structure Rederived (s v u : State) : Prop where
  released : computersReleased s.port s u
  masked : (∃ m, isRecipient u m = true ∧ isRecipient s m = false) → heldMasked s u
  unmasked : (∀ m, isRecipient u m = true → isRecipient s m = true) → u.router.mask = s.router.mask
  recipients : ∀ m, isRecipient u m = isRecipient v m
  broadcast : u.router.broadcast = s.router.broadcast
  linkKeys : u.router.linkKeys = s.router.linkKeys
  linkPointer : u.router.linkPointer = s.router.linkPointer
  rest : u = { v with
    router := u.router, ports := u.ports, controls := u.controls, sup := toldLeavers s u s.sup }

theorem LeaversReleased.links_kept (h : LeaversReleased s v t) (hl : ∀ k, linkIsRecipient v k = linkIsRecipient s k) :
    t.links = v.links ∧ t.router.linkKeys = v.router.linkKeys ∧ t.router.linkPointer = v.router.linkPointer := by
  have hg : ∀ k, linkGone s v k = false := by
    intro k
    unfold linkGone
    rw [hl]
    cases linkIsRecipient s k <;> simp
  refine ⟨vector_ext fun k => ?_, vector_ext fun k => ?_, vector_ext fun k => ?_⟩
  · exact (h.link k).trans (by rw [hg]; rfl)
  · exact (h.keys k).trans (by rw [hg]; rfl)
  · exact (h.pointer k).trans (by rw [hg]; rfl)

theorem rederive_comps (hv : v = { s with comps := v.comps }) : Rederived s v (rederive s v) := by
  have hb : BeforeRelease s v := by
    rw [hv]
    exact ⟨rfl, fun _ => .inl rfl, rfl, rfl, rfl, rfl, rfl, rfl⟩
  have hrel := releaseLeavers_effect s v
  have hl : ∀ k, linkIsRecipient v k = linkIsRecipient s k := by rw [hv]; exact fun _ => rfl
  obtain ⟨hlinks, hkeys, hptr⟩ := hrel.links_kept hl
  obtain ⟨ha, hsup⟩ := rederive_alike s v
  obtain ⟨-, hrec⟩ := rederive_sup s v
  have htold := rederive_told (old := s) (s := v) (by rw [hv]; exact fun _ => .inl rfl) (by rw [hv]; exact fun _ => rfl)
    (by rw [hv]; exact fun _ => rfl)
  have hj := someoneJoined_comps hl
  have hu : rederive s v = { releaseLeavers s v with router := { (releaseLeavers s v).router with
      mask := (rederive s v).router.mask } } := by
    unfold rederive
    dsimp only
    split <;> rfl
  have hmask : someoneJoined s v = true → rederive s v = maskHeld (releaseLeavers s v) := fun h => if_pos h
  have hkept : ¬ someoneJoined s v = true → rederive s v = releaseLeavers s v := fun h => if_neg h
  have hrest := hrel.releases
  have hrouter := hrel.router
  generalize releaseLeavers s v = y at *
  generalize rederive s v = z at *
  have hym : y.router.mask = s.router.mask := by rw [hrouter, hv]
  have hyk : y.keyboard = s.keyboard := by rw [hrest, hv]
  have hport := hb.computersReleased hrel ha (by rw [hu]) (by rw [hu]) (by rw [hu])
  have hvp : v.port = s.port := by rw [hv]; rfl
  have hvs : v.sup = s.sup := by rw [hv]
  refine ⟨hvp ▸ hport, fun hm => ?_, fun hm => ?_, hrec, ?_, ?_, ?_, ?_⟩
  · simp only [hrec] at hm
    rw [hmask (hj.mpr hm)]
    exact maskHeld_heldMasked hym hyk
  · simp only [hrec] at hm
    rw [hkept, hym]
    intro h
    obtain ⟨m, h1, h2⟩ := hj.mp h
    rw [hm m h1] at h2
    cases h2
  · rw [hu, hrouter, hv]
  · rw [hu]
    refine hkeys.trans ?_
    rw [hv]
  · rw [hu]
    refine hptr.trans ?_
    rw [hv]
  · rw [← hvs, ← htold]
    rw [hrest, hlinks] at hu
    rw [hu]

/-! ### The glide zone -/

theorem refreshGlideZone_eq (n : Comp) (s : State) :
    refreshGlideZone n s = s.modPointer fun p =>
      { p with glideZone := if s.pointer.glideFrom = .loc n then (s.comp n).zone else p.glideZone } := by
  unfold refreshGlideZone
  split
  next h => simp
  next h => simp [State.modPointer]

/-! ### A changed effective mode -/

/-- The capture on the computer ends, and the computer's carry with it. -/
theorem clearCapture_loc (ht : s.focus.target = .loc n) :
    (∀ m, (clearCapture s).port m =
      if m = n ∧ s.pointer.capture = true then carryCleared (s.port m) else s.port m) ∧
    clearCapture s = { s with
      pointer := { s.pointer with capture := false }, ports := (clearCapture s).ports } := by
  by_cases hc : s.pointer.capture = true
  · have hk : clearCapture s = clearCarry n (s.modPointer fun p => { p with capture := false }) := by
      simp only [clearCapture, hc, if_true, ht]
    refine ⟨fun m => ?_, by rw [hk]; rfl⟩
    rw [hk]
    simp only [clearCarry, State.modPort_port, State.modPointer_port, hc, and_true]
    split <;> rfl
  · have hk : clearCapture s = s := if_neg hc
    have hf : s.pointer.capture = false := by simpa using hc
    rw [hk]
    refine ⟨fun m => by simp [hf], ?_⟩
    rw [← hf]

/-- What a changed effective mode of a computer sets moving (R28, R145). -/
structure ModeFollowed (n : Comp) (changed : Bool) (mode : PointerMode) (s u : State) : Prop where
  link : ∀ k, u.link k =
    match Outbound.activeHead (s.link k).outbound with
    | some h => if h.comp = n ∧ changed = true then enqueueFrame (.mode (sentMode s h) mode) (s.link k) else s.link k
    | none => s.link k
  port : ∀ m, u.port m =
    if m = n ∧ changed = true ∧ mode = .absolute ∧ s.focus.target = .loc n ∧ s.pointer.capture = true then
      carryCleared (s.port m)
    else s.port m
  pointer : u.pointer = { s.pointer with
    capture := s.pointer.capture && !(s.focus.target == .loc n && changed && mode == .absolute) }
  rest : u = { s with pointer := u.pointer, ports := u.ports, links := u.links }

theorem followMode_followed (n : Comp) (old s : State) :
    ModeFollowed n (effMode s n != effMode old n) (effMode s n) s (followMode n old s) := by
  by_cases he : effMode old n = effMode s n
  · rw [followMode_same he, he, bne_self_eq_false]
    refine ⟨fun k => ?_, fun m => by simp, by simp, rfl⟩
    cases Outbound.activeHead (s.link k).outbound <;> simp
  · have hc : (effMode s n != effMode old n) = true := bne_iff_ne.mpr (Ne.symm he)
    rw [followMode_changed he, hc]
    have hcap : ∀ y, y = (if effMode s n = .absolute ∧ s.focus.target = .loc n then clearCapture s else s) →
        (∀ m, y.port m = if m = n ∧ effMode s n = .absolute ∧ s.focus.target = .loc n ∧ s.pointer.capture = true then
          carryCleared (s.port m) else s.port m) ∧
        y = { s with ports := y.ports, pointer := { s.pointer with
          capture := s.pointer.capture && !(s.focus.target == .loc n && effMode s n == .absolute) } } := by
      intro y hy
      by_cases ha : effMode s n = .absolute ∧ s.focus.target = .loc n
      · rw [if_pos ha] at hy
        obtain ⟨hp, hr⟩ := clearCapture_loc ha.2
        rw [hy]
        refine ⟨fun m => ?_, ?_⟩
        · rw [hp]; simp [ha]
        · simpa [ha] using hr
      · rw [if_neg ha] at hy
        rw [hy]
        refine ⟨fun m => (if_neg fun h => ha ⟨h.2.1, h.2.2.1⟩).symm, ?_⟩
        have hb : (s.focus.target == .loc n && effMode s n == .absolute) = false := by
          rw [Bool.and_eq_false_iff, beq_eq_false_iff_ne, beq_eq_false_iff_ne]
          exact (not_and_or.mp ha).symm
        simp [hb]
    obtain ⟨hp, hy⟩ := hcap _ rfl
    generalize (if effMode s n = .absolute ∧ s.focus.target = .loc n then clearCapture s else s) = y at *
    obtain ⟨hl, hu⟩ := sendModesOf_changed n y
    have hm : effMode y n = effMode s n := by
      have hf : (y.port n).pointerFormat = (s.port n).pointerFormat := by rw [hp]; split <;> rfl
      unfold effMode
      rw [hf, hy]
      rfl
    generalize allLinks.foldl (sendModeOfComp n) y = z at *
    refine ⟨fun k => ?_, fun m => ?_, ?_, ?_⟩
    · refine (hl k).trans ?_
      simp only [modeFormedOf, hm, and_true]
      rw [hy]
      rfl
    · rw [hu]
      exact (hp m).trans (by simp)
    · rw [hu, hy]
      simp
    · rw [hu, hy]

/-! ### The record written -/

/-- A computer that has the focus stays what it is among the recipients when a record is written. -/
theorem isRecipient_focus_comps (hv : v = { s with comps := v.comps }) (ht : s.focus.target = .loc n) :
    isRecipient v n = isRecipient s n := by
  have htv : v.focus.target = .loc n := by rw [hv]; exact ht
  have hb : blanked v = blanked s ∧ v.port n = s.port n ∧ v.control n = s.control n := by rw [hv]; exact ⟨rfl, rfl, rfl⟩
  obtain ⟨hb, hp, hc⟩ := hb
  simp only [isRecipient, ht, htv, hb, hp, hc, beq_self_eq_true, Bool.true_or]

/-- The record of Cn has been written and acted upon, but for the automatic grant (R3, R4). -/
def recordWritten (n : Comp) (r : CompRecord) (s : State) : State :=
  let u := rederive s (s.modComp n fun _ => r)
  followMode n s (if r.zone = (s.comp n).zone then u else refreshGlideZone n u)

/-- What is acted upon, with `mode` for the effective mode that the record leaves and `changed` for its change. -/
structure RecordWritten (n : Comp) (r : CompRecord) (changed : Bool) (mode : PointerMode) (s x : State) : Prop where
  comp : x.comp n = r
  others : ∀ m, m ≠ n → x.comp m = s.comp m
  glideZone : x.pointer.glideZone =
    if r.zone ≠ (s.comp n).zone ∧ s.pointer.glideFrom = .loc n then r.zone else s.pointer.glideZone
  link : ∀ k, x.link k =
    match Outbound.activeHead (s.link k).outbound with
    | some h => if h.comp = n ∧ changed = true then enqueueFrame (.mode (sentMode s h) mode) (s.link k) else s.link k
    | none => s.link k
  released : computersReleased
    (fun m =>
      if m = n ∧ changed = true ∧ mode = .absolute ∧ s.focus.target = .loc n ∧ s.pointer.capture = true then
        carryCleared (s.port m)
      else s.port m) s x
  masked : (∃ m, isRecipient x m = true ∧ isRecipient s m = false) → heldMasked s x
  unmasked : (∀ m, isRecipient x m = true → isRecipient s m = true) → x.router.mask = s.router.mask
  broadcast : x.router.broadcast = s.router.broadcast
  linkKeys : x.router.linkKeys = s.router.linkKeys
  linkPointer : x.router.linkPointer = s.router.linkPointer
  capture : x.pointer.capture = (s.pointer.capture && !(s.focus.target == .loc n && changed && mode == .absolute))
  rest : x = { s with
    comps := x.comps, router := x.router, ports := x.ports, controls := x.controls, links := x.links
    pointer := { s.pointer with glideZone := x.pointer.glideZone, capture := x.pointer.capture }
    sup := toldLeavers s x s.sup }

theorem pushKey_pointerFormat (k : KeyRecord) (p : Port) : (pushKey k p).pointerFormat = p.pointerFormat := by
  unfold pushKey
  dsimp only
  split <;> rfl

theorem pushPointer_pointerFormat (k : PointerRecord) (p : Port) : (pushPointer k p).pointerFormat = p.pointerFormat := by
  unfold pushPointer
  dsimp only
  split <;> rfl

theorem releasedPort_pointerFormat (m : Comp) (p : Port) : (releasedPort s m p).pointerFormat = p.pointerFormat := by
  unfold releasedPort
  cases Machine.emptyRecordDue s m <;> cases Machine.noButtonsDue s m <;>
    simp [pushKey_pointerFormat, pushPointer_pointerFormat]

theorem computersReleased_pointerFormat (h : computersReleased s.port s u) (m : Comp) :
    (u.port m).pointerFormat = (s.port m).pointerFormat := by
  obtain ⟨⟨hp, -, -⟩, -⟩ := h m
  rw [hp]
  split
  · exact releasedPort_pointerFormat ..
  · rfl

theorem carryCleared_ite_bus (c : Prop) [Decidable c] (p : Port) : (if c then carryCleared p else p).bus = p.bus := by
  split <;> rfl

/-- A carry cleared after the releases, on a computer that none of them releases. -/
theorem computersReleased_carry {c : Comp → Prop} [DecidablePred c] (h : computersReleased s.port s u)
    (hp : ∀ m, x.port m = if c m then carryCleared (u.port m) else u.port m)
    (hc : ∀ m, c m → isRecipient u m = isRecipient s m) (hx : ∀ m, isRecipient x m = isRecipient u m)
    (hr : x.router = u.router) (hctl : x.controls = u.controls) (hn : x.now = u.now) :
    computersReleased (fun m => if c m then carryCleared (s.port m) else s.port m) s x := by
  intro m
  obtain ⟨⟨hport, hkey, hptr⟩, htouch⟩ := h m
  have hxk : x.lastKey m = u.lastKey m := by unfold State.lastKey; rw [hr]
  have hxl : x.lastPointer m = u.lastPointer m := by unfold State.lastPointer; rw [hr]
  have hxc : x.control m = u.control m := by unfold State.control; rw [hctl]
  unfold computerLetGo releaseTouches
  unfold releaseTouches at htouch
  rw [hx, hxk, hxl, hxc, hn]
  refine ⟨⟨?_, hkey, hptr⟩, htouch⟩
  rw [hp, hport]
  by_cases hm : c m
  · have hg : (isRecipient s m && !isRecipient u m) = false := by rw [hc m hm]; cases isRecipient s m <;> rfl
    simp [hm, hg]
  · simp [hm]

/-- The effective pointer mode that a pointer mode leaves a computer with (R4). -/
def modeLeft (n : Comp) (p : PointerMode) (s : State) : PointerMode :=
  if p = .relative ∨ (s.port n).pointerFormat = .boot then .relative else .absolute

theorem recordWritten_written (n : Comp) (r : CompRecord) (s : State) :
    RecordWritten n r (modeLeft n r.pointerMode s != effMode s n) (modeLeft n r.pointerMode s) s (recordWritten n r s) := by
  have hd := rederive_comps (s := s) (v := s.modComp n fun _ => r) rfl
  have hstay : s.focus.target = .loc n → isRecipient (s.modComp n fun _ => r) n = isRecipient s n :=
    isRecipient_focus_comps rfl
  have hcn : (s.modComp n fun _ => r).comp n = r := State.modComp_comp_same ..
  have hcm : ∀ m, m ≠ n → (s.modComp n fun _ => r).comp m = s.comp m := fun m hm => State.modComp_comp_ne _ _ _ _ hm
  have hw : recordWritten n r s = followMode n s (if r.zone = (s.comp n).zone then rederive s (s.modComp n fun _ => r)
      else refreshGlideZone n (rederive s (s.modComp n fun _ => r))) := rfl
  generalize hv : (s.modComp n fun _ => r) = v at *
  generalize rederive s v = u at *
  obtain ⟨hrel, hmask, hunmask, hrec, hbc, hlk, hlp, hrest⟩ := hd
  have hucn : u.comp n = r := by rw [hrest]; exact hcn
  have hg : ∀ y, y = (if r.zone = (s.comp n).zone then u else refreshGlideZone n u) →
      y = { u with pointer := { s.pointer with glideZone :=
        if r.zone ≠ (s.comp n).zone ∧ s.pointer.glideFrom = .loc n then r.zone else s.pointer.glideZone } } := by
    have hup : u.pointer = s.pointer := by rw [hrest, ← hv]; rfl
    intro y hy
    rw [hy]
    split
    next hz => simp [hz, ← hup]
    next hz =>
      rw [refreshGlideZone_eq, hucn]
      simp [hz, hup, State.modPointer]
  have hy := hg _ rfl
  have hf := followMode_followed n s (if r.zone = (s.comp n).zone then u else refreshGlideZone n u)
  rw [← hw] at hf
  generalize (if r.zone = (s.comp n).zone then u else refreshGlideZone n u) = y at *
  generalize recordWritten n r s = x at *
  have hmode : effMode y n = modeLeft n r.pointerMode s := by
    have h1 : y.comp n = r := by rw [hy]; exact hucn
    have h2 : (y.port n).pointerFormat = (s.port n).pointerFormat := by
      rw [← computersReleased_pointerFormat hrel n, hy]
      rfl
    unfold effMode modeLeft
    rw [h1, h2]
  rw [hmode] at hf
  generalize modeLeft n r.pointerMode s = mode at *
  obtain ⟨hlink, hport, hptr, hxr⟩ := hf
  have hyl : ∀ k, y.link k = s.link k := by rw [hy, hrest, ← hv]; exact fun _ => rfl
  have hsent : ∀ h, sentMode y h = sentMode s h := by rw [hy, hrest, ← hv]; exact fun _ => rfl
  have hyp : y.pointer.capture = s.pointer.capture := by rw [hy]
  have hyf : y.focus = s.focus := by rw [hy, hrest, ← hv]; rfl
  have hyport : ∀ m, y.port m = u.port m := by rw [hy]; exact fun _ => rfl
  have hxrouter : x.router = u.router := by rw [hxr, hy]
  have hxctl : x.controls = u.controls := by rw [hxr, hy]
  have hxnow : x.now = u.now := by rw [hxr, hy]
  have hxcomps : x.comps = v.comps := by rw [hxr, hy, hrest]
  have hxcomp : ∀ m, x.comp m = v.comp m := fun m => by unfold State.comp; rw [hxcomps]
  simp only [hyl, hsent] at hlink
  simp only [hyport, hyf, hyp] at hport
  have hxrec : ∀ m, isRecipient x m = isRecipient u m :=
    isRecipient_congr (by rw [hxr, hy]) (by rw [hxr, hy]) (by rw [hxr, hy]) (by rw [hxrouter])
      (fun m => by rw [hport]; exact carryCleared_ite_bus ..) (fun m => by unfold State.control; rw [hxctl])
  have hm : heldMasked s u → heldMasked s x := fun h c => by rw [hxrouter]; exact h c
  refine ⟨(hxcomp n).trans hcn, fun m hm => (hxcomp m).trans (hcm m hm), by rw [hptr, hy], hlink, ?_, fun h => hm (hmask ?_),
    fun h => ?_, hxrouter ▸ hbc, hxrouter ▸ hlk, hxrouter ▸ hlp, by rw [hptr, hyp, hyf], ?_⟩
  · refine computersReleased_carry hrel hport (fun m h => ?_) hxrec hxrouter hxctl hxnow
    obtain ⟨rfl, -, -, ht, -⟩ := h
    rw [hrec, hstay ht]
  · simpa only [hxrec] using h
  · rw [hxrouter]
    exact hunmask (by simpa only [hxrec] using h)
  · have hsup : toldLeavers s x s.sup = toldLeavers s u s.sup := by
      unfold toldLeavers
      simp only [hxrec]
    have hxp : x.pointer = { s.pointer with glideZone := x.pointer.glideZone, capture := x.pointer.capture } := by
      rw [hptr, hy]
    rw [hsup, ← hxp, hxcomps, hxrouter, hxctl, ← hv]
    rw [hy, hrest, ← hv] at hxr
    exact hxr

/-! ### The automatic grant -/

/-- A release leaves the holder and the claims. -/
theorem computersReleased_control {base : Comp → Port} (h : computersReleased base s x) (m : Comp) :
    (x.control m).holder = (s.control m).holder ∧ (x.control m).claims = (s.control m).claims := by
  obtain ⟨-, ht⟩ := h m
  rw [ht]
  split <;> exact ⟨rfl, rfl⟩

/-- The conditions of R155 but for a claim to grant. -/
theorem autoGrantDue_iff : autoGrantDue x n = true ↔
    (x.control n).claims ≠ [] ∧ (x.comp n).policy = .auto ∧ (x.control n).holder = .desk ∧
      ∀ d, (x.control n).lastDesk = some d → (x.comp n).quietTime ≤ x.now - d := by
  unfold autoGrantDue quietMet
  cases (x.control n).lastDesk with
  | none => simp; tauto
  | some d => simp; tauto

theorem autoGrant_cons {c : Claim} {cs : List Claim} (h : (x.control n).claims = c :: cs) :
    autoGrant n x = if autoGrantDue x n then grantTo n c.link .auto x else x := by
  simp only [autoGrant, h]

theorem autoGrant_not_due (h : ¬ autoGrantDue x n = true) : autoGrant n x = x := if_neg h

/-- The automatic grant is judged after a changed quiet time or policy, and has something to grant or not (R155). -/
def grantDue (n : Comp) (r : CompRecord) (s x : State) : Prop :=
  (r.quietTime ≠ (s.comp n).quietTime ∨ r.policy ≠ (s.comp n).policy) ∧ r.policy = .auto ∧
    (s.control n).holder = .desk ∧ ∀ d, (x.control n).lastDesk = some d → r.quietTime ≤ s.now - d

theorem writeComp_eq (n : Comp) (r : CompRecord) (s : State) : writeComp n r s =
    if r.quietTime = (s.comp n).quietTime ∧ r.policy = (s.comp n).policy then recordWritten n r s
    else autoGrant n (recordWritten n r s) := rfl

theorem recordWritten_autoGrantDue (n : Comp) (r : CompRecord) (s : State) :
    autoGrantDue (recordWritten n r s) n = true ↔
      (s.control n).claims ≠ [] ∧ r.policy = .auto ∧ (s.control n).holder = .desk ∧
        ∀ d, ((recordWritten n r s).control n).lastDesk = some d → r.quietTime ≤ s.now - d := by
  have hw := recordWritten_written n r s
  obtain ⟨hh, hc⟩ := computersReleased_control hw.released n
  have hn : (recordWritten n r s).now = s.now := by rw [hw.rest]
  rw [autoGrantDue_iff, hh, hc, hw.comp, hn]

theorem writeComp_granted {c : Claim} {cs : List Claim} (h : grantDue n r s (recordWritten n r s))
    (hc : (s.control n).claims = c :: cs) : writeComp n r s = grantTo n c.link .auto (recordWritten n r s) := by
  obtain ⟨hch, hrest⟩ := h
  have hx : ((recordWritten n r s).control n).claims = c :: cs :=
    ((computersReleased_control (recordWritten_written n r s).released n).2).trans hc
  have hdue : autoGrantDue (recordWritten n r s) n = true :=
    (recordWritten_autoGrantDue n r s).mpr ⟨by rw [hc]; exact List.cons_ne_nil c cs, hrest⟩
  rw [writeComp_eq, if_neg (by tauto), autoGrant_cons hx, if_pos hdue]

theorem writeComp_not_granted (h : ¬ grantDue n r s (recordWritten n r s) ∨ (s.control n).claims = []) :
    writeComp n r s = recordWritten n r s := by
  rw [writeComp_eq]
  split
  · rfl
  next hch =>
    refine autoGrant_not_due fun hdue => ?_
    obtain ⟨hc, hrest⟩ := (recordWritten_autoGrantDue n r s).mp hdue
    exact h.elim (fun h => h ⟨by tauto, hrest⟩) hc

end Sys2Proof.Machine
end

section
/-! The computer record (O16). -/

open Sys2Proof Sys2Proof.Machine

/-- Settles O16: the bytes are read as the clamped record, which is acted upon in turn. -/
theorem computerRecordWritten : Obligations.ComputerRecordWritten := by
  refine fun tag s => ⟨fun c z p sp q1 q0 aw wm t1 t0 w1 w0 vw1 vw0 vh1 vh0 => ?_,
    fun n z p sp q aw wm wt pw vw vh hq hwt hpw hvw hvw' hvh hvh' => ?_⟩
  · intro r hbad ht
    exact exec_request r judgeSetComputer s ht _ _ _ (judgeSetComputer_none hbad)
  intro r old new ht
  have hj : judgeSetComputer r.body (begun r s) = setComputer n new (begun r s) :=
    judgeSetComputer_bytes hq hwt hpw hvw hvw' hvh hvh'
  refine ⟨fun hl => ?_, fun hl => ?_⟩
  · exact exec_request r judgeSetComputer s ht _ _ _ (hj.trans (if_pos (compLocked_iff.mpr hl)))
  have hw := recordWritten_written n new (begun r s)
  have hok : judgeSetComputer r.body (begun r s) = okay (writeComp n new (begun r s)) :=
    hj.trans (if_neg fun h => hl (compLocked_iff.mp h))
  refine ⟨recordWritten n new (begun r s), writeComp n new (begun r s), exec_request r judgeSetComputer s ht _ _ _ hok,
    hw.comp, hw.others, hw.glideZone, ⟨hw.link, hw.released, hw.masked, hw.unmasked, hw.broadcast, hw.linkKeys, hw.linkPointer,
    hw.capture⟩, hw.rest, ?_⟩
  exact ⟨fun c cs hdue hc => writeComp_granted (s := begun r s) hdue hc ▸ grantTo_made .., fun h =>
    writeComp_not_granted (s := begun r s) h⟩

end

section
/-!
SUPPORT. The walk at the edges of a tile (R11, R22 to R25).
-/

namespace Sys2Proof.Machine

open Sys2Proof

variable {s t u x : State} {a : Axis} {high : Bool} {b c tile : Tile} {l : List Tile} {q o : Nat} {m : Int}

/-! ### Neighbours -/

/-- `b` abuts `t` at an end of an axis, its span on the other axis containing the coordinate (R11). -/
def Touches (a : Axis) (high : Bool) (t b : Tile) (q : Nat) : Prop :=
  (if high then Tile.first b a = Tile.first t a + Tile.size t a else Tile.first t a = Tile.first b a + Tile.size b a) ∧
    Tile.first b a.other ≤ q ∧ q < Tile.first b a.other + Tile.size b a.other

theorem abuts_iff : abuts a high tile b q = true ↔ Touches a high tile b q := by
  unfold abuts Touches
  cases high <;> simp

theorem neighbourAt_none (h : ∀ b ∈ l, ¬ Touches a high tile b q) : neighbourAt l a high tile q = none :=
  List.find?_eq_none.mpr fun b hb => by rw [abuts_iff]; exact h b hb

/-- Tiles of a valid layout with a desk unit in common are one tile. -/
theorem validLayout_unique (hv : validLayout l) (hb : b ∈ l) (hc : c ∈ l) {x y : Nat} (h1 : Tile.contains b x y = true)
    (h2 : Tile.contains c x y = true) : b = c := by
  have : Std.Symm tilesDisjoint := ⟨fun _ _ => tilesDisjoint_symm⟩
  have hd : l.Pairwise tilesDisjoint := hv.2.2.2
  by_contra hne
  have hbc := (hd.forall hb hc hne).2 x y h1
  rw [hbc] at h2
  cases h2

/-- A tile that abuts the pointer's tile contains the desk unit next to it. -/
theorem Touches.contains {p : DeskPointer} (h : Touches a high tile b (DeskPointer.pos p a.other))
    (hs : 1 ≤ Tile.size b a) :
    let e := DeskPointer.setPos p a (if high then Tile.first tile a + Tile.size tile a else Tile.first tile a - 1)
    Tile.contains b e.px e.py = true := by
  obtain ⟨ha, ho⟩ := h
  dsimp only
  rw [contains_iff_axes a, setPos_pos, setPos_pos_other]
  refine ⟨?_, ho⟩
  cases high
  · simp only [Bool.false_eq_true, if_false] at ha ⊢
    omega
  · simp only [if_true] at ha ⊢
    omega

/-- A valid layout has one neighbour at a crossing coordinate. -/
theorem neighbourAt_some {p : DeskPointer} (hv : validLayout l) (hb : b ∈ l)
    (h : Touches a high tile b (DeskPointer.pos p a.other)) : neighbourAt l a high tile (DeskPointer.pos p a.other) = some b := by
  have hs : (neighbourAt l a high tile (DeskPointer.pos p a.other)).isSome :=
    List.find?_isSome.mpr ⟨b, hb, abuts_iff.mpr h⟩
  obtain ⟨c, hc⟩ := Option.isSome_iff_exists.mp hs
  have hcl := List.mem_of_find?_eq_some hc
  have hca := List.find?_some hc
  have hct : Touches a high tile c (DeskPointer.pos p a.other) := abuts_iff.mp hca
  have size : ∀ d ∈ l, 1 ≤ Tile.size d a := fun d hd => le_trans (by omega) (Tile.size_pos hv hd a)
  rw [hc, validLayout_unique hv hcl hb (hct.contains (size c hcl)) (h.contains (size b hb))]

theorem crossingBlocked_iff : crossingBlocked s b = true ↔
    s.desk.crossing = .block ∧ ∃ z, sourceZone s (assignmentOf s b.monitor) = some z ∧ z ≠ s.pointer.glideZone := by
  unfold crossingBlocked
  cases sourceZone s (assignmentOf s b.monitor) <;> simp

/-! ### The pressure -/

theorem pushPressure_kept {p : DeskPointer} {edge : Monitor × Side} {now : Nat} (he : p.pressure.edge = some edge)
    (hw : ∀ u, p.pressure.lastPush = some u → now ≤ u + p.dwell) :
    pushPressure p edge o now = ⟨some edge, min 1023 (p.pressure.amount + o), some now⟩ := by
  unfold pushPressure
  simp only [if_pos he]
  split
  next u hu => rw [if_neg (Nat.not_lt.mpr (hw u hu))]; rfl
  · rfl

theorem pushPressure_fresh {p : DeskPointer} {edge : Monitor × Side} {now : Nat}
    (h : ¬ (p.pressure.edge = some edge ∧ ∀ u, p.pressure.lastPush = some u → now ≤ u + p.dwell)) :
    pushPressure p edge o now = ⟨some edge, min 1023 o, some now⟩ := by
  have hz : (⟨some edge, min Config.pressureMax (Pressure.none.amount + o), some now⟩ : Pressure) =
      ⟨some edge, min 1023 o, some now⟩ := by simp [Pressure.none, Config.pressureMax]
  unfold pushPressure
  by_cases he : p.pressure.edge = some edge
  · simp only [if_pos he]
    split
    next u hu =>
      have hl : u + p.dwell < now := by
        by_contra hn
        refine h ⟨he, fun v hv => ?_⟩
        rw [hu] at hv
        cases hv
        exact Nat.not_lt.mp hn
      rw [if_pos hl]
      exact hz
    next hu => exact absurd ⟨he, fun v hv => by rw [hu] at hv; cases hv⟩ h
  · simp only [if_neg he]
    exact hz

/-! ### The walk beyond an edge -/

/-- A move that leaves the pointer's tile by `o` is a push on that edge (R22). -/
theorem walk_beyond (hm : m ≠ 0) (ht : pointerTile s = some tile) (ho : 1 ≤ o) (hs : 1 ≤ Tile.size tile a)
    (hh : high = true → (DeskPointer.pos s.pointer a : Int) + m = Tile.last tile a + o)
    (hl : high = false → (DeskPointer.pos s.pointer a : Int) + m = Tile.first tile a - o) :
    walk a m s = pushOut a high tile o (s.modPointer (relieve a m)) := by
  unfold walk
  rw [if_neg hm]
  simp only [ht]
  cases high
  · have hc := hl rfl
    rw [hc, if_pos (by omega), show ((Tile.first tile a : Int) - (Tile.first tile a - o)).toNat = o by omega]
  · have hc := hh rfl
    have hlast : Tile.last tile a + 1 = Tile.first tile a + Tile.size tile a := by unfold Tile.last; omega
    rw [hc, if_neg (by omega), if_pos (by omega), show ((Tile.last tile a : Int) + o - Tile.last tile a).toNat = o by omega]

theorem relieve_glideZone (a : Axis) (m : Int) (p : DeskPointer) : (relieve a m p).glideZone = p.glideZone := by
  unfold relieve
  split
  · split <;> rfl
  · rfl

theorem crossingBlocked_relieved : crossingBlocked (s.modPointer (relieve a m)) b = crossingBlocked s b := by
  unfold crossingBlocked
  rw [show (s.modPointer (relieve a m)).pointer.glideZone = s.pointer.glideZone from relieve_glideZone a m s.pointer]
  rfl

/-- A push with no neighbour, or a blocked one, clamps to the edge (R22, R24). -/
theorem pushOut_clamped (h : ∀ b, neighbourAt s.layout a high tile (DeskPointer.pos s.pointer a.other) = some b →
      crossingBlocked s b = true) :
    pushOut a high tile o (s.modPointer (relieve a m)) = { s with
      pointer := DeskPointer.setPos (relieve a m s.pointer) a (if high then Tile.last tile a else Tile.first tile a) } := by
  unfold pushOut
  simp only [State.modPointer_pointer, relieve_pos, State.modPointer_layout, crossingBlocked_relieved]
  split
  next b hb => rw [if_pos (h b hb)]; rfl
  · rfl

/-- A push onto an unblocked neighbour gathers pressure or crosses (R23, R25). -/
theorem pushOut_pushed (hb : neighbourAt s.layout a high tile (DeskPointer.pos s.pointer a.other) = some b)
    (h : crossingBlocked s b = false) :
    pushOut a high tile o (s.modPointer (relieve a m)) =
      { s with pointer := pushEdge a high tile b o s.now (relieve a m s.pointer) } := by
  unfold pushOut
  simp only [State.modPointer_pointer, relieve_pos, State.modPointer_layout, crossingBlocked_relieved, hb, h]
  rfl

theorem pushEdge_below {p : DeskPointer} {now : Nat} {q : Pressure}
    (hq : pushPressure p (tile.monitor, sideOf a high) o now = q) (h : q.amount < p.threshold) :
    pushEdge a high tile b o now p =
      { DeskPointer.setPos p a (if high then Tile.last tile a else Tile.first tile a) with pressure := q } := by
  unfold pushEdge
  simp only [hq]
  exact if_neg (Nat.not_le.mpr h)

theorem pushEdge_crosses {p : DeskPointer} {now : Nat} {q : Pressure}
    (hq : pushPressure p (tile.monitor, sideOf a high) o now = q) (h : p.threshold ≤ q.amount) :
    pushEdge a high tile b o now p =
      { DeskPointer.setPos p a (if high then Tile.first b a else Tile.last b a) with
        rx := 0, ry := 0, pressure := ⟨none, 0, none⟩ } := by
  unfold pushEdge
  simp only [hq, if_pos h]
  cases a <;> rfl

end Sys2Proof.Machine
end

section
/-!
SUPPORT. A mouse report that glides: the walk and the re-evaluation (R21), and what is handed on from where it ends (R27,
R33 to R36, R166).
-/

namespace Sys2Proof.Machine

open Sys2Proof

variable {s t u v x : State} {a : Axis} {m : Int} {n : Comp} {tile : Tile} {k : LinkId} {h : Head} {e : Motion}

/-! ### What a walk leaves -/

/-- Only the mouse, the pointer's place and what goes with a place have been written. -/
structure Walked (s v : State) : Prop where
  rest : v = { s with mouse := v.mouse, pointer := v.pointer }
  capture : v.pointer.capture = s.pointer.capture
  glideZone : v.pointer.glideZone = s.pointer.glideZone
  glideFrom : v.pointer.glideFrom = s.pointer.glideFrom

theorem Walked.refl (s : State) : Walked s s := ⟨rfl, rfl, rfl, rfl⟩

theorem Walked.trans (h : Walked s t) (g : Walked t u) : Walked s u := by
  refine ⟨?_, g.capture.trans h.capture, g.glideZone.trans h.glideZone, g.glideFrom.trans h.glideFrom⟩
  conv_lhs => rw [g.rest, h.rest]

theorem modPointer_walked {f : DeskPointer → DeskPointer} (hc : (f s.pointer).capture = s.pointer.capture)
    (hz : (f s.pointer).glideZone = s.pointer.glideZone) (hf : (f s.pointer).glideFrom = s.pointer.glideFrom) :
    Walked s (s.modPointer f) := ⟨rfl, hc, hz, hf⟩

theorem setPos_walked (a : Axis) (q : Nat) : Walked s (s.modPointer fun p => DeskPointer.setPos p a q) := by
  cases a <;> exact modPointer_walked rfl rfl rfl

theorem relieve_walked (a : Axis) (m : Int) (s : State) : Walked s (s.modPointer (relieve a m)) := by
  have hr : ∀ p : DeskPointer, (relieve a m p).capture = p.capture ∧ (relieve a m p).glideZone = p.glideZone ∧
      (relieve a m p).glideFrom = p.glideFrom := by
    intro p
    unfold relieve
    split
    · split <;> exact ⟨rfl, rfl, rfl⟩
    · exact ⟨rfl, rfl, rfl⟩
  obtain ⟨hc, hz, hf⟩ := hr s.pointer
  exact modPointer_walked hc hz hf

theorem pushOut_walked (a : Axis) (high : Bool) (b : Tile) (o : Nat) (s : State) : Walked s (pushOut a high b o s) := by
  unfold pushOut
  dsimp only
  split
  · split
    · exact setPos_walked ..
    · refine modPointer_walked ?_ ?_ ?_ <;> unfold pushEdge <;> dsimp only <;> split <;> cases a <;> rfl
  · exact setPos_walked ..

theorem walk_walked (a : Axis) (m : Int) (s : State) : Walked s (walk a m s) := by
  have hr := relieve_walked a m s
  unfold walk
  split
  · exact .refl s
  · split
    · exact .refl s
    · dsimp only
      split
      · exact hr.trans (pushOut_walked ..)
      · split
        · exact hr.trans (pushOut_walked ..)
        · exact hr.trans (setPos_walked ..)

/-! ### A walk does not look at the mouse -/

theorem pushOut_setMouse (a : Axis) (high : Bool) (b : Tile) (o : Nat) (d : MousePort) (s : State) :
    pushOut a high b o (s.setMouse d) = (pushOut a high b o s).setMouse d := by
  have hb : ∀ c, crossingBlocked (s.setMouse d) c = crossingBlocked s c := fun _ => rfl
  simp only [pushOut, hb, State.setMouse_layout, State.setMouse_pointer]
  cases neighbourAt s.layout a high b (DeskPointer.pos s.pointer a.other) with
  | none => rfl
  | some c =>
    dsimp only
    split <;> rfl

theorem walk_setMouse (a : Axis) (m : Int) (d : MousePort) (s : State) : walk a m (s.setMouse d) = (walk a m s).setMouse d := by
  have ht : pointerTile (s.setMouse d) = pointerTile s := rfl
  have hr : (s.setMouse d).modPointer (relieve a m) = (s.modPointer (relieve a m)).setMouse d := rfl
  unfold walk
  rw [ht, hr]
  split
  · rfl
  · cases pointerTile s with
    | none => rfl
    | some b =>
      simp only [State.setMouse_pointer, pushOut_setMouse]
      split
      · rfl
      · split <;> rfl

/-! ### The re-evaluation after the walk -/

theorem Walked.refocused (hv : Walked s v) (h : refocused v u) : refocused s u := by
  obtain ⟨hrest, -, hz, hf⟩ := hv
  rw [hrest] at h
  obtain ⟨hcap, hmask, hcomps, hlinks, hkey, hnone, hloc, hrem⟩ := h
  exact ⟨hcap, hmask, hcomps, hlinks, hkey, fun ht => ⟨(hnone ht).1.trans hz, (hnone ht).2.trans hf⟩, hloc, hrem⟩

/-- What a glide leaves of the focus and of what follows it (R21, R26, R40). -/
structure Glided (s v x : State) : Prop where
  moved : ∀ m, pointerMonitor v = some m → pointerMonitor s ≠ some m →
    x.focus = ⟨formedTarget s (assignmentOf s m), .glide, some m⟩
  stayed : pointerMonitor v = none ∨ pointerMonitor v = pointerMonitor s → x = v
  same : x.focus.target = s.focus.target → x.pointer = v.pointer ∧ x.ports = s.ports ∧ targetKept s x
  changed : x.focus.target ≠ s.focus.target → refocused s x
  pointer : x.pointer = { v.pointer with glideZone := x.pointer.glideZone, glideFrom := x.pointer.glideFrom }
  broadcast : x.router.broadcast = s.router.broadcast
  lines : linesFollow s x
  rest : x = { s with
    mouse := v.mouse, pointer := x.pointer, focus := x.focus, router := x.router, ports := x.ports
    controls := x.controls, keyboard := x.keyboard, lines := x.lines, links := x.links, sup := toldWrite s x s.sup }

theorem Walked.glided_stays (hv : Walked s v)
    (hm : ∀ m, pointerMonitor v = some m → pointerMonitor s = some m) : Glided s v v := by
  obtain ⟨hrest, hc, hz, hf⟩ := hv
  have hfocus : v.focus = s.focus := by rw [hrest]
  have hsup : toldWrite s v s.sup = s.sup := by
    rw [hrest]
    exact toldWrite_same rfl (fun _ => rfl) _
  refine ⟨fun m hm' hn => absurd (hm m hm') hn, fun _ => rfl, fun _ => ⟨rfl, ?_, ?_⟩, fun h => absurd (by rw [hfocus]) h, rfl,
    ?_, linesFollow_same (by rw [hfocus]) ?_, ?_⟩
  · rw [hrest]
  · exact ⟨hz, hf, by rw [hrest], by rw [hrest], by rw [hrest], by rw [hrest]⟩
  · rw [hrest]
  · rw [hrest]
    exact fun _ => rfl
  · rw [hsup]
    conv_lhs => rw [hrest]
    rw [hrest]

theorem Walked.glided_moved (hv : Walked s v) (hcap : s.pointer.capture = false) {m : Monitor} (hm : pointerMonitor v = some m)
    (hn : pointerMonitor s ≠ some m) : Glided s v (reevaluate m v) := by
  obtain ⟨hfocus, hsame, hchanged, hlines, hbc, hptr, hrest⟩ := reevaluate_effect m v
  have href := fun h => hv.refocused (u := reevaluate m v) h
  generalize reevaluate m v = x at *
  obtain ⟨hvs, hc, hz, hf⟩ := hv
  have hvf : v.focus = s.focus := by rw [hvs]
  have hform : formedTarget v (assignmentOf v m) = formedTarget s (assignmentOf s m) := by rw [hvs]; rfl
  rw [hvf] at hsame hchanged
  refine ⟨fun m' hm' _ => ?_, fun h => ?_, fun h => ?_, fun h => href (hchanged h), ?_, ?_, ?_, ?_⟩
  · rw [hm] at hm'
    cases hm'
    rw [hfocus, hform]
  · rw [hm] at h
    exact h.elim (fun h => by cases h) fun h => absurd h.symm hn
  · obtain ⟨hp, hports, -, -, hr, hctl, hk, hl⟩ := hsame h
    refine ⟨hp, by rw [hports, hvs], by rw [hp, hz], by rw [hp, hf], by rw [hr, hvs], by rw [hctl, hvs], by rw [hk, hvs], by rw [hl, hvs]⟩
  · have hxc : x.pointer.capture = v.pointer.capture := by
      by_cases ht : x.focus.target = s.focus.target
      · rw [(hsame ht).1]
      · rw [(hchanged ht).1, hc, hcap]
    exact hptr.trans (by rw [hxc])
  · rw [hbc, hvs]
  · rw [hvs] at hlines
    exact hlines
  · rw [hvs] at hrest
    exact hrest

theorem glided_effect (hv : Walked s v) (hcap : s.pointer.capture = false) :
    Glided s v (reevaluateIfMoved (pointerMonitor s) v) := by
  unfold reevaluateIfMoved
  split
  next m hm =>
    split
    next h => exact hv.glided_stays fun m' hm' => by rw [h, ← hm, hm']
    next h => exact hv.glided_moved hcap hm h
  next hm => exact hv.glided_stays fun m' hm' => by rw [hm] at hm'; cases hm'

end Sys2Proof.Machine
end

section
/-!
SUPPORT. What a glided report hands on from where it ends (R27, R33 to R36, R166).
-/

namespace Sys2Proof.Machine

open Sys2Proof

variable {s t u v x : State} {n : Comp} {tile : Tile} {k : LinkId} {h : Head} {e : Motion}

/-! ### The press that wakes -/

theorem wakeIfSuspended_eq (n : Comp) (press : Bool) (v : State) : wakeIfSuspended n press v = woken n press v := by
  unfold wakeIfSuspended woken autoWake
  by_cases h : press = true ∧ (v.port n).bus = .suspended
  · by_cases ha : (v.comp n).autoWake = true <;> simp [h, ha]
  · have hf : (press && (v.port n).bus == .suspended) = false := by
      rw [Bool.eq_false_iff]
      exact fun hp => h (by simpa using hp)
    rw [hf, if_neg Bool.false_ne_true, if_neg fun hp => h ⟨hp.1, hp.2.1⟩]

/-- The press looks at the focus and the holders alone. -/
theorem wakeByButton_eq (hf : v.focus = x.focus) (hh : ∀ n, (v.control n).holder = (x.control n).holder) :
    wakeByButton e v =
      match x.focus.target with
      | .loc n => if (x.control n).holder = .desk then woken n (e.buttons &&& ~~~e.before != 0) v else v
      | _ => v := by
  unfold wakeByButton
  rw [hf]
  cases x.focus.target with
  | loc n => simp only [hh, wakeIfSuspended_eq]
  | rem k => rfl
  | none => rfl

/-! ### Where the pointer has ended -/

theorem attached_tile (ht : pointerTile x = some tile) :
    attached x = showsFocus x.focus.target (assignmentOf x tile.monitor) := by
  simp only [attached, pointerMonitor, ht, Option.map_some]

theorem focus_of_head (ha : attached x = true) (ht : pointerTile x = some tile)
    (has : assignmentOf x tile.monitor = some (.head h)) : x.focus.target = .loc h.comp := by
  rw [attached_tile ht, has] at ha
  cases hf : x.focus.target with
  | loc n => rw [hf] at ha; rw [show h.comp = n by simpa [showsFocus] using ha]
  | rem k => rw [hf] at ha; cases ha
  | none => rw [hf] at ha; cases ha

theorem focus_of_lane (ha : attached x = true) (ht : pointerTile x = some tile)
    (has : assignmentOf x tile.monitor = some (.lane k)) : x.focus.target = .rem k := by
  rw [attached_tile ht, has] at ha
  cases hf : x.focus.target with
  | loc n => rw [hf] at ha; cases ha
  | rem j => rw [hf] at ha; rw [show k = j by simpa [showsFocus] using ha]
  | none => rw [hf] at ha; cases ha

theorem activeOffer_eq_some {o : Offer} : activeOffer x k = some o ↔ (x.link k).inbound = .active o := by
  unfold activeOffer
  cases (x.link k).inbound <;> simp

theorem emitGlided_still (h : attached x = false ∨ capturable x = true) : emitGlided e x = x :=
  if_pos (by rcases h with h | h <;> simp [h])

theorem emitGlided_head (ha : attached x = true) (hc : capturable x = false) (ht : pointerTile x = some tile)
    (has : assignmentOf x tile.monitor = some (.head h)) :
    emitGlided e x = if (x.control h.comp).holder = .desk then emitAbsolute e tile h x else x := by
  unfold emitGlided
  rw [if_neg (by simp [ha, hc])]
  simp only [ht, focus_of_head ha ht has, has]

theorem emitGlided_lane (hb : x.blank.state = .clear) (ha : attached x = true) (hc : capturable x = false)
    (ht : pointerTile x = some tile) (has : assignmentOf x tile.monitor = some (.lane k)) :
    emitGlided e x =
      match activeOffer x k with
      | some o =>
        if (x.link k).viewer = .held ∧ ¬ (o.mode.width = 0 ∧ o.mode.height = 0) then emitFrame e tile k o.mode x else x
      | none => x := by
  have hf := focus_of_lane ha ht has
  have hr : linkIsRecipient x k = ((x.link k).viewer == .held) := by simp [linkIsRecipient, blanked, hb, hf]
  unfold emitGlided
  rw [if_neg (by simp [ha, hc])]
  simp only [ht, hf, hr]
  cases activeOffer x k with
  | none => rfl
  | some o =>
    have hl : laneState o.mode ≠ .absent ↔ ¬ (o.mode.width = 0 ∧ o.mode.height = 0) := by
      unfold laneState
      split
      next h => simp [h]
      next h => simp [h]
    simp only [hl, beq_iff_eq]

/-! ### The record for a port and the frame for a link -/

theorem deliverPointer_detached {f : Former} {r : PointerRecord} (hb : (x.port n).bus = .detached) :
    deliverPointer f n r x = x := by simp [deliverPointer, BusState.present, hb]

/-- A pointer record of the desk for a port that is not DETACHED. -/
structure PointerHanded (n : Comp) (r : PointerRecord) (x v : State) : Prop where
  port : v.port n = pushPointer r (x.port n)
  ports : ∀ m, m ≠ n → v.port m = x.port m
  control : v.control n = { x.control n with lastDesk := some x.now }
  controls : ∀ m, m ≠ n → v.control m = x.control m
  last : v.lastPointer n = some r
  lasts : ∀ m, m ≠ n → v.lastPointer m = x.lastPointer m
  rest : v = { x with
    ports := v.ports, controls := v.controls, router := { x.router with lastPointer := v.router.lastPointer }
    sup := toldPointer n r (x.port n) x.sup }

theorem deliverPointer_handed (r : PointerRecord) (hb : (x.port n).bus ≠ .detached) :
    PointerHanded n r x (deliverPointer .desk n r x) := by
  have heff := fun m => deliverPointer_effect .desk n m r x
  have hsup := deliverPointer_sup .desk n r x
  have hdel := deliverPointer_delivers .desk n r x
  have hkept := deliverPointer_routerKept .desk n r x
  generalize deliverPointer .desk n r x = v at *
  dsimp only at heff
  rw [if_neg hb] at hsup
  obtain ⟨hport, hlast, hctl⟩ := (heff n).1 ⟨rfl, hb⟩
  have hother := fun m (hm : m ≠ n) => (heff m).2.1 fun h => hm h.1
  have hkeys : v.router.lastKey = x.router.lastKey := vector_ext fun m => (heff m).2.2
  refine ⟨hport, fun m hm => (hother m hm).1, hctl, fun m hm => (hother m hm).2.2, hlast, fun m hm => (hother m hm).2.1, ?_⟩
  have hrouter : v.router = { x.router with lastPointer := v.router.lastPointer } := by
    unfold routerKept at hkept
    rw [hkeys] at hkept
    exact hkept
  unfold Delivers at hdel
  rw [hsup] at hdel
  rw [← hrouter]
  exact hdel

/-- The port of the head's computer with the clamps of a head pixel counted (R34). -/
def clampsCounted (h : Head) (hx hy : Nat) (x : State) : Port :=
  let c := x.comp h.comp
  { x.port h.comp with counters := { (x.port h.comp).counters with
    desktopClamps := min ((x.port h.comp).counters.desktopClamps +
      ((if c.vw - 1 < (x.headMap h).ox + hx then 1 else 0) + (if c.vh - 1 < (x.headMap h).oy + hy then 1 else 0)))
      4294967295 } }

theorem countClamps_counted (h : Head) (hx hy : Nat) (x : State) :
    let y := countClamps h.comp (mapClamps x h hx hy) x
    y.port h.comp = clampsCounted h hx hy x ∧ (∀ n, n ≠ h.comp → y.port n = x.port n) ∧ y = { x with ports := y.ports } := by
  refine ⟨?_, fun n hn => State.modPort_port_ne _ _ _ _ hn, rfl⟩
  refine (State.modPort_port_same ..).trans ?_
  simp only [mapClamps, stageDClamps, decide_eq_true_eq]
  rfl

/-- The record of stages C, D and E where the pointer has ended. -/
def mappedRecord (e : Motion) (tile : Tile) (h : Head) (x : State) : PointerRecord :=
  let p := mapHead x h (stageC x.pointer.px tile.x0 tile.w (effSize x h).1) (stageC x.pointer.py tile.y0 tile.h (effSize x h).2)
  .absolute e.buttons p.1 p.2 e.wheel

theorem emitAbsolute_eq (e : Motion) (tile : Tile) (h : Head) (x : State) :
    let hx := stageC x.pointer.px tile.x0 tile.w (effSize x h).1
    let hy := stageC x.pointer.py tile.y0 tile.h (effSize x h).2
    emitAbsolute e tile h x =
      deliverPointer .desk h.comp (mappedRecord e tile h x) (countClamps h.comp (mapClamps x h hx hy) x) := rfl

/-- The frame of stage C where the pointer has ended. -/
theorem emitFrame_sent (e : Motion) (tile : Tile) (k : LinkId) (d : Mode) (x : State) :
    let f : PointerFrame := .absolute e.buttons ((x.pointer.px - tile.x0) * d.width / tile.w)
      ((x.pointer.py - tile.y0) * d.height / tile.h) e.wheel
    let v := emitFrame e tile k d x
    v.link k = enqueueFrame (.pointer f) (x.link k) ∧ (∀ j, j ≠ k → v.link j = x.link j) ∧
      v.linkPointer k = some f ∧ (∀ j, j ≠ k → v.linkPointer j = x.linkPointer j) ∧
      v = { x with links := v.links, router := { x.router with linkPointer := v.router.linkPointer } } := by
  intro f v
  have hv : v = setLinkPointer k (some f) (sendFrame k (.pointer f) x) := rfl
  refine ⟨?_, fun j hj => ?_, ?_, fun j hj => ?_, rfl⟩
  · rw [hv, setLinkPointer_link]
    simp [sendFrame]
  · rw [hv, setLinkPointer_link]
    simp [sendFrame, State.modLink_link, hj]
  · rw [hv, setLinkPointer_linkPointer, if_pos rfl]
  · rw [hv, setLinkPointer_linkPointer, if_neg hj, sendFrame_linkPointer]

/-! ### All that is handed on -/

theorem handsPointerOn_of (hb : x.blank.state = .clear) :
    handsPointerOn e.buttons e.wheel (e.buttons &&& ~~~e.before != 0) x
      (.next (handedOn (wakeByButton e (emitGlided e x)))) := by
  have leaves : ∀ v, emitGlided e x = v → v.focus = x.focus → (∀ n, (v.control n).holder = (x.control n).holder) →
      (Host.Outcome.next (handedOn (wakeByButton e (emitGlided e x))) : Host.Outcome State Fault Refusal) = .next (handedOn
        (match x.focus.target with
        | .loc n => if (x.control n).holder = .desk then woken n (e.buttons &&& ~~~e.before != 0) v else v
        | _ => v)) := fun v hv hf hh => by rw [hv, wakeByButton_eq hf hh]
  refine ⟨fun h => leaves x (emitGlided_still h) rfl fun _ => rfl, fun tile ha hc ht => ⟨fun h has => ⟨fun hd => ?_, fun hd => ?_⟩,
    fun k has => ⟨fun hno => ?_, fun o hheld hact hmode => ?_⟩⟩⟩
  · exact leaves x ((emitGlided_head ha hc ht has).trans (if_neg hd)) rfl fun _ => rfl
  · have hemit := (emitGlided_head (e := e) ha hc ht has).trans (if_pos hd)
    rw [emitAbsolute_eq] at hemit
    obtain ⟨hport, hports, hrest⟩ := countClamps_counted h (stageC x.pointer.px tile.x0 tile.w (effSize x h).1)
      (stageC x.pointer.py tile.y0 tile.h (effSize x h).2) x
    generalize countClamps h.comp _ x = y at *
    have hbus : (y.port h.comp).bus = (x.port h.comp).bus := by rw [hport]; rfl
    intro n gx gy c r clamped
    refine ⟨fun hdet => ?_, fun hdet => ?_⟩
    · rw [deliverPointer_detached (hbus.trans hdet)] at hemit
      exact ⟨y, leaves y hemit (by rw [hrest]) (by rw [hrest]; exact fun _ => rfl), hport, hports, hrest⟩
    · have hv := deliverPointer_handed (mappedRecord e tile h x) (x := y) (n := h.comp) (by rw [hbus]; exact hdet)
      generalize deliverPointer .desk h.comp (mappedRecord e tile h x) y = v at *
      obtain ⟨vport, vports, vctl, vctls, vlast, vlasts, vrest⟩ := hv
      have hctl : ∀ m, y.control m = x.control m := by rw [hrest]; exact fun _ => rfl
      have hlast : ∀ m, y.lastPointer m = x.lastPointer m := by rw [hrest]; exact fun _ => rfl
      have hnow : y.now = x.now := by rw [hrest]
      have hold : ∀ m, (v.control m).holder = (x.control m).holder := by
        intro m
        by_cases hm : m = h.comp
        · rw [hm, vctl, hctl]
        · rw [vctls m hm, hctl]
      have htold : toldPointer h.comp (mappedRecord e tile h x) (y.port h.comp) y.sup =
          toldPointer h.comp (mappedRecord e tile h x) (x.port h.comp) x.sup := by rw [hport, hrest]; rfl
      refine ⟨v, leaves v hemit (by rw [vrest, hrest]) hold, vport.trans (by rw [hport]; rfl),
        fun m hm => (vports m hm).trans (hports m hm), by rw [vctl, hctl, hnow], fun m hm => (vctls m hm).trans (hctl m), vlast,
        fun m hm => (vlasts m hm).trans (hlast m), ?_⟩
      rw [htold, hrest] at vrest
      exact vrest
  · refine leaves x ((emitGlided_lane hb ha hc ht has).trans ?_) rfl fun _ => rfl
    split
    next o ho =>
      refine if_neg fun ⟨hh, hm⟩ => hno.elim (fun h => h hh) fun h => hm (h o (activeOffer_eq_some.mp ho))
    · rfl
  · have hemit := emitGlided_lane (e := e) hb ha hc ht has
    rw [activeOffer_eq_some.mpr hact] at hemit
    have hv := hemit.trans (if_pos ⟨hheld, hmode⟩)
    obtain ⟨h1, h2, h3, h4, h5⟩ := emitFrame_sent e tile k o.mode x
    exact ⟨_, leaves _ hv (by rw [h5]) (by rw [h5]; exact fun _ => rfl), h1, h2, h3, h4, h5⟩

/-! ### The report -/

/-- A report that neither captures nor meets a capture glides (R19, R21). -/
theorem mouseReport_glides {dx dy w : Int} {b : Buttons} (hb : s.blank.state = .clear) (hcap : s.pointer.capture = false)
    (hc : capturable s = false) :
    let e : Motion := ⟨max (-2047) (min 2047 dx), max (-2047) (min 2047 dy), max (-127) (min 127 w), b, s.mouse.buttons⟩
    mouseReport dx dy w b s = wakeByButton e (glided e (s.setMouse ⟨true, b⟩)) := by
  intro e
  have h1 : blanked (s.setMouse ⟨true, b⟩) = false := by simp [blanked, hb]
  have h2 : ((s.setMouse ⟨true, b⟩).pointer.capture || capturable (s.setMouse ⟨true, b⟩)) = false := by
    rw [Bool.or_eq_false_iff]
    exact ⟨hcap, hc⟩
  have hm : mouseReport dx dy w b s = motion e (s.setMouse ⟨true, b⟩) := rfl
  rw [hm, motion, h1, h2]
  rfl

end Sys2Proof.Machine
end

section
/-! The walk at the edges (O24). -/

open Sys2Proof Sys2Proof.Machine

/-- Settles O24: a valid layout has at most one neighbour at the crossing coordinate, which decides the push; and the report
glides, from the walk on, to the state that hands on. -/
theorem walkAtTheEdges : Obligations.WalkAtTheEdges := by
  refine ⟨fun a m s tile high o hm ht ho hh hl hv => ?_, fun dx dy w b s hatt hb hcap hc => ?_⟩
  · intro q edge p touches
    have hsize : 1 ≤ Tile.size tile a := le_trans (by omega) (Tile.size_pos hv (pointerTile_mem ht).1 a)
    have hw := walk_beyond hm ht ho hsize hh hl
    refine ⟨fun hno => ?_, fun b hbl hbt => ⟨fun hblock hz => ?_, fun hfree => ?_⟩⟩
    · rw [hw, pushOut_clamped fun b hb => by rw [neighbourAt_none hno] at hb; cases hb]
    · rw [hw, pushOut_clamped fun c hc => by
        rw [neighbourAt_some hv hbl hbt] at hc
        cases hc
        exact crossingBlocked_iff.mpr ⟨hblock, hz⟩]
    · intro kept amount hkept hfresh
      have hopen : crossingBlocked s b = false := by
        rw [Bool.eq_false_iff, Ne, crossingBlocked_iff]
        rintro ⟨hblock, z, hz, hne⟩
        obtain hf | hf := hfree
        · rw [hblock] at hf
          cases hf
        · exact hne (hf z hz)
      have hq : pushPressure p (tile.monitor, sideOf a high) o s.now = ⟨some (tile.monitor, sideOf a high), amount, some s.now⟩ := by
        by_cases hk : kept
        · rw [hkept hk, pushPressure_kept hk.1 hk.2]
        · rw [hfresh hk, pushPressure_fresh hk]
      rw [hw, pushOut_pushed (neighbourAt_some hv hbl hbt) hopen]
      exact ⟨fun hlt => by rw [pushEdge_below hq hlt], fun hle => by rw [pushEdge_crosses hq hle]⟩
  · intro ax ay walked
    let e : Motion := ⟨max (-2047) (min 2047 dx), max (-2047) (min 2047 dy), max (-127) (min 127 w), b, s.mouse.buttons⟩
    have hmove : moveAndWalk e (s.setMouse ⟨true, b⟩) = walked.setMouse ⟨true, b⟩ := by
      refine Eq.trans ?_ (walk_setMouse ..)
      rw [← walk_setMouse]
      rfl
    have hwalked : Walked s (walked.setMouse ⟨true, b⟩) :=
      Walked.trans (t := s.modPointer fun p => { p with rx := ax - 16 * ax.tdiv 16, ry := ay - 16 * ay.tdiv 16 })
        (modPointer_walked rfl rfl rfl) ((walk_walked ..).trans ((walk_walked ..).trans ⟨rfl, rfl, rfl, rfl⟩))
    have hg := glided_effect hwalked hcap
    have hexec : exec (.deskPointerReport dx dy w b) s = .next (handedOn (wakeByButton e
        (emitGlided e (reevaluateIfMoved (pointerMonitor s) (walked.setMouse ⟨true, b⟩))))) := by
      rw [← hmove]
      exact congrArg done ((if_pos hatt).trans (mouseReport_glides hb hcap hc))
    generalize reevaluateIfMoved (pointerMonitor s) (walked.setMouse ⟨true, b⟩) = x at *
    have hbx : x.blank.state = .clear := by rw [hg.rest]; exact hb
    refine ⟨x, hg.moved, hg.stayed, hg.same, hg.changed, hg.pointer, hg.broadcast, hg.lines, hg.rest, ?_⟩
    rw [hexec]
    exact handsPointerOn_of (e := e) hbx

end

section
/-!
SUPPORT. The ends of the sessions at a warm reset (R147): what a link, the lane's input and outputs, the lines and the focus
keep of them.
-/

namespace Sys2Proof.Machine

open Sys2Proof

variable {s t u x y : State} {k j : LinkId} {o : OutputId}

/-! ### What is compared -/

/-- A link, its sessions and its viewer control left out. -/
def sessionless (l : Link) : Link := { l with outbound := .none, inbound := .none, viewer := .none }

/-- Whether the inbound session of a link is ACTIVE. -/
def laneStands (s : State) (k : LinkId) : Bool :=
  match (s.link k).inbound with
  | .active _ => true
  | _ => false

/-- An output state, the switch target left out. -/
def OutputState.targetless : OutputState → OutputState
  | .blanking _ e => .blanking none e
  | st => st

/-- Two output records with one assignment and, but for the switch target, one state. -/
def OutLike (p q : Output) : Prop :=
  p.assignment = q.assignment ∧ OutputState.targetless p.state = OutputState.targetless q.state

theorem OutLike.refl (p : Output) : OutLike p p := ⟨rfl, rfl⟩

theorem OutLike.trans {p q r : Output} (h : OutLike p q) (g : OutLike q r) : OutLike p r :=
  ⟨h.1.trans g.1, h.2.trans g.2⟩

theorem takeTargetRecord_like (t : Target) (p : Output) : OutLike (takeTargetRecord t p) p := by
  unfold takeTargetRecord
  split
  next hs => exact ⟨rfl, by rw [hs]; rfl⟩
  · exact .refl p
  · split <;> exact .refl p
  · split <;> exact .refl p
  · split <;> exact .refl p

/-- An output whose lane has lost its signal (R111). -/
def signalLost (p : Output) : Output :=
  match p.state with
  | .locking d _ => { p with state := .locking d none }
  | .showing => { p with state := .noSignal }
  | _ => p

theorem signalLost_like {p q : Output} (h : OutLike p q) : OutLike (signalLost p) (signalLost q) := by
  obtain ⟨ha, hs⟩ := h
  refine ⟨?_, ?_⟩
  · unfold signalLost
    split <;> split <;> exact ha
  · unfold signalLost
    cases hp : p.state <;> cases hq : q.state <;> simp_all [OutputState.targetless]

/-- The output as the lanes of `lost` leave it: one that is assigned to such a lane, its input not absent already, has lost
its signal. -/
def laneFollowed (lost : LinkId → Bool) (s : State) (o : OutputId) : Output :=
  match (s.out o).assignment with
  | some (.lane k) => if lost k = true ∧ s.input (.lane k) ≠ .absent then signalLost (s.out o) else s.out o
  | _ => s.out o

/-- Whether the focus stands on a lane of `lost`. -/
def focusLost (lost : LinkId → Bool) (s : State) : Bool :=
  match s.focus.target with
  | .rem k => lost k
  | _ => false

/-- The sessions of some links have ended, the ACTIVE inbound ones of `lost` with their lanes: what stands and what has
changed, but for the pointer, the router, the desk keyboard's lights and the supervisor link. -/
structure SessionsEnded (lost : LinkId → Bool) (s u : State) : Prop where
  link : ∀ j, sessionless (u.link j) = sessionless (s.link j)
  lane : ∀ k, u.input (.lane k) = if lost k then .absent else s.input (.lane k)
  head : ∀ h, u.input (.head h) = s.input (.head h)
  out : ∀ o, OutLike (u.out o) (laneFollowed lost s o)
  line : ∀ l, u.line l = if focusLost lost s then talliedLine .none (s.line l) else s.line l
  focus : u.focus.target = if focusLost lost s then .none else s.focus.target
  attached : u.keyboard.attached = s.keyboard.attached
  rest : u = { s with
    links := u.links, inputs := u.inputs, outputs := u.outputs, lines := u.lines, focus := u.focus, pointer := u.pointer
    router := u.router, keyboard := u.keyboard, sup := u.sup }

theorem signalLost_assignment (p : Output) : (signalLost p).assignment = p.assignment := by
  unfold signalLost
  split <;> rfl

theorem laneFollowed_lane {lost : LinkId → Bool} (h : (s.out o).assignment = some (.lane k)) :
    laneFollowed lost s o =
      if lost k = true ∧ s.input (.lane k) ≠ .absent then signalLost (s.out o) else s.out o := by
  simp only [laneFollowed, h]

theorem laneFollowed_other {lost : LinkId → Bool} (h : ∀ k, (s.out o).assignment ≠ some (.lane k)) :
    laneFollowed lost s o = s.out o := by
  unfold laneFollowed
  split
  next k hk => exact absurd hk (h k)
  · rfl

theorem laneFollowed_assignment (lost : LinkId → Bool) (s : State) (o : OutputId) :
    (laneFollowed lost s o).assignment = (s.out o).assignment := by
  unfold laneFollowed
  split
  · split
    · exact signalLost_assignment _
    · rfl
  · rfl

theorem laneFollowed_none (s : State) (o : OutputId) : laneFollowed (fun _ => false) s o = s.out o := by
  unfold laneFollowed
  split
  · exact if_neg fun h => Bool.false_ne_true h.1
  · rfl

theorem SessionsEnded.trans {f g : LinkId → Bool} (h : SessionsEnded f s t) (e : SessionsEnded g t u) :
    SessionsEnded (fun k => f k || g k) s u := by
  have hfocus : focusLost g t = (focusLost g s && !focusLost f s) := by
    unfold focusLost
    rw [h.focus]
    unfold focusLost
    cases s.focus.target with
    | loc n => simp
    | none => simp
    | rem k => cases hf : f k <;> simp [hf]
  have hor : focusLost (fun k => f k || g k) s = (focusLost f s || focusLost g s) := by
    unfold focusLost
    cases s.focus.target <;> rfl
  refine ⟨fun j => (e.link j).trans (h.link j), fun k => ?_, fun i => (e.head i).trans (h.head i), fun o => ?_, fun l => ?_, ?_,
    e.attached.trans h.attached, ?_⟩
  · rw [e.lane, h.lane]
    cases f k <;> cases g k <;> rfl
  · refine (e.out o).trans ?_
    have ho := h.out o
    have ha : (t.out o).assignment = (s.out o).assignment := ho.1.trans (laneFollowed_assignment ..)
    by_cases hk : ∃ k, (s.out o).assignment = some (.lane k)
    · obtain ⟨k, hk⟩ := hk
      rw [laneFollowed_lane hk] at ho ⊢
      rw [laneFollowed_lane (ha.trans hk), h.lane]
      cases hf : f k
      · have hlike : OutLike (t.out o) (s.out o) := by simpa [hf] using ho
        simp only [Bool.false_or, Bool.false_eq_true, if_false]
        split
        · exact signalLost_like hlike
        · exact hlike
      · simpa [hf] using ho
    · have hk' : ∀ k, (s.out o).assignment ≠ some (.lane k) := fun k h => hk ⟨k, h⟩
      rw [laneFollowed_other hk'] at ho ⊢
      rw [laneFollowed_other fun k => by rw [ha]; exact hk' k]
      exact ho
  · rw [e.line, h.line, hfocus, hor]
    cases focusLost f s <;> cases focusLost g s <;> rfl
  · rw [e.focus, h.focus, hfocus, hor]
    cases focusLost f s <;> cases focusLost g s <;> rfl
  · conv_lhs => rw [e.rest, h.rest]

/-! ### An outbound session -/

theorem SessionsEnded.of_links (hl : ∀ j, sessionless (u.link j) = sessionless (s.link j)) (ho : ∀ o, OutLike (u.out o) (s.out o))
    (hr : u = { s with links := u.links, outputs := u.outputs, pointer := u.pointer }) :
    SessionsEnded (fun _ => false) s u := by
  have hf : focusLost (fun _ => false) s = false := by
    unfold focusLost
    split <;> rfl
  refine ⟨hl, fun k => ?_, fun h => ?_, fun o => ?_, fun l => ?_, ?_, ?_, ?_⟩
  · rw [hr]; rfl
  · rw [hr]; rfl
  · rw [laneFollowed_none]; exact ho o
  · rw [hf, hr]; rfl
  · rw [hf, hr]; rfl
  · rw [hr]
  · rw [hr]

theorem returnIfHeld_desk {c : HolderCause} (h : ∀ n, (s.control n).holder = .desk) :
    allComps.foldl (returnIfHeld k c) s = s :=
  foldl_same (fun n => if_neg (by rw [h n]; exact Holder.noConfusion)) allComps

theorem removeClaim_none (h : ∀ n, (s.control n).claims = []) : allComps.foldl (removeClaim k) s = s :=
  foldl_same (fun n => if_neg (by rw [h n]; exact Bool.false_ne_true)) allComps

/-- Control that the desk has, with no claims, ends with nothing to do (R160). -/
theorem endControl_desk {c : HolderCause} (h : ∀ n, s.control n = Control.reset) : endControl k c s = s := by
  unfold endControl
  rw [removeClaim_none fun n => by rw [h n]; rfl, returnIfHeld_desk fun n => by rw [h n]; rfl]

theorem outEnd_sessionsEnded (h : ∀ n, s.control n = Control.reset) :
    SessionsEnded (fun _ => false) s (outEnd k none none s) ∧ ∀ j, ((outEnd k none none s).link j).inbound = (s.link j).inbound := by
  have hset : ∀ n, (setOutbound k .none s).control n = Control.reset := h
  have hlink : ∀ j, (takeTarget (laneOut k) none (setOutbound k .none s)).link j =
      if j = k then { s.link j with outbound := .none } else s.link j := fun j => State.modLink_link ..
  have hended : SessionsEnded (fun _ => false) s (takeTarget (laneOut k) none (setOutbound k .none s)) ∧
      ∀ j, ((takeTarget (laneOut k) none (setOutbound k .none s)).link j).inbound = (s.link j).inbound := by
    refine ⟨.of_links (fun j => ?_) (fun o => ?_) rfl, fun j => ?_⟩
    · rw [hlink]
      split <;> rfl
    · unfold takeTarget
      rw [State.modOut_out]
      split
      · exact takeTargetRecord_like ..
      · exact .refl _
    · rw [hlink]
      split <;> rfl
  unfold outEnd
  split
  · exact ⟨.of_links (fun _ => rfl) (fun _ => .refl _) rfl, fun _ => rfl⟩
  · exact hended
  · rw [endControl_desk hset]
    exact hended

/-! ### An inbound session -/

theorem clearCapture_rem (h : s.focus.target = .rem k) :
    clearCapture s = { s with pointer := (clearCapture s).pointer } := by
  unfold clearCapture
  split
  · simp only [h]
    rfl
  · rfl

/-- The viewer control that ends with a session releases nobody: no computer is concerned, and the link is no longer HELD
(R147). -/
theorem viewerDropped (k : LinkId) (s : State) :
    let v := inEnd.clearCaptureOn k (s.modLink k fun l => { l with viewer := .none })
    rederive s v = v ∧ v = { s with links := v.links, pointer := v.pointer } ∧
      (∀ j, v.link j = if j = k then { s.link j with viewer := .none } else s.link j) := by
  intro v
  have hv : v = { s.modLink k (fun l => { l with viewer := .none }) with pointer := v.pointer } := by
    simp only [v, inEnd.clearCaptureOn]
    split
    next h => exact clearCapture_rem h
    · rfl
  have hlink : ∀ j, v.link j = if j = k then { s.link j with viewer := .none } else s.link j := by
    rw [hv]
    exact fun j => State.modLink_link ..
  have hrest : v = { s with links := v.links, pointer := v.pointer } := by
    conv_lhs => rw [hv]
    rw [hv]
    rfl
  have hc : ∀ m, isRecipient v m = isRecipient s m := by rw [hrest]; exact fun _ => rfl
  have hviewer : ∀ j, linkIsRecipient v j = true → linkIsRecipient s j = true := by
    intro j hj
    have hf : v.focus = s.focus := by rw [hrest]
    have hb : v.blank = s.blank := by rw [hrest]
    unfold linkIsRecipient blanked at hj ⊢
    rw [hf, hb, hlink] at hj
    split at hj
    · simp at hj
    · exact hj
  have hgone : ∀ j, linkGone s v j = false := by
    intro j
    unfold linkGone
    by_cases hj : j = k
    · rw [hlink, if_pos hj]
      simp
    · have : linkIsRecipient v j = linkIsRecipient s j := by
        unfold linkIsRecipient blanked
        rw [hlink, if_neg hj, hrest]
      rw [this]
      cases linkIsRecipient s j <;> simp
  have hleave : releaseLeavers s v = v := releaseLeavers_none (fun m h => (hc m).trans h) hgone
  refine ⟨?_, hrest, hlink⟩
  unfold rederive
  rw [hleave, someoneJoined_false (fun m h => (hc m).symm.trans h) hviewer]
  rfl

/-- An output that follows a lane without a signal has lost its own (R111). -/
theorem inputFollowed_absent (s : State) (k : LinkId) (o : OutputId) :
    inputFollowed s (.lane k) .absent o =
      if (s.out o).assignment = some (.lane k) ∧ s.input (.lane k) ≠ .absent then signalLost (s.out o) else s.out o := by
  rw [inputFollowed_eq]
  split
  · unfold signalLost stableFrom
    cases (s.out o).state <;> rfl
  · rfl

theorem laneFollowed_single (s : State) (k : LinkId) (o : OutputId) :
    laneFollowed (fun j => j == k) s o = inputFollowed s (.lane k) .absent o := by
  rw [inputFollowed_absent]
  by_cases hk : ∃ j, (s.out o).assignment = some (.lane j)
  · obtain ⟨j, hj⟩ := hk
    rw [laneFollowed_lane hj, hj]
    by_cases he : j = k
    · subst he; simp
    · simp [he]
  · have hk' : ∀ j, (s.out o).assignment ≠ some (.lane j) := fun j h => hk ⟨j, h⟩
    rw [laneFollowed_other hk', if_neg fun h => hk' k h.1]

/-- The lane is absent, its outputs have followed, and the monitors that concerned it are handed DARK. -/
theorem laneAbsent_sessionsEnded (k : LinkId) (s : State) :
    let u := allMonitors.foldl (darkenLane k) (changeInput (.lane k) .absent s)
    u.input (.lane k) = .absent ∧ (∀ i, i ≠ .lane k → u.input i = s.input i) ∧
      (∀ o, OutLike (u.out o) (laneFollowed (fun j => j == k) s o)) ∧
      u = { s with inputs := u.inputs, outputs := u.outputs, sup := u.sup } := by
  intro u
  obtain ⟨c1, c2, c3, c4⟩ := changeLane_effect k .absent s
  obtain ⟨d1, d2⟩ := darkenLanes_effect k allMonitors (by decide) (changeInput (.lane k) .absent s)
  have hu : u = allMonitors.foldl (darkenLane k) (changeInput (.lane k) .absent s) := rfl
  rw [← hu] at d1 d2
  generalize changeInput (.lane k) .absent s = y at *
  have hin : ∀ i, u.input i = y.input i := by rw [d2]; exact fun _ => rfl
  refine ⟨(hin _).trans c1, fun i hi => (hin i).trans (c2 i hi), fun o => ?_, ?_⟩
  · rw [d1, laneFollowed_single, ← c3]
    split
    · exact takeTargetRecord_like ..
    · exact .refl _
  · rw [d2, c4]

/-- The focus end of a session, in the terms of what is compared. -/
theorem sessionFocusEnd_lost (hv : (s.link k).viewer ≠ .held) :
    let u := sessionFocusEnd k s
    (u.focus.target = if s.focus.target = .rem k then .none else s.focus.target) ∧
      (∀ l, u.line l = if s.focus.target = .rem k then talliedLine .none (s.line l) else s.line l) ∧
      u.keyboard.attached = s.keyboard.attached ∧
      u = { s with focus := u.focus, router := u.router, keyboard := u.keyboard, lines := u.lines, pointer := u.pointer
                   sup := u.sup } := by
  intro u
  obtain ⟨hlane, hrest⟩ := sessionFocusEnd_effect k s hv
  have hu : u = sessionFocusEnd k s := rfl
  rw [← hu] at hlane hrest
  obtain ⟨hf, ⟨htally, hother⟩, -, -, -, -, hk⟩ := hlane
  have hfoc : u.focus.target = if s.focus.target = .rem k then .none else s.focus.target := by
    rw [hf]
    by_cases h : s.focus.target = .rem k <;> simp [h]
  refine ⟨hfoc, fun l => ?_, ?_, ?_⟩
  · unfold talliedLine
    cases hr : (s.line l).config.role with
    | tally n =>
      rw [htally l n hr, hfoc]
      by_cases h : s.focus.target = .rem k
      · simp [h]
      · simp [h]
    | _ =>
      rw [hother l fun n => by rw [hr]; exact Role.noConfusion]
      simp
  · rw [hk]
    split <;> rfl
  · generalize sessionFocusEnd k s = v at *
    subst hu
    rw [hrest]

theorem inEnd_active {q : Offer} (h : (s.link k).inbound = .active q) :
    SessionsEnded (fun j => j == k) s (inEnd k none none s) ∧
      ∀ j, j ≠ k → ((inEnd k none none s).link j).inbound = (s.link j).inbound := by
  obtain ⟨hre, hv, hvl⟩ := viewerDropped k (setInbound k .none s)
  have hu : inEnd k none none s = sessionFocusEnd k (allMonitors.foldl (darkenLane k) (changeInput (.lane k) .absent
      (rederive (setInbound k .none s) (inEnd.clearCaptureOn k ((setInbound k .none s).modLink k fun l =>
        { l with viewer := .none }))))) := by
    simp only [inEnd, h]
    rfl
  rw [hre] at hu
  have hsl : ∀ j, (setInbound k .none s).link j = if j = k then { s.link j with inbound := .none } else s.link j :=
    fun j => State.modLink_link ..
  have hvs : inEnd.clearCaptureOn k ((setInbound k .none s).modLink k fun l => { l with viewer := .none }) = { s with
      links := (inEnd.clearCaptureOn k ((setInbound k .none s).modLink k fun l => { l with viewer := .none })).links
      pointer := (inEnd.clearCaptureOn k ((setInbound k .none s).modLink k fun l => { l with viewer := .none })).pointer } := hv
  generalize inEnd.clearCaptureOn k ((setInbound k .none s).modLink k fun l => { l with viewer := .none }) = v at *
  obtain ⟨hlane, hinputs, houts, hy⟩ := laneAbsent_sessionsEnded k v
  generalize allMonitors.foldl (darkenLane k) (changeInput (.lane k) .absent v) = y at *
  have hyl : ∀ j, y.link j = if j = k then { s.link j with inbound := .none, viewer := .none } else s.link j := by
    intro j
    have : y.link j = v.link j := by rw [hy]; rfl
    rw [this, hvl, hsl]
    split <;> rfl
  obtain ⟨hf, hl, hatt, hr⟩ := sessionFocusEnd_lost (s := y) (k := k) (by rw [hyl, if_pos rfl]; exact ViewerControl.noConfusion)
  rw [← hu] at hf hl hatt hr
  generalize inEnd k none none s = u at *
  have hyf : y.focus = s.focus := by rw [hy, hvs]
  have hylines : ∀ l, y.line l = s.line l := by rw [hy, hvs]; exact fun _ => rfl
  have hlost : focusLost (fun j => j == k) s = true ↔ s.focus.target = .rem k := by
    unfold focusLost
    cases s.focus.target <;> simp
  have hul : ∀ j, u.link j = y.link j := by rw [hr]; exact fun _ => rfl
  have hui : ∀ i, u.input i = y.input i := by rw [hr]; exact fun _ => rfl
  have hvi : ∀ i, v.input i = s.input i := by rw [hvs]; exact fun _ => rfl
  have huo : ∀ o, u.out o = y.out o := by rw [hr]; exact fun _ => rfl
  have hvo : ∀ o, laneFollowed (fun j => j == k) v o = laneFollowed (fun j => j == k) s o := by rw [hvs]; exact fun _ => rfl
  rw [hyf] at hf hl
  refine ⟨⟨fun j => ?_, fun j => ?_, fun i => ?_, fun o => ?_, fun l => ?_, ?_, ?_, ?_⟩, fun j hj => ?_⟩
  · rw [hul, hyl]
    split <;> rfl
  · rw [hui]
    by_cases hj : j = k
    · rw [hj, hlane]; simp
    · rw [hinputs _ (by simpa using hj), hvi]; simp [hj]
  · rw [hui, hinputs _ Input.noConfusion, hvi]
  · rw [huo, ← hvo]
    exact houts o
  · rw [hl, hylines]
    simp only [hlost]
  · rw [hf]
    simp only [hlost]
  · rw [hatt, hy, hvs]
  · rw [hr, hy, hvs]
  · rw [hul, hyl, if_neg hj]

theorem inEnd_sessionsEnded (k : LinkId) (s : State) :
    SessionsEnded (fun j => j == k && laneStands s k) s (inEnd k none none s) ∧
      ∀ j, j ≠ k → ((inEnd k none none s).link j).inbound = (s.link j).inbound := by
  unfold laneStands
  cases h : (s.link k).inbound with
  | none =>
    rw [show inEnd k none none s = s by simp only [inEnd, h]]
    refine ⟨?_, fun _ _ => rfl⟩
    simp only [Bool.and_false]
    exact .of_links (fun _ => rfl) (fun _ => .refl _) rfl
  | offeredIn q d =>
    have hu : inEnd k none none s = setInbound k .none s := by
      simp only [inEnd, h]
      rfl
    have hl : ∀ j, (setInbound k .none s).link j = if j = k then { s.link j with inbound := .none } else s.link j :=
      fun j => State.modLink_link ..
    rw [hu]
    simp only [Bool.and_false]
    refine ⟨.of_links (fun j => ?_) (fun _ => .refl _) rfl, fun j hj => by rw [hl, if_neg hj]⟩
    rw [hl]
    split <;> rfl
  | active q =>
    simp only [Bool.and_true]
    exact inEnd_active h

/-! ### Both links -/

/-- The frames that end the sessions of an UP link (R147). -/
def endsFormed (l : Link) : Link :=
  let l1 := if l.up = true ∧ l.outbound ≠ .none then enqueueFrame (.endSession .owner .reset) l else l
  if l.up = true ∧ l.inbound ≠ .none then enqueueFrame (.endSession .viewer .reset) l1 else l1

theorem modLink_congr {f g : Link → Link} (h : f (s.link k) = g (s.link k)) : s.modLink k f = s.modLink k g := by
  simp only [State.modLink, upd]
  rw [show f (pick s.links k) = g (pick s.links k) from h]

theorem sendEnds_changed (s : State) : linksChanged (fun _ => endsFormed) s (allLinks.foldl sendEnds s) := by
  refine allLinks_foldl fun u k _ => ?_
  unfold sendEnds
  by_cases hup : (u.link k).up = true
  · rw [if_pos hup]
    by_cases ho : (u.link k).outbound = .none
    · by_cases hi : (u.link k).inbound = .none
      · simp only [if_pos ho, if_pos hi]
        exact (modLink_self u k _ (by simp [endsFormed, ho, hi])).symm
      · simp only [if_pos ho, if_neg hi]
        exact modLink_congr (by simp [endsFormed, hup, ho, hi])
    · by_cases hi : (u.link k).inbound = .none
      · simp only [if_neg ho, if_pos hi]
        exact modLink_congr (by simp [endsFormed, hup, ho, hi])
      · simp only [if_neg ho, if_neg hi]
        refine (modLink_modLink u k _ _).trans (modLink_congr ?_)
        simp [endsFormed, hup, ho, hi]
  · rw [if_neg hup]
    exact (modLink_self u k _ (by simp [endsFormed, hup])).symm

theorem endsFormed_inbound (l : Link) : (endsFormed l).inbound = l.inbound := by
  have he : ∀ m l, (enqueueFrame m l).inbound = l.inbound := fun m l => (enqueueFrame_fields m l).2.2.1
  unfold endsFormed
  dsimp only
  split <;> split <;> simp only [he]

/-- The sessions of both links have ended, and the control lock table is at its reset values. -/
theorem endSessions_sessionsEnded (h : ∀ n, s.control n = Control.reset) :
    SessionsEnded (laneStands s) s (allLinks.foldl endSessions s) := by
  have step : ∀ (k : LinkId) (x : State), (∀ n, x.control n = Control.reset) →
      SessionsEnded (fun j => j == k && laneStands x k) x (endSessions x k) ∧
        ∀ j, j ≠ k → ((endSessions x k).link j).inbound = (x.link j).inbound := by
    intro k x hx
    obtain ⟨hout, hib⟩ := outEnd_sessionsEnded (k := k) hx
    obtain ⟨hin, hib'⟩ := inEnd_sessionsEnded k (outEnd k none none x)
    have hst : laneStands (outEnd k none none x) k = laneStands x k := by unfold laneStands; rw [hib]
    have := hout.trans hin
    rw [hst] at this
    simp only [Bool.false_or] at this
    exact ⟨this, fun j hj => (hib' j hj).trans (hib j)⟩
  obtain ⟨h0, hib0⟩ := step 0 s h
  have hc : ∀ n, (endSessions s 0).control n = Control.reset := by rw [h0.rest]; exact h
  obtain ⟨h1, -⟩ := step 1 (endSessions s 0) hc
  have hst : laneStands (endSessions s 0) 1 = laneStands s 1 := by unfold laneStands; rw [hib0 1 (by decide)]
  have hboth := h0.trans h1
  rw [hst] at hboth
  have hf : (fun j : LinkId => j == 0 && laneStands s 0 || j == 1 && laneStands s 1) = laneStands s := by
    funext j
    obtain rfl | rfl := LinkId.zero_or_one j
    · simp
    · simp
  rw [hf] at hboth
  exact hboth

end Sys2Proof.Machine
end

section
/-!
SUPPORT. The crosspoint controller, the lines and the links at a warm reset (R114, R147, R184).
-/

namespace Sys2Proof.Machine

open Sys2Proof

variable {s t u x : State} {k : LinkId} {o : OutputId}

/-! ### The sessions -/

theorem SessionsEnded.congr {lost : LinkId → Bool} (h : SessionsEnded lost t u)
    (ht : t = { s with links := t.links, controls := t.controls }) :
    (∀ k, u.input (.lane k) = if lost k then .absent else s.input (.lane k)) ∧
      (∀ i, u.input (.head i) = s.input (.head i)) ∧ (∀ o, OutLike (u.out o) (laneFollowed lost s o)) ∧
      (∀ l, u.line l = if focusLost lost s then talliedLine .none (s.line l) else s.line l) ∧
      u.keyboard.attached = s.keyboard.attached := by
  rw [ht] at h
  exact ⟨h.lane, h.head, h.out, h.line, h.attached⟩

/-- The sessions at a warm reset: the links have formed their END frames and keep nothing of a session, and the control
lock table is at its reset values (R147, R160). -/
structure SessionsReset (s u : State) : Prop where
  link : ∀ j, sessionless (u.link j) = sessionless (endsFormed (s.link j))
  lane : ∀ k, u.input (.lane k) = if laneStands s k then .absent else s.input (.lane k)
  head : ∀ h, u.input (.head h) = s.input (.head h)
  out : ∀ o, OutLike (u.out o) (laneFollowed (laneStands s) s o)
  line : ∀ l, u.line l = if focusLost (laneStands s) s then talliedLine .none (s.line l) else s.line l
  attached : u.keyboard.attached = s.keyboard.attached
  rest : u = { s with
    controls := Vector.replicate 8 Control.reset, links := u.links, inputs := u.inputs, outputs := u.outputs
    lines := u.lines, focus := u.focus, pointer := u.pointer, router := u.router, keyboard := u.keyboard, sup := u.sup }

theorem resetSessions_reset (s : State) : SessionsReset s (resetSessions s) := by
  obtain ⟨hl, hs⟩ := sendEnds_changed s
  have hu : resetSessions s = allLinks.foldl endSessions
      { allLinks.foldl sendEnds s with controls := Vector.replicate 8 Control.reset } := rfl
  generalize allLinks.foldl sendEnds s = x at *
  have hend := endSessions_sessionsEnded (s := { x with controls := Vector.replicate 8 Control.reset })
    fun n => pick_replicate ..
  rw [← hu] at hend
  have hst : laneStands { x with controls := Vector.replicate 8 Control.reset } = laneStands s := by
    funext k
    have hk : (x.link k).inbound = (s.link k).inbound := by
      rw [hl]
      exact endsFormed_inbound _
    unfold laneStands
    rw [show State.link { x with controls := Vector.replicate 8 Control.reset } k = x.link k from rfl, hk]
  rw [hst] at hend
  obtain ⟨h1, h2, h3, h4, h5⟩ := hend.congr (s := s) (by rw [hs])
  refine ⟨fun j => (hend.link j).trans (congrArg sessionless (hl j)), h1, h2, h3, h4, h5, ?_⟩
  have hr := hend.rest
  rw [hs] at hr
  exact hr

/-! ### The outputs -/

/-- An output record as the warm reset leaves it (R114, steps 1 and 3). -/
def warmedOutput (o : OutputId) (r : Output) : Output :=
  giveDefault o { Output.reset none with assignment := r.assignment, state := r.state }

theorem foldl_modOut (f : OutputId → Output → Output) {l : List OutputId} (hl : l.Nodup) (s : State) :
    (∀ p, (l.foldl (fun s o => s.modOut o (f o)) s).out p = if p ∈ l then f p (s.out p) else s.out p) ∧
      l.foldl (fun s o => s.modOut o (f o)) s =
        { s with outputs := (l.foldl (fun s o => s.modOut o (f o)) s).outputs } := by
  induction l generalizing s with
  | nil => exact ⟨fun p => by simp, rfl⟩
  | cons o l ih =>
    obtain ⟨hx, hl'⟩ := List.nodup_cons.mp hl
    obtain ⟨h1, h2⟩ := ih hl' (s.modOut o (f o))
    rw [List.foldl_cons]
    refine ⟨fun p => ?_, ?_⟩
    · rw [h1, State.modOut_out]
      by_cases hp : p = o
      · subst hp; simp [hx]
      · simp [hp]
    · rw [h2]
      rfl

theorem resetVideo_effect (s : State) :
    (∀ o, (resetVideo s).out o = warmedOutput o (s.out o)) ∧
      resetVideo s = { s with
        crosspointStart := none, scenes := Vector.replicate 16 none, outputs := (resetVideo s).outputs } := by
  obtain ⟨h1, h2⟩ := foldl_modOut warmedOutput (l := allOutputs) (by decide)
    { s with crosspointStart := none, scenes := Vector.replicate 16 none }
  exact ⟨fun o => (h1 o).trans (if_pos (mem_allOutputs o)), h2⟩

theorem atDefault_iff {r : Output} : atDefault o r = true ↔
    r.assignment = defaultTarget o ∧ r.state = if o.val < 4 then .showing else .dark := by
  unfold atDefault defaultTarget
  by_cases h : o.val < 4
  · simp [h, and_comm]
  · simp [h, and_comm]

theorem warmedOutput_atDefault {p : Output} (h : p.assignment = defaultTarget o)
    (hs : p.state = if o.val < 4 then .showing else .dark) :
    warmedOutput o p = { Output.reset none with assignment := p.assignment, state := p.state } :=
  if_pos (atDefault_iff.mpr ⟨h, hs⟩)

theorem warmedOutput_blanking {p : Output} {d : Target} {e : Nat} (h : p.state = .blanking d e) :
    warmedOutput o p =
      { Output.reset none with assignment := p.assignment, state := .blanking (defaultTarget o) e } := by
  have hn : ¬ atDefault o { Output.reset none with assignment := p.assignment, state := p.state } = true := by
    rw [atDefault_iff, h]
    rintro ⟨-, hs⟩
    split at hs <;> cases hs
  refine (if_neg hn).trans ?_
  simp only [h]

theorem warmedOutput_pending {p : Output} (hn : ¬ (p.assignment = defaultTarget o ∧
      p.state = if o.val < 4 then .showing else .dark)) (hb : ∀ d e, p.state ≠ .blanking d e) :
    warmedOutput o p =
      { Output.reset none with assignment := p.assignment, state := p.state, pendingSlot := some (defaultTarget o) } := by
  refine (if_neg fun h => hn (atDefault_iff.mp h)).trans ?_
  cases hs : p.state with
  | blanking d e => exact absurd hs (hb d e)
  | _ => rfl

theorem OutLike.cases {p q : Output} (h : OutLike p q) :
    p.state = q.state ∨ ∃ d d' e, p.state = .blanking d e ∧ q.state = .blanking d' e := by
  obtain ⟨-, hs⟩ := h
  generalize p.state = a at *
  generalize q.state = b at *
  cases a with
  | blanking d e =>
    cases b with
    | blanking d' e' =>
      cases hs
      exact .inr ⟨d, d', e, rfl, rfl⟩
    | _ => cases hs
  | _ =>
    cases b with
    | blanking d' e' => cases hs
    | _ => exact .inl hs

/-- What the warm reset leaves does not depend on the switch target. -/
theorem warmedOutput_like {p q : Output} (h : OutLike p q) : warmedOutput o p = warmedOutput o q := by
  obtain hs | ⟨d, d', e, hp, hq⟩ := h.cases
  · unfold warmedOutput
    rw [h.1, hs]
  · rw [warmedOutput_blanking hp, warmedOutput_blanking hq, h.1]

/-- An output state, a switch in BLANKING taken to another target. -/
def OutputState.switchedTo (d : Target) : OutputState → OutputState
  | .blanking _ e => .blanking d e
  | st => st

/-- The record that a warm reset leaves, field by field. -/
theorem warmedOutput_fields (o : OutputId) (p : Output) :
    let shows : Prop := p.assignment = defaultTarget o ∧ p.state = (if o.val < 4 then .showing else .dark)
    let r := warmedOutput o p
    r = { assignment := p.assignment
          state := OutputState.switchedTo (defaultTarget o) p.state
          pendingSlot := r.pendingSlot, lastStart := none, restTime := 200, blankLead := 20, lockTimeout := 1500 } ∧
    (shows ∨ (∃ x e, p.state = .blanking x e) → r.pendingSlot = none) ∧
    (¬ shows → (∀ x e, p.state ≠ .blanking x e) → r.pendingSlot = some (defaultTarget o)) := by
  intro shows r
  by_cases hb : ∃ d e, p.state = .blanking d e
  · obtain ⟨d, e, hb⟩ := hb
    have hr : r = _ := warmedOutput_blanking hb
    refine ⟨by rw [hr, hb]; rfl, fun _ => by rw [hr]; rfl, fun _ h => absurd hb (h d e)⟩
  · have hb' : ∀ d e, p.state ≠ .blanking d e := fun d e h => hb ⟨d, e, h⟩
    have hst : OutputState.switchedTo (defaultTarget o) p.state = p.state := by
      cases hs : p.state with
      | blanking d e => exact absurd hs (hb' d e)
      | _ => rfl
    rw [hst]
    by_cases hs : shows
    · have hr : r = _ := warmedOutput_atDefault hs.1 hs.2
      exact ⟨by rw [hr]; rfl, fun _ => by rw [hr]; rfl, fun h => absurd hs h⟩
    · have hr : r = _ := warmedOutput_pending hs hb'
      exact ⟨by rw [hr]; rfl, fun h => h.elim (fun h => absurd h hs) fun h => absurd h hb, fun _ _ => by rw [hr]⟩

/-! ### The lines -/

theorem endPulses_effect (l : List Comp) (s : State) :
    (∀ j, (l.foldl endPulseOf s).line j =
      { s.line j with level := (s.line j).level && !(l.any fun n => Attempt.pulseLine (s.wakeOf n).attempt == some j) }) ∧
      l.foldl endPulseOf s = { s with lines := (l.foldl endPulseOf s).lines } := by
  induction l generalizing s with
  | nil => exact ⟨fun j => by simp, rfl⟩
  | cons n l ih =>
    obtain ⟨h1, h2⟩ := ih (endPulseOf s n)
    have he : (∀ j, (endPulseOf s n).line j =
        { s.line j with level := (s.line j).level && !(Attempt.pulseLine (s.wakeOf n).attempt == some j) }) ∧
        endPulseOf s n = { s with lines := (endPulseOf s n).lines } := by
      unfold endPulseOf endPulse
      cases hp : Attempt.pulseLine (s.wakeOf n).attempt with
      | none => exact ⟨fun j => by simp, rfl⟩
      | some i =>
        refine ⟨fun j => ?_, rfl⟩
        dsimp only
        rw [show setPulse i false s = s.modLine i fun ln => { ln with level := false } from rfl, State.modLine_line]
        by_cases hj : j = i
        · subst hj; simp
        · have hi : (i == j) = false := beq_false_of_ne (Ne.symm hj)
          simp [hj, hi]
    obtain ⟨e1, e2⟩ := he
    have hw : ∀ m, (endPulseOf s n).wakeOf m = s.wakeOf m := by rw [e2]; exact fun _ => rfl
    rw [List.foldl_cons]
    refine ⟨fun j => ?_, ?_⟩
    · rw [h1, e1]
      simp only [hw, List.any_cons, Bool.not_or, Bool.and_assoc]
    · rw [h2, e2]

theorem modLine_congr {l : LineId} {f g : Line → Line} (h : f (s.line l) = g (s.line l)) : s.modLine l f = s.modLine l g := by
  simp only [State.modLine, upd]
  rw [show f (pick s.lines l) = g (pick s.lines l) from h]

theorem modLine_self {l : LineId} {f : Line → Line} (h : f (s.line l) = s.line l) : s.modLine l f = s := by
  unfold State.modLine
  rw [upd_self _ _ _ h]

/-- A line of no role with its filter clear, as the filter starts afresh (R180, R184). -/
theorem refilter_cleared {l : LineId} (hc : (x.line l).config = LineConfig.reset) (hf : (x.line l).filtered = none)
    (hn : (x.line l).candidate = none) :
    refilter l x = x.modLine l fun ln =>
      { ln with candidate := if ln.hold = none then some (ln.wireLevel, x.now) else none } := by
  by_cases hh : (x.line l).hold = none
  · have hpin : Line.pin (x.line l) = .float := by simp [Line.pin, hh, hc, LineConfig.reset, Role.isOutput]
    have hlevel : Line.pinLevel (x.line l) = (x.line l).wireLevel := by
      simp [Line.pinLevel, Line.pinHigh, Line.pulledUp, hpin, hc, LineConfig.reset]
    have hfil : Line.filtering (x.line l) = true := by simp [Line.filtering, hh, hc, LineConfig.reset, Role.isOutput]
    have hp : refilter l x = propose l (x.line l).wireLevel x := by
      simp only [refilter, hfil, if_true, hf, hn, hlevel]
    have hz : ¬ (x.line l).config.filter = 0 := by rw [hc]; decide
    rw [hp, propose, if_neg hz]
    refine modLine_congr ?_
    rw [if_pos hh]
  · have hfil : ¬ Line.filtering (x.line l) = true := by
      simp [Line.filtering, hh]
    have hp : refilter l x = x := by simp only [refilter, if_neg hfil]
    rw [hp]
    refine (modLine_self ?_).symm
    rw [if_neg hh, ← hn]

theorem foldl_refilter (ls : List LineId) (hl : ls.Nodup)
    (h : ∀ l ∈ ls, (s.line l).config = LineConfig.reset ∧ (s.line l).filtered = none ∧ (s.line l).candidate = none) :
    (∀ j, (ls.foldl restartFilter s).line j = if j ∈ ls then
      { s.line j with candidate := if (s.line j).hold = none then some ((s.line j).wireLevel, s.now) else none } else s.line j) ∧
      ls.foldl restartFilter s = { s with lines := (ls.foldl restartFilter s).lines } := by
  induction ls generalizing s with
  | nil => exact ⟨fun j => by simp, rfl⟩
  | cons l ls ih =>
    obtain ⟨hx, hl'⟩ := List.nodup_cons.mp hl
    obtain ⟨hc, hf, hn⟩ := h l (by simp)
    have he : restartFilter s l = _ := refilter_cleared hc hf hn
    have hline : ∀ j, (restartFilter s l).line j = if j = l then
        { s.line j with candidate := if (s.line j).hold = none then some ((s.line j).wireLevel, s.now) else none }
        else s.line j := fun j => by rw [he, State.modLine_line]
    have hrest : restartFilter s l = { s with lines := (restartFilter s l).lines } := by rw [he]; rfl
    have hnow : (restartFilter s l).now = s.now := by rw [hrest]
    obtain ⟨h1, h2⟩ := ih (s := restartFilter s l) hl' fun i hi => by
      rw [hline, if_neg fun e : i = l => hx (e ▸ hi)]
      exact h i (List.mem_cons_of_mem l hi)
    rw [List.foldl_cons]
    refine ⟨fun j => ?_, ?_⟩
    · rw [h1, hline, hnow]
      by_cases hj : j = l
      · subst hj; simp [hx]
      · simp [hj]
    · rw [h2, hrest]

/-- The lines after a warm reset, from those before it: the pulses have ended, and a line in an output role holds its pin
(R184). -/
theorem resetLines_effect (s : State) :
    (∀ l,
      let pulsed : Bool := allComps.any fun n => Attempt.pulseLine (s.wakeOf n).attempt == some l
      let ln : Line := { s.line l with level := (s.line l).level && !pulsed }
      let hold : Option Pin := if Role.isOutput ln.config.role then some (Line.pin ln) else ln.hold
      (resetLines s).line l =
        { config := LineConfig.reset, filtered := none
          candidate := if hold = none then some (ln.wireLevel, s.now) else none
          level := false, hold := hold, wireLevel := ln.wireLevel, wireStrong := ln.wireStrong }) ∧
    resetLines s = { s with wake := Vector.replicate 8 WakeRecord.reset, lines := (resetLines s).lines } := by
  obtain ⟨e1, e2⟩ := endPulses_effect allComps s
  obtain ⟨h1, h2⟩ := foldl_refilter (s := linesCleared (allComps.foldl endPulseOf s)) allLines (by decide) fun l _ => by
    rw [linesCleared_line]
    exact ⟨rfl, rfl, rfl⟩
  rw [← resetLines_eq] at h1 h2
  have hnow : (linesCleared (allComps.foldl endPulseOf s)).now = s.now := by rw [e2]; rfl
  refine ⟨fun l => ?_, ?_⟩
  · rw [h1, if_pos (mem_allLines l), linesCleared_line, hnow, e1]
    rfl
  · rw [h2]
    unfold linesCleared
    rw [e2]

end Sys2Proof.Machine
end

section
/-!
SUPPORT. The links at a warm reset (R147), and the warm reset block by block (R194).
-/

namespace Sys2Proof.Machine

open Sys2Proof

variable {s t u x : State} {k : LinkId} {o : OutputId}

/-! ### The links -/

/-- The record of a link at a warm reset (R135, R147 step 3). -/
def warmedLink (l : Link) : Link :=
  { l with
    enabled := true, receiver := [], outbound := .none, inbound := .none, viewer := .none, counters := LinkCounters.zero }

theorem warmedLink_sessionless {l m : Link} (h : sessionless l = sessionless m) : warmedLink l = warmedLink m := by
  have hw : ∀ l : Link, warmedLink l = { sessionless l with enabled := true, receiver := [], counters := LinkCounters.zero } :=
    fun _ => rfl
  rw [hw, hw, h]

theorem warmLinks_changed (s : State) : linksChanged (fun _ => warmedLink) s (allLinks.foldl warmLink s) :=
  allLinks_foldl fun _ _ _ => rfl

/-- A link with an ALIVE formed on it, the next one due 100 ms later (R140, R147 step 4). -/
def aliveFormed (s : State) (k : LinkId) (l : Link) : Link :=
  { enqueueFrame (.alive (aliveOf (s.modLink k fun _ => l) k)) l with nextAlive := s.now + 100 }

theorem warmAlives_changed (s : State) : linksChanged (aliveFormed s) s (allLinks.foldl warmAlive s) := by
  refine allLinks_foldl fun u k hu => ?_
  have hself : s.now = u.now := by rw [hu]
  have halive : aliveOf (s.modLink k fun _ => u.link k) k = aliveOf u k := by
    have hl : (s.modLink k fun _ => u.link k).link k = u.link k := State.modLink_link_same ..
    have hd : (s.modLink k fun _ => u.link k).desk = u.desk := by rw [hu]; rfl
    have hc : ∀ n, (s.modLink k fun _ => u.link k).control n = u.control n := by rw [hu]; exact fun _ => rfl
    unfold aliveOf
    simp only [hl, hd, hc]
  refine (modLink_modLink u k _ _).trans (modLink_congr ?_)
  unfold aliveFormed
  rw [halive, hself]
  rfl

theorem aliveOf_sessionless {l : Link} (ho : l.outbound = .none) (hi : l.inbound = .none) (hv : l.viewer = .none) :
    aliveOf (s.modLink k fun _ => l) k = ⟨s.desk.zones, .none, false, .none, .none⟩ := by
  have hl : (s.modLink k fun _ => l).link k = l := State.modLink_link_same ..
  unfold aliveOf
  simp only [hl, ho, hi, hv]
  rfl

/-- The links after a warm reset, from those before it. -/
theorem warmLinks_effect (s : State) :
    linksChanged (fun _ l => { enqueueFrame (.alive ⟨s.desk.zones, .none, false, .none, .none⟩) (warmedLink l) with
      nextAlive := s.now + 100 }) s (allLinks.foldl warmAlive (allLinks.foldl warmLink s)) := by
  obtain ⟨h1, h2⟩ := warmLinks_changed s
  generalize allLinks.foldl warmLink s = y at *
  obtain ⟨g1, g2⟩ := warmAlives_changed y
  have hd : y.desk = s.desk := by rw [h2]
  have hn : y.now = s.now := by rw [h2]
  refine ⟨fun k => ?_, ?_⟩
  · rw [g1, h1, aliveFormed, aliveOf_sessionless rfl rfl rfl, hd, hn]
  · rw [g2, h2]

/-! ### The whole warm reset -/

/-- The warm reset, each block from the state before it (R194). -/
structure WarmlyReset (s t : State) : Prop where
  comps : t.comps = State.reset.comps
  heads : t.heads = State.reset.heads
  layout : t.layout = State.reset.layout
  desk : t.desk = State.reset.desk
  lock : t.lock = ⟨0, false⟩
  pointer : t.pointer = State.reset.pointer
  focus : t.focus = ⟨.loc 0, .glide, some 0⟩
  router : t.router = State.reset.router
  hotkeys : t.hotkeys = State.reset.hotkeys
  matcher : t.matcher = State.reset.matcher
  lineTriggers : t.lineTriggers = State.reset.lineTriggers
  blank : t.blank = State.reset.blank
  controls : t.controls = State.reset.controls
  wake : t.wake = State.reset.wake
  scenes : t.scenes = State.reset.scenes
  crosspointStart : t.crosspointStart = none
  now : t.now = s.now
  mouse : t.mouse = s.mouse
  pending : t.pending = s.pending
  keyboard : t.keyboard = ⟨s.keyboard.attached, ⟨0, []⟩, if s.keyboard.attached then some (s.port 0).lights else none, 0, 0⟩
  port : ∀ n, t.port n = warmPort (s.port n)
  sessions : ∃ x, SessionsReset s x ∧ (∀ i, t.input i = x.input i) ∧ (∀ o, t.out o = warmedOutput o (x.out o)) ∧
    (∀ k, t.link k = { enqueueFrame (.alive ⟨1, .none, false, .none, .none⟩) (warmedLink (x.link k)) with
      nextAlive := s.now + 100 }) ∧
    ∀ l,
      let pulsed : Bool := allComps.any fun n => Attempt.pulseLine (s.wakeOf n).attempt == some l
      let ln : Line := { x.line l with level := (x.line l).level && !pulsed }
      let hold : Option Pin := if Role.isOutput ln.config.role then some (Line.pin ln) else ln.hold
      t.line l =
        { config := LineConfig.reset, filtered := none
          candidate := if hold = none then some (ln.wireLevel, s.now) else none
          level := false, hold := hold, wireLevel := ln.wireLevel, wireStrong := ln.wireStrong }

theorem warmReset_reset (s : State) : WarmlyReset s (warmReset s) := by
  have hx := resetSessions_reset s
  have ht : warmReset s = { checkLights (allLinks.foldl warmAlive (allLinks.foldl warmLink
      (resetDeskSide (resetLines (resetVideo (resetSessions s)))))) with sup := warmSup } := rfl
  generalize resetSessions s = x at *
  obtain ⟨hout, hv⟩ := resetVideo_effect x
  generalize resetVideo x = y at *
  obtain ⟨hline, hz⟩ := resetLines_effect y
  generalize resetLines y = z at *
  have hzrest : z = { s with
      controls := Vector.replicate 8 Control.reset, links := x.links, inputs := x.inputs, outputs := y.outputs
      crosspointStart := none, scenes := Vector.replicate 16 none, wake := Vector.replicate 8 WakeRecord.reset
      lines := z.lines, focus := z.focus, pointer := z.pointer, router := z.router, keyboard := z.keyboard, sup := z.sup } := by
    rw [hz, hv, hx.rest]
  have hatt : z.keyboard.attached = s.keyboard.attached := by rw [hz, hv]; exact hx.attached
  obtain ⟨hlink, hw⟩ := warmLinks_effect (resetDeskSide z)
  generalize allLinks.foldl warmAlive (allLinks.foldl warmLink (resetDeskSide z)) = w at *
  obtain ⟨hkey, hc⟩ := checkLights_effect w
  generalize checkLights w = c at *
  generalize warmReset s = t at *
  have htz : t = { resetDeskSide z with links := w.links, keyboard := c.keyboard, sup := warmSup } := by rw [ht, hc, hw]
  have htlinks : t.links = w.links := by rw [htz]
  have hports : ∀ n, w.port n = warmPort (s.port n) := by
    intro n
    have hp : w.ports = s.ports.map warmPort := by rw [hw, hzrest]; rfl
    unfold State.port
    rw [hp]
    exact pick_map ..
  constructor
  case keyboard =>
    have hwk : w.keyboard = ⟨z.keyboard.attached, KeyState.empty, none, 0, 0⟩ := by rw [hw]; rfl
    have hlights : wantedLights w = (s.port 0).lights := by
      have hf : w.focus.target = .loc 0 := by rw [hw]; rfl
      simp only [wantedLights, hf, hports]
      rfl
    rw [show t.keyboard = c.keyboard by rw [htz], hkey, hlights, hwk, hatt]
    rfl
  case port =>
    intro n
    rw [← hports, htz, hw]
    rfl
  case sessions =>
    refine ⟨x, hx, fun i => ?_, fun o => ?_, fun k => ?_, fun l => ?_⟩
    · rw [htz, hzrest]
      cases i <;> rfl
    · rw [← hout, htz, hzrest]
      rfl
    · have hk : t.link k = w.link k := by unfold State.link; rw [htlinks]
      have hd : (resetDeskSide z).link k = x.link k := by rw [hzrest]; rfl
      have hn : (resetDeskSide z).now = s.now := by rw [hzrest]; rfl
      rw [hk, hlink, hd, hn]
      rfl
    · have hl : t.line l = z.line l := by rw [htz]; rfl
      have hy : y.line l = x.line l := by rw [hv]; rfl
      have hwake : ∀ n, y.wakeOf n = s.wakeOf n := by rw [hv, hx.rest]; exact fun _ => rfl
      have hnow : y.now = s.now := by rw [hv, hx.rest]
      rw [hl, hline]
      simp only [hy, hwake, hnow]
  all_goals
    rw [hzrest] at htz
    rw [htz]
    rfl

/-- READY, placed in the empty notice queue, is taken by the transmitter (R194). -/
theorem warmSup_transmitted :
    transmitNext warmSup = { (State.reset).sup with sending := some ⟨0xF0, 0, [2]⟩, cause := .request } := by decide

theorem WarmlyReset.with_sup (h : WarmlyReset s t) (p : Supervisor) : WarmlyReset s { t with sup := p } :=
  { h with }

theorem exec_warmReset (h : s.sup.resetDue = true) :
    ∃ t, exec .warmReset s = .next t ∧ WarmlyReset s t ∧
      t.sup = { (State.reset).sup with sending := some ⟨0xF0, 0, [2]⟩, cause := .request } := by
  refine ⟨{ warmReset s with sup := transmitNext warmSup }, congrArg done (if_pos h), (warmReset_reset s).with_sup _, ?_⟩
  exact warmSup_transmitted

/-! ### An output and a line, in the terms of the statement -/

/-- Whether the output's lane ends with the session while it gives the output a signal. -/
def signalGone (s : State) (o : OutputId) : Bool :=
  match (s.out o).assignment with
  | some (.lane k) =>
    match (s.link k).inbound with
    | .active _ => s.input (.lane k) != .absent
    | _ => false
  | _ => false

theorem laneFollowed_stands (s : State) (o : OutputId) :
    laneFollowed (laneStands s) s o = if signalGone s o = true then signalLost (s.out o) else s.out o := by
  by_cases hk : ∃ k, (s.out o).assignment = some (.lane k)
  · obtain ⟨k, hk⟩ := hk
    have hg : signalGone s o = true ↔ laneStands s k = true ∧ s.input (.lane k) ≠ .absent := by
      simp only [signalGone, hk, laneStands]
      cases (s.link k).inbound <;> simp
    rw [laneFollowed_lane hk]
    simp only [hg]
  · have hk' : ∀ k, (s.out o).assignment ≠ some (.lane k) := fun k h => hk ⟨k, h⟩
    have hg : signalGone s o = false := by
      unfold signalGone
      split
      next k h => exact absurd h (hk' k)
      · rfl
    rw [laneFollowed_other hk', hg]
    rfl

theorem defaultTarget_ne_lane (o : OutputId) (k : LinkId) : defaultTarget o ≠ some (.lane k) := by
  unfold defaultTarget
  split <;> simp

/-- An output at its default target has no lane to lose. -/
theorem signalGone_default (h : (s.out o).assignment = defaultTarget o) : signalGone s o = false := by
  unfold signalGone
  split
  next k hk => exact absurd (h.symm.trans hk) (defaultTarget_ne_lane o k)
  · rfl

theorem signalLost_blanking {p : Output} {d : Target} {e : Nat} :
    (signalLost p).state = .blanking d e ↔ p.state = .blanking d e := by
  unfold signalLost
  cases hs : p.state <;> simp [hs]

theorem followed_blanking {c : Bool} {p : Output} {d : Target} {e : Nat} :
    (if c = true then signalLost p else p).state = .blanking d e ↔ p.state = .blanking d e := by
  split
  · exact signalLost_blanking
  · rfl

/-- The state that a warm reset leaves an output in (R114). -/
def warmedState (lost : Bool) (o : OutputId) : OutputState → OutputState
  | .blanking _ e => .blanking (defaultTarget o) e
  | .locking d u => .locking d (if lost then none else u)
  | .showing => if lost then .noSignal else .showing
  | st => st

theorem followed_state (c : Bool) (o : OutputId) (p : Output) :
    OutputState.switchedTo (defaultTarget o) (if c = true then signalLost p else p).state = warmedState c o p.state := by
  unfold signalLost
  cases c <;> cases hs : p.state <;> simp [hs, OutputState.switchedTo, warmedState]

/-- Whether a TALLY line's focus ends with its session. -/
def tallyUnfocused (s : State) (l : LineId) : Bool :=
  match (s.line l).config.role, s.focus.target with
  | .tally _, .rem k =>
    match (s.link k).inbound with
    | .active _ => true
    | _ => false
  | _, _ => false

theorem SessionsReset.line_level (h : SessionsReset s x) (l : LineId) :
    x.line l = { s.line l with level := (s.line l).level && !tallyUnfocused s l } := by
  have htally : ∀ n, (s.line l).config.role = .tally n → tallyUnfocused s l = focusLost (laneStands s) s := by
    intro n hr
    simp only [tallyUnfocused, hr, focusLost, laneStands]
    cases s.focus.target <;> rfl
  rw [h.line]
  cases hr : (s.line l).config.role with
  | tally n =>
    rw [htally n hr]
    cases focusLost (laneStands s) s
    · simp
    · simp [talliedLine, hr]
  | _ =>
    have hu : tallyUnfocused s l = false := by simp only [tallyUnfocused, hr]
    have ht : talliedLine .none (s.line l) = s.line l := by simp only [talliedLine, hr]
    rw [hu, ht]
    simp

end Sys2Proof.Machine
end

section
/-! The warm reset (O13). -/

open Sys2Proof Sys2Proof.Machine

/-- Settles O13: the blocks that a warm reset writes, and what the end of the sessions has left of the rest. -/
theorem warmResetValues : Obligations.WarmResetValues := by
  intro s hdue
  obtain ⟨t, hexec, hw, hsup⟩ := exec_warmReset hdue
  obtain ⟨x, hx, hin, hout, hlink, hline⟩ := hw.sessions
  refine ⟨t, hexec, hw.comps, hw.heads, hw.layout, hw.desk, hw.lock, hw.pointer, hw.focus, hw.router, hw.hotkeys, hw.matcher,
    hw.lineTriggers, hw.blank, hw.controls, hw.wake, hw.scenes, hw.crosspointStart, hw.now, hw.mouse, hw.pending, hw.keyboard,
    hw.port, fun i => (hin _).trans (hx.head i), fun k => ?_, fun o => ?_, fun k => ?_, fun l => ?_, hsup⟩
  · refine (hin _).trans ((hx.lane k).trans ?_)
    unfold laneStands
    cases (s.link k).inbound <;> rfl
  · intro p lost shows
    have hto : t.out o = warmedOutput o (if lost = true then signalLost p else p) := by
      rw [hout, warmedOutput_like (hx.out o), laneFollowed_stands]
      rfl
    have ha : (if lost = true then signalLost p else p).assignment = p.assignment := by
      split
      · exact signalLost_assignment p
      · rfl
    have hs : ((if lost = true then signalLost p else p).assignment = defaultTarget o ∧
        (if lost = true then signalLost p else p).state = if o.val < 4 then .showing else .dark) ↔ shows := by
      rw [ha]
      refine and_congr_right fun hd => ?_
      rw [if_neg (by rw [show lost = signalGone s o from rfl, signalGone_default hd]; exact Bool.false_ne_true)]
    obtain ⟨hfields, hnone, hsome⟩ := warmedOutput_fields o (if lost = true then signalLost p else p)
    rw [← hto, ha, followed_state] at hfields
    simp only [← hto, hs, followed_blanking] at hnone hsome
    simp only [ne_eq, followed_blanking] at hsome
    exact ⟨hfields, hnone, hsome⟩
  · refine (hlink k).trans ?_
    rw [warmedLink_sessionless (hx.link k)]
    rfl
  · refine (hline l).trans ?_
    rw [hx.line_level]
    simp only [Bool.and_right_comm _ (!tallyUnfocused s l)]
    rfl

end

section
/-!
SUPPORT. The mapping arithmetic of chapter 2 (R6, R33, R35).
-/

namespace Sys2Proof.Machine

open Sys2Proof

variable {s : State} {h : Head}

/-! ### Stage C and the effective size -/

theorem stageC_le {p x0 w W : Nat} (h0 : x0 ≤ p) (hp : p < x0 + w) (hW : 1 ≤ W) : stageC p x0 w W ≤ W - 1 := by
  have hlt : (p - x0) * W < w * W := Nat.mul_lt_mul_of_pos_right (by omega) hW
  exact Nat.le_sub_one_of_lt (Nat.div_lt_of_lt_mul hlt)

theorem stageC_product_le {p x0 w W : Nat} (h0 : x0 ≤ p) (hp : p < x0 + w) (hw : w ≤ 16384) (hW : W ≤ 8192) :
    (p - x0) * W ≤ 134209536 :=
  calc (p - x0) * W ≤ 16383 * 8192 := Nat.mul_le_mul (by omega) hW
    _ = 134209536 := rfl

theorem usable_iff {m : Mode} :
    Mode.usable m = true ↔ m.width ≠ 0 ∧ m.height ≠ 0 ∧ m.width ≤ 8192 ∧ m.height ≤ 8192 := decide_eq_true_iff

theorem effSize_usable {m : Mode} (hi : s.input (.head h) = .measured m) (hu : Mode.usable m = true) :
    effSize s h = (m.width, m.height) := by
  simp only [effSize, hi, hu, if_true]

theorem effSize_nominal (hu : ∀ m, s.input (.head h) = .measured m → Mode.usable m = false) :
    effSize s h = ((s.headMap h).w, (s.headMap h).h) := by
  unfold effSize
  split
  next m hm => rw [hu m hm]; rfl
  · rfl

/-! ### Stage E -/

theorem stageE_one (g : Nat) : stageE g 1 = 0 := rfl

theorem stageE_of_lt {g v : Nat} (hv : 1 < v) : stageE g v = (2 * g * 32767 + (v - 1)) / (2 * (v - 1)) :=
  if_neg (Nat.not_le.mpr hv)

theorem stageE_last {v : Nat} (hv : 1 < v) : stageE (v - 1) v = 32767 := by
  have hsplit : 2 * (v - 1) * 32767 + (v - 1) = (v - 1) + 2 * (v - 1) * 32767 := Nat.add_comm ..
  rw [stageE_of_lt hv, hsplit, Nat.add_mul_div_left _ _ (by omega), Nat.div_eq_of_lt (by omega), Nat.zero_add]

theorem stageE_mono {g g' v : Nat} (hg : g ≤ g') (hv : 1 < v) : stageE g v ≤ stageE g' v := by
  rw [stageE_of_lt hv, stageE_of_lt hv]
  exact Nat.div_le_div_right (by omega)

theorem stageE_zero (v : Nat) : stageE 0 v = 0 := by
  unfold stageE
  split
  · rfl
  · exact Nat.div_eq_of_lt (by omega)

theorem stageE_le {g v : Nat} (hg : g ≤ v - 1) : stageE g v ≤ 32767 := by
  by_cases hv : 1 < v
  · exact (stageE_mono hg hv).trans (stageE_last hv).le
  · exact (if_pos (Nat.not_lt.mp hv)).le.trans (Nat.zero_le _)

end Sys2Proof.Machine
end

section
/-! Stages C and E (O20). -/

open Sys2Proof Sys2Proof.Machine

/-- Settles O20: stage C stays below the head's size because the local coordinate stays below the tile's, and stage E is
monotone up to its last pixel. -/
theorem mappingStagesCAndE : Obligations.MappingStagesCAndE := by
  refine ⟨fun p x0 w W h0 hp hw hW1 hW => ⟨rfl, stageC_le h0 hp hW1, stageC_product_le h0 hp hw hW⟩,
    fun s h => ⟨fun m hi hw hh hw' hh' => effSize_usable hi (usable_iff.mpr ⟨hw, hh, hw', hh'⟩),
      fun hbad => effSize_nominal fun m hm => ?_⟩,
    fun g v hv hv' hg => ⟨fun h1 => ?_, fun h1 => ⟨stageE_of_lt h1, fun h => ?_⟩, stageE_zero v, stageE_le hg, by omega⟩⟩
  · rw [Bool.eq_false_iff, Ne, usable_iff]
    have := hbad m hm
    omega
  · rw [h1, stageE_one]
  · rw [h, stageE_last h1]

end

section
/-!
SUPPORT. PLACE_POINTER: its refusals, and the clamped move with the re-evaluation after it (R31).
-/

namespace Sys2Proof.Machine

open Sys2Proof

variable {s u : State} {m : Monitor} {t : Tile} {x y : Nat} {b x1 x0 y1 y0 : Byte}

theorem monitorOf_eq_some (h : b.toNat = m.val + 1) : monitorOf b = some m := by
  have hm := m.isLt
  rw [show b = BitVec.ofNat 8 (m.val + 1) from BitVec.eq_of_toNat_eq (by rw [h, toNat_byte (by omega)])]
  exact monitorOf_byte m

theorem tileOf_eq_none {l : List Tile} (h : ∀ t ∈ l, t.monitor ≠ m) : tileOf l m = none :=
  List.find?_eq_none.mpr fun t ht => by simpa using h t ht

theorem blanked_of_clear (h : s.blank.state = .clear) : blanked s = false := by simp [blanked, h]

theorem blanked_of_not_clear (h : s.blank.state ≠ .clear) : blanked s = true := by simpa [blanked] using h

theorem judgePlacePointer_none (h : monitorOf b = none) : judgePlacePointer [b, x1, x0, y1, y0] s = refuse .badArg s := by
  simp only [judgePlacePointer, h]

theorem judgePlacePointer_some (h : monitorOf b = some m) :
    judgePlacePointer [b, x1, x0, y1, y0] s = placePointer m (num2 x1 x0) (num2 y1 y0) s := by
  simp only [judgePlacePointer, h]

theorem placePointer_no_tile (h : tileOf s.layout m = none) : placePointer m x y s = refuse .wrongState s := by
  simp only [placePointer, h]

theorem placePointer_blanked (h : tileOf s.layout m = some t) (hb : blanked s = true) :
    placePointer m x y s = refuse .blanked s := by
  simp only [placePointer, h, hb, if_true]

/-- The pointer has been moved into the tile, before the focus is looked at. -/
def pointerPlaced (t : Tile) (x y : Nat) (s : State) : State :=
  movePointer (clampTo t.x0 (t.x0 + t.w - 1) x) (clampTo t.y0 (t.y0 + t.h - 1) y) s

theorem placePointer_placed (h : tileOf s.layout m = some t) (hb : blanked s = false) :
    placePointer m x y s = okay (reevaluate m (pointerPlaced t x y s)) := by
  simp only [placePointer, h, hb, Bool.false_eq_true, if_false]
  rfl

end Sys2Proof.Machine
end

section
/-! PLACE_POINTER (O19). -/

open Sys2Proof Sys2Proof.Machine

/-- Settles O19: the refusals in the model's order, and otherwise a re-evaluation from the state with the pointer moved, which
differs from the first in the pointer's place alone. -/
theorem placePointerClampsIntoTile : Obligations.PlacePointerClampsIntoTile := by
  intro tag b x1 x0 y1 y0 s r ht refused
  have answers : ∀ {c : ResultCode}, judgePlacePointer r.body (begun r s) = refuse c (begun r s) → refused c :=
    fun hj => exec_request r judgePlacePointer s ht _ _ _ hj
  have either : ∀ {c : ResultCode}, refused c →
      if s.blank.state = .clear then refused c else refused c ∨ refused .blanked := by
    intro c hc
    split
    · exact hc
    · exact .inl hc
  refine ⟨fun hb => either (answers (judgePlacePointer_none (monitorOf_eq_none hb))), fun m hm => ?_⟩
  have hj : judgePlacePointer r.body (begun r s) = placePointer m (num2 x1 x0) (num2 y1 y0) (begun r s) :=
    judgePlacePointer_some (monitorOf_eq_some hm)
  refine ⟨fun hno => either (answers (hj.trans (placePointer_no_tile (tileOf_eq_none hno)))), fun t htile =>
    ⟨fun hb => answers (hj.trans (placePointer_blanked htile (blanked_of_not_clear hb))), fun hb => ?_⟩⟩
  obtain ⟨hfocus, hsame, hchanged, hlines, hbc, hptr, hrest⟩ :=
    reevaluate_effect m (pointerPlaced t (num2 x1 x0) (num2 y1 y0) (begun r s))
  refine answered_ok ht (hj.trans (placePointer_placed htile (blanked_of_clear hb))) ⟨?_, ?_, ?_, ?_, ?_, hfocus, fun h => ?_,
    hchanged, hlines, hbc, ?_, ?_, ?_, hrest⟩
  case refine_6 =>
    obtain ⟨hp, hports, hkept⟩ := hsame h
    exact ⟨by rw [hp]; rfl, hports, hkept⟩
  all_goals rw [hptr]; rfl

end

section
/-!
SUPPORT. What a focus write that places the pointer leaves behind (R30, R39, R40), and the targets that SET_FOCUS names
(R41).
-/

namespace Sys2Proof.Machine

open Sys2Proof

variable {s u x : State} {t : FocusTarget} {b : Byte}

/-! ### Placing the pointer -/

/-- The desk pointer at the centre of a tile, settled there; it stays when there is no tile (R30). -/
def DeskPointer.centredIn (p : DeskPointer) : Option Tile → DeskPointer
  | some b => { DeskPointer.settled p with px := (Tile.centre b).1, py := (Tile.centre b).2 }
  | none => p

theorem placeAt_eq (m : Option Monitor) (s : State) :
    placeAt m s = { s with pointer := DeskPointer.centredIn s.pointer (m.bind (tileOf s.layout)) } := by
  unfold placeAt
  cases m.bind (tileOf s.layout) <;> rfl

theorem centredIn_kept (p : DeskPointer) (b : Option Tile) :
    (DeskPointer.centredIn p b).capture = p.capture ∧ (DeskPointer.centredIn p b).glideZone = p.glideZone ∧
      (DeskPointer.centredIn p b).glideFrom = p.glideFrom ∧ (DeskPointer.centredIn p b).gain = p.gain ∧
      (DeskPointer.centredIn p b).threshold = p.threshold ∧ (DeskPointer.centredIn p b).dwell = p.dwell := by
  cases b <;> exact ⟨rfl, rfl, rfl, rfl, rfl, rfl⟩

/-- Two pointers at one place with the same residuals and the same edge pressure. -/
def samePlace (p q : DeskPointer) : Prop :=
  p.px = q.px ∧ p.py = q.py ∧ p.rx = q.rx ∧ p.ry = q.ry ∧ p.pressure = q.pressure

theorem samePlace.centredIn {p q : DeskPointer} (h : samePlace p q) (b : Option Tile) :
    samePlace (DeskPointer.centredIn p b) (DeskPointer.centredIn q b) := by
  cases b with
  | none => exact h
  | some b => exact ⟨rfl, rfl, rfl, rfl, rfl⟩

/-! ### The end of a capture -/

theorem clearCapture_eq (s : State) :
    clearCapture s = { s with pointer := { s.pointer with capture := false }, ports := (clearCapture s).ports } := by
  unfold clearCapture
  split
  · dsimp only
    split <;> rfl
  next hc =>
    have h : s.pointer.capture = false := by simpa using hc
    rw [← h]

theorem clearCapture_port (s : State) (m : Comp) :
    (clearCapture s).port m =
      if s.pointer.capture = true ∧ s.focus.target = .loc m then carryCleared (s.port m) else s.port m := by
  unfold clearCapture
  by_cases hc : s.pointer.capture = true
  · rw [if_pos hc]
    cases hf : s.focus.target with
    | loc n =>
      simp only [clearCarry, State.modPort_port, hc, true_and, FocusTarget.loc.injEq, State.modPointer_port, eq_comm (a := m)]
      rfl
    | rem k => simp
    | none => simp
  · rw [if_neg hc, if_neg fun h => hc h.1]

/-! ### A write that places the pointer -/

theorem refocused.with_pointer (h : refocused s u) {q : DeskPointer} (hc : q.capture = u.pointer.capture)
    (hz : q.glideZone = u.pointer.glideZone) (hf : q.glideFrom = u.pointer.glideFrom) :
    refocused s { u with pointer := q } := by
  obtain ⟨hcap, hmask, hcomps, hlinks, hkey, hnone, hloc, hrem⟩ := h
  rw [← hc] at hcap
  rw [← hz, ← hf] at hnone hloc hrem
  exact ⟨hcap, hmask, hcomps, hlinks, hkey, hnone, hloc, hrem⟩

/-- The record `r` has been written by a cause that places the pointer: a changed target acts as at every focus change, and an
unchanged one ends a capture (R30, R39, R40). -/
structure PlacedWrite (r : FocusRecord) (s u : State) : Prop where
  focus : u.focus = r
  place : samePlace u.pointer (DeskPointer.centredIn s.pointer (r.tile.bind (tileOf s.layout)))
  capture : u.pointer.capture = false
  gain : u.pointer.gain = s.pointer.gain
  threshold : u.pointer.threshold = s.pointer.threshold
  dwell : u.pointer.dwell = s.pointer.dwell
  broadcast : u.router.broadcast = s.router.broadcast
  same : r.target = s.focus.target → targetKept s u ∧ ∀ m, u.port m =
    if s.pointer.capture = true ∧ r.target = .loc m then carryCleared (s.port m) else s.port m
  changed : r.target ≠ s.focus.target → refocused s u
  lines : linesFollow s u
  rest : u = { s with
    pointer := u.pointer, focus := u.focus, router := u.router, ports := u.ports, controls := u.controls
    keyboard := u.keyboard, lines := u.lines, links := u.links, sup := toldWrite s u s.sup }

theorem writePlaced_same (o : Origin) (c : Option Monitor) (ht : t = s.focus.target) :
    PlacedWrite ⟨t, o, c⟩ s (writePlaced t o c s) := by
  obtain ⟨hsup, hfocus⟩ := writePlaced_sup t o c s
  have heq : writePlaced t o c s = noticeFocus s (placeAt c ((clearCapture s).setFocus ⟨t, o, c⟩)) := if_pos ht
  have hport := clearCapture_port s
  have hclear := clearCapture_eq s
  rw [noticeFocus_eq, placeAt_eq] at heq
  generalize clearCapture s = y at *
  generalize writePlaced t o c s = u at *
  have hptr : u.pointer = DeskPointer.centredIn { s.pointer with capture := false } (c.bind (tileOf s.layout)) := by
    rw [heq, hclear]
    rfl
  obtain ⟨hcap, hz, hf, hg, hth, hd⟩ := centredIn_kept { s.pointer with capture := false } (c.bind (tileOf s.layout))
  refine ⟨hfocus, ?_, by rw [hptr, hcap], by rw [hptr, hg], by rw [hptr, hth], by rw [hptr, hd], by rw [heq, hclear]; rfl,
    fun _ => ⟨⟨by rw [hptr, hz], by rw [hptr, hf], ?_, ?_, ?_, ?_⟩, fun m => ?_⟩, fun hne => absurd ht hne,
    linesFollow_same (by rw [hfocus]; exact ht) ?_, ?_⟩
  · rw [hptr]
    exact samePlace.centredIn (p := { s.pointer with capture := false }) (q := s.pointer) ⟨rfl, rfl, rfl, rfl, rfl⟩ _
  · rw [heq, hclear]; rfl
  · rw [heq, hclear]; rfl
  · rw [heq, hclear]; rfl
  · rw [heq, hclear]; rfl
  · dsimp only
    rw [ht, ← hport, heq]
    rfl
  · rw [heq, hclear]
    exact fun _ => rfl
  · rw [← hsup, heq, hclear]
    rfl

theorem focusChange_placed (t : FocusTarget) (o : Origin) (c : Option Monitor) (s : State) :
    focusChange t o c true s = placeAt c (focusChange t o c false s) := by
  simp only [focusChange, if_true, Bool.false_eq_true, if_false]

theorem writePlaced_changed (o : Origin) (c : Option Monitor) (ht : t ≠ s.focus.target) :
    PlacedWrite ⟨t, o, c⟩ s (writePlaced t o c s) := by
  have heq : writePlaced t o c s = placeAt c (focusChange t o c false s) :=
    (if_neg ht).trans (focusChange_placed t o c s)
  obtain ⟨hfocus, href, hlines, hbc, hptr, hrest⟩ := focusChange_moved (s := s) o c ht
  generalize focusChange t o c false s = v at *
  have hlayout : v.layout = s.layout := by rw [hrest]
  have hplaced : placeAt c v = { v with pointer := DeskPointer.centredIn v.pointer (c.bind (tileOf s.layout)) } := by
    rw [placeAt_eq, hlayout]
  rw [hplaced] at heq
  obtain ⟨hcap, hz, hf, hg, hth, hd⟩ := centredIn_kept v.pointer (c.bind (tileOf s.layout))
  rw [heq]
  refine ⟨hfocus, ?_, hcap.trans (by rw [hptr]), hg.trans (by rw [hptr]), hth.trans (by rw [hptr]), hd.trans (by rw [hptr]), hbc,
    fun h => absurd h ht, fun _ => href.with_pointer hcap hz hf, hlines, ?_⟩
  · refine samePlace.centredIn ?_ _
    rw [hptr]
    exact ⟨rfl, rfl, rfl, rfl, rfl⟩
  · exact congrArg (fun w : State => { w with pointer := DeskPointer.centredIn v.pointer (c.bind (tileOf s.layout)) }) hrest

theorem writePlaced_written (t : FocusTarget) (o : Origin) (c : Option Monitor) (s : State) :
    PlacedWrite ⟨t, o, c⟩ s (writePlaced t o c s) := by
  by_cases ht : t = s.focus.target
  · exact writePlaced_same o c ht
  · exact writePlaced_changed o c ht

theorem PlacedWrite.centred {o : Origin} {m : Monitor} {d : Tile} (h : PlacedWrite ⟨t, o, some m⟩ s u)
    (hd : tileOf s.layout m = some d) :
    u.pointer.px = d.x0 + d.w / 2 ∧ u.pointer.py = d.y0 + d.h / 2 ∧ u.pointer.rx = 0 ∧ u.pointer.ry = 0 ∧
      u.pointer.pressure = ⟨none, 0, none⟩ := by
  have hp := h.place
  rw [Option.bind_some, hd] at hp
  exact hp

theorem PlacedWrite.stayed {o : Origin} (h : PlacedWrite ⟨t, o, none⟩ s u) : samePlace u.pointer s.pointer := h.place

/-! ### The targets -/

theorem focusTargetOf_none (h : 10 < b.toNat) : focusTargetOf b = none := by
  unfold focusTargetOf
  split
  · omega
  · omega
  · omega
  · rw [compOf_eq_none.mpr (by omega), Option.map_none]

theorem focusTargetOf_byte (h : focusByte t = [b]) : focusTargetOf b = some t := by
  cases t with
  | none => cases h; rfl
  | loc n => cases h; revert n; decide
  | rem k => cases h; revert k; decide

theorem judgeSetFocus_none (h : focusTargetOf b = none) : judgeSetFocus [b] s = refuse .badArg s := by
  simp only [judgeSetFocus, h]

theorem judgeSetFocus_some (h : focusTargetOf b = some t) : judgeSetFocus [b] s = requestFocus t s := by
  simp only [judgeSetFocus, h]

theorem requestFocus_inactive {k : LinkId} (h : activeOffer s k = none) : requestFocus (.rem k) s = refuse .wrongState s := by
  simp [requestFocus, h]

theorem requestFocus_taken (h : ∀ k, t = .rem k → activeOffer s k ≠ none) :
    requestFocus t s = okay (writePlaced t .request (placement s (assignmentOf s) t) s) := by
  cases t with
  | none => rfl
  | loc n => rfl
  | rem k => exact if_pos (Option.isSome_iff_ne_none.mpr (h k rfl))

end Sys2Proof.Machine
end

section
/-! The focus by request (O25). -/

open Sys2Proof Sys2Proof.Machine

/-- Settles O25: the request is a focus write that places the pointer, from the state in which it runs. -/
theorem focusSetByRequest : Obligations.FocusSetByRequest := by
  intro tag b s r ht
  refine ⟨fun hb => exec_request r judgeSetFocus s ht _ _ _ (judgeSetFocus_none (focusTargetOf_none hb)), fun target hb =>
    ⟨fun k hk ho => ?_, fun ho => ?_⟩⟩
  · subst hk
    exact exec_request r judgeSetFocus s ht _ _ _
      ((judgeSetFocus_some (focusTargetOf_byte hb)).trans (requestFocus_inactive ho))
  have hj : judgeSetFocus r.body (begun r s) =
      okay (writePlaced target .request (placement s (assignmentOf s) target) (begun r s)) :=
    (judgeSetFocus_some (focusTargetOf_byte hb)).trans (requestFocus_taken ho)
  have hw := writePlaced_written target .request (placement s (assignmentOf s) target) (begun r s)
  refine answered_ok ht hj ⟨hw.focus, fun m d hm hd => ?_, fun hm => ?_, hw.capture, hw.gain, hw.threshold, hw.dwell,
    hw.broadcast, hw.same, hw.changed, hw.lines, hw.rest⟩
  · rw [hm] at hw ⊢
    exact hw.centred hd
  · rw [hm] at hw ⊢
    exact hw.stayed

end

section
/-!
SUPPORT. A valid frame on an enabled UP link (R136): what it writes in the link before the unit it addresses takes it.
-/

namespace Sys2Proof.Machine

open Sys2Proof

variable {s : State} {k j : LinkId} {m : LinkMsg}

/-- The link after a valid frame: counted, its time written, the receiver hunting (R136). -/
def frameTaken (k : LinkId) (s : State) : Link :=
  { s.link k with
    receiver := [], lastValid := some s.now, counters := { (s.link k).counters with
      received := min ((s.link k).counters.received + 1) 4294967295 } }

/-- The link after a valid frame that has found nothing to act on (R136). -/
def frameLost (k : LinkId) (s : State) : Link :=
  { frameTaken k s with counters := { (frameTaken k s).counters with
    discarded := min ((s.link k).counters.discarded + 1) 4294967295 } }

/-- The state in which a valid frame is handed to the unit it addresses. -/
def heard (k : LinkId) (s : State) : State := s.modLink k fun _ => frameTaken k s

theorem heard_link_same (k : LinkId) (s : State) : (heard k s).link k = frameTaken k s := State.modLink_link_same ..

theorem heard_link_ne (h : j ≠ k) : (heard k s).link j = s.link j := State.modLink_link_ne _ _ _ _ h

/-- One link written and nothing else. -/
theorem modLink_const_link (x : Link) :
    (s.modLink k fun _ => x).link k = x ∧ ∀ j, j ≠ k → (s.modLink k fun _ => x).link j = s.link j :=
  ⟨State.modLink_link_same .., fun _ h => State.modLink_link_ne _ _ _ _ h⟩

theorem modLink_heard (f : Link → Link) : (heard k s).modLink k f = s.modLink k fun _ => f (frameTaken k s) :=
  modLink_modLink ..

theorem sendFrame_heard : sendFrame k m (heard k s) = s.modLink k fun _ => enqueueFrame m (frameTaken k s) :=
  modLink_heard _

theorem discardFrame_heard : discardFrame k (heard k s) = s.modLink k fun _ => frameLost k s := modLink_heard _

theorem stamp_received_eq_heard :
    stamp k (received k (s.modLink k fun l => { l with receiver := [] })) = heard k s := by
  unfold stamp received
  rw [modLink_modLink, modLink_modLink]
  exact modLink_congr rfl

theorem wholeFrame_heard (hm : LinkMsg.sendable m = true) (he : (s.link k).enabled = true) (hu : (s.link k).up = true) :
    wholeFrame k m s = dispatchFrame k m (heard k s) := by
  have hl := State.modLink_link_same s k fun l => { l with receiver := [] }
  unfold wholeFrame
  simp only [hm, if_true]
  unfold frameIn
  rw [hl, he, hu, stamp_received_eq_heard]
  rfl

theorem wholeFrame_malformed (hm : LinkMsg.sendable m = false) :
    wholeFrame k m s = s.modLink k fun _ => { s.link k with
      receiver := [], counters := { (s.link k).counters with
        malformed := min ((s.link k).counters.malformed + 1) 4294967295 } } := by
  unfold wholeFrame
  simp only [hm, Bool.false_eq_true, if_false]
  unfold malformed
  rw [modLink_modLink]
  exact modLink_congr rfl

end Sys2Proof.Machine
end

section
/-!
SUPPORT. The viewer control state (R161): what a change to NONE or REQUESTED leaves, and the requests and frames that move it.
-/

namespace Sys2Proof.Machine

open Sys2Proof

variable {s u x : State} {k : LinkId} {v : ViewerControl} {c : ViewerCause} {kind : ClaimKind} {b b0 b1 : Byte} {r : DenyReason}

/-! ### A state other than HELD -/

/-- The desk pointer when the lane of DLk misses HELD control: a capture on the lane has ended (R28). -/
def laneReleased (k : LinkId) (s : State) : DeskPointer :=
  if s.focus.target = .rem k then { s.pointer with capture := false } else s.pointer

theorem laneReleased_eq (k : LinkId) (s : State) :
    { s.pointer with capture := s.pointer.capture && !(s.focus.target == .rem k) } = laneReleased k s := by
  unfold laneReleased
  by_cases h : s.focus.target = .rem k
  · rw [if_pos h, h, beq_self_eq_true, Bool.not_true, Bool.and_false]
  · rw [if_neg h, beq_false_of_ne h, Bool.not_false, Bool.and_true]

/-- A change to a state other than HELD writes the link and ends a capture on the lane. -/
theorem viewerMoved.without_control (h : viewerMoved k v c s u) (hv : v ≠ .held) :
    u = { s with
      links := u.links, pointer := laneReleased k s, sup := queueNotice .share (viewerNotice k v c) s.sup } := by
  obtain ⟨-, -, -, hmask, hkeys, hptr, hother, hrest⟩ := h
  have hheld : (v == ViewerControl.held) = false := by simpa using hv
  simp only [hheld, Bool.false_and, Bool.not_false, Bool.true_and, Bool.false_eq_true, if_false, laneReleased_eq] at *
  have hk : u.router.linkKeys = s.router.linkKeys := by
    refine vector_ext fun j => ?_
    by_cases hj : j = k
    · exact hj ▸ hkeys
    · exact (hother j hj).1
  have hp : u.router.linkPointer = s.router.linkPointer := by
    refine vector_ext fun j => ?_
    by_cases hj : j = k
    · exact hj ▸ hptr
    · exact (hother j hj).2
  rw [hmask trivial, hk, hp] at hrest
  exact hrest

/-- The state of DLk has been written together with what a frame had left of the link. -/
theorem setViewer_modLink (f : Link → Link) (hv : v ≠ .held) (hne : (f (s.link k)).viewer ≠ v) :
    let u := setViewer k v c (s.modLink k f)
    u.link k = { f (s.link k) with viewer := v } ∧ (∀ j, j ≠ k → u.link j = s.link j) ∧
      u = { s with
        links := u.links, pointer := laneReleased k s, sup := queueNotice .share (viewerNotice k v c) s.sup } := by
  intro u
  have hl := State.modLink_link_same s k f
  have hm := setViewer_moved k v c (s.modLink k f) (by rw [hl]; exact hne)
  have hrest := hm.without_control hv
  obtain ⟨hk, hj, -⟩ := hm
  exact ⟨hk.trans (by rw [hl]), fun j h => (hj j h).trans (State.modLink_link_ne _ _ _ _ h), hrest⟩

/-! ### Requests -/

theorem linkOf_eq_none (h : b = 0 ∨ 2 < b.toNat) : linkOf b = none := by
  rw [byte_eq_zero_iff] at h
  exact dif_neg (by omega)

theorem linkOf_byte (k : LinkId) : linkOf (BitVec.ofNat 8 (k.val + 1)) = some k := by revert k; decide

theorem claimKindOf_eq_none (h : 1 < b.toNat) : claimKindOf b = none := by
  unfold claimKindOf
  split
  · omega
  · omega
  · rfl

theorem judgeClaimControl_none (h : b0 = 0 ∨ 2 < b0.toNat ∨ 1 < b1.toNat) :
    judgeClaimControl [b0, b1] s = refuse .badArg s := by
  simp only [judgeClaimControl]
  split
  next hk hc =>
    rcases h with h | h | h
    · rw [linkOf_eq_none (.inl h)] at hk; cases hk
    · rw [linkOf_eq_none (.inr h)] at hk; cases hk
    · rw [claimKindOf_eq_none h] at hc; cases hc
  · rfl

theorem judgeClaimControl_bytes : judgeClaimControl (linkByte k ++ claimKindByte kind) s = claimControl k kind s := by
  cases kind <;>
    simp only [linkByte, byte1, claimKindByte, List.cons_append, List.nil_append, judgeClaimControl, linkOf_byte] <;> rfl

theorem claimControl_down (h : (s.link k).up = false) : claimControl k kind s = refuse .linkDown s := by
  simp [claimControl, h]

theorem claimControl_wrong (hu : (s.link k).up = true)
    (h : (∀ o, (s.link k).inbound ≠ .active o) ∨ (s.link k).viewer ≠ .none) : claimControl k kind s = refuse .wrongState s := by
  unfold claimControl activeOffer
  rw [hu]
  cases hi : (s.link k).inbound with
  | none => rfl
  | offeredIn o t => rfl
  | active o =>
    have hv : (s.link k).viewer ≠ .none := h.resolve_left fun h => h o hi
    cases hw : (s.link k).viewer with
    | none => exact absurd hw hv
    | requested => rfl
    | held => rfl

theorem claimControl_taken (hu : (s.link k).up = true) (hi : ∃ o, (s.link k).inbound = .active o)
    (hv : (s.link k).viewer = .none) :
    claimControl k kind s = accepted (setViewer k .requested .claimed (s.modLink k (enqueueFrame (.claim kind)))) := by
  obtain ⟨o, hi⟩ := hi
  unfold claimControl activeOffer
  simp only [hu, hi, hv]
  rfl

theorem judgeReleaseControl_none (h : b = 0 ∨ 2 < b.toNat) : judgeReleaseControl [b] s = refuse .badArg s := by
  simp only [judgeReleaseControl, linkOf_eq_none h]

theorem judgeReleaseControl_byte : judgeReleaseControl (linkByte k) s = releaseControl k s := by
  simp only [linkByte, byte1, judgeReleaseControl, linkOf_byte]

theorem releaseControl_down (h : (s.link k).up = false) : releaseControl k s = refuse .linkDown s := by
  simp [releaseControl, h]

theorem releaseControl_none (hu : (s.link k).up = true) (hv : (s.link k).viewer = .none) :
    releaseControl k s = refuse .wrongState s := by
  unfold releaseControl
  simp only [hu, hv]
  rfl

theorem releaseControl_taken (hu : (s.link k).up = true) (hv : (s.link k).viewer ≠ .none) :
    releaseControl k s = okay (setViewer k .none .released (s.modLink k (enqueueFrame .release))) := by
  unfold releaseControl
  rw [hu]
  cases hw : (s.link k).viewer with
  | none => exact absurd hw hv
  | requested => rfl
  | held => rfl

/-! ### Frames -/

theorem takeGrant_none (h : (frameTaken k s).viewer = .none) :
    takeGrant k (heard k s) = s.modLink k fun _ => enqueueFrame .release (frameTaken k s) := by
  simp only [takeGrant, heard_link_same, h, sendFrame_heard]

theorem takeGrant_held (h : (frameTaken k s).viewer = .held) : takeGrant k (heard k s) = heard k s := by
  simp only [takeGrant, heard_link_same, h]

theorem takeGrant_requested (h : (frameTaken k s).viewer = .requested) :
    takeGrant k (heard k s) = setViewer k .held .granted (heard k s) := by
  simp only [takeGrant, heard_link_same, h]

theorem takeDeny_requested (h : (frameTaken k s).viewer = .requested) :
    takeDeny k r (heard k s) = setViewer k .none (.denied r) (heard k s) := by
  simp only [takeDeny, heard_link_same, h]

theorem takeDeny_other (h : (frameTaken k s).viewer ≠ .requested) :
    takeDeny k r (heard k s) = s.modLink k fun _ => frameLost k s := by
  unfold takeDeny
  rw [heard_link_same]
  split
  next hv => exact absurd hv h
  · exact discardFrame_heard

theorem takeRevoke_held (h : (frameTaken k s).viewer = .held) :
    takeRevoke k (heard k s) = setViewer k .none .revoked (heard k s) := by
  simp only [takeRevoke, heard_link_same, h]

theorem takeRevoke_other (h : (frameTaken k s).viewer ≠ .held) :
    takeRevoke k (heard k s) = s.modLink k fun _ => frameLost k s := by
  unfold takeRevoke
  rw [heard_link_same]
  split
  next hv => exact absurd hv h
  · exact discardFrame_heard

/-- What a frame answers that writes the link alone. -/
theorem done_modLink (y : Link) : ∃ t, done (s.modLink k fun _ => y) = .next t ∧
    t.link k = y ∧ (∀ j, j ≠ k → t.link j = s.link j) ∧
      t = { s with links := t.links, pointer := s.pointer, sup := transmitNext s.sup } := by
  obtain ⟨hk, hj⟩ := modLink_const_link (s := s) (k := k) y
  exact ⟨_, rfl, hk, hj, rfl⟩

/-- What a frame answers that ends REQUESTED or HELD. -/
theorem done_setViewer (hv : v ≠ .held) (hne : (frameTaken k s).viewer ≠ v) :
    ∃ t, done (setViewer k v c (heard k s)) = .next t ∧
      t.link k = { frameTaken k s with viewer := v } ∧ (∀ j, j ≠ k → t.link j = s.link j) ∧
        t = { s with
          links := t.links, pointer := laneReleased k s
          sup := transmitNext (queueNotice .share (viewerNotice k v c) s.sup) } := by
  obtain ⟨hk, hj, hrest⟩ := setViewer_modLink (s := s) (c := c) (fun _ => frameTaken k s) hv hne
  exact ⟨_, rfl, hk, hj, congrArg handedOn hrest⟩

/-- What a GRANT answers that makes the state HELD. -/
theorem done_setViewer_held (hne : (frameTaken k s).viewer ≠ .held) :
    ∃ t, done (setViewer k .held c (heard k s)) = .next t ∧
      t.link k = { frameTaken k s with viewer := .held } ∧ (∀ j, j ≠ k → t.link j = s.link j) ∧
      t.linkKeys k = ⟨0, []⟩ ∧ t.linkPointer k = none ∧
      (∀ j, j ≠ k → t.linkKeys j = s.linkKeys j ∧ t.linkPointer j = s.linkPointer j) ∧
      (s.focus.target = .rem k ∧ s.blank.state = .clear → heldMasked s t) ∧
      (¬ (s.focus.target = .rem k ∧ s.blank.state = .clear) → t.router.mask = s.router.mask) ∧
      t = { s with
        links := t.links
        router := { s.router with
          mask := t.router.mask, linkKeys := t.router.linkKeys, linkPointer := t.router.linkPointer }
        sup := transmitNext (queueNotice .share (viewerNotice k .held c) s.sup) } := by
  have hl := heard_link_same k s
  have hm := setViewer_moved k .held c (heard k s) (by rw [hl]; exact hne)
  generalize setViewer k .held c (heard k s) = u at *
  obtain ⟨hk, hj, hmask, hstay, hkeys, hptr, hother, hrest⟩ := hm
  have hjoin : (ViewerControl.held == .held && s.focus.target == .rem k && s.blank.state == .clear) =
      decide (s.focus.target = .rem k ∧ s.blank.state = .clear) := by
    rw [beq_self_eq_true, Bool.true_and, Bool.decide_and]
    rfl
  refine ⟨handedOn u, rfl, hk.trans (by rw [hl]), fun j h => (hj j h).trans (heard_link_ne h), hkeys, hptr, hother, fun h => ?_,
    fun h => ?_, ?_⟩
  · exact hmask (hjoin.trans (decide_eq_true h))
  · exact hstay (hjoin.trans (decide_eq_false h))
  · simp only [beq_self_eq_true, Bool.not_true, Bool.false_and, Bool.not_false, Bool.and_true] at hrest
    exact congrArg handedOn hrest

end Sys2Proof.Machine
end

section
/-! The viewer control state (O54). -/

open Sys2Proof Sys2Proof.Machine

/-- Settles O54: the requests and the frames by the state in which they find the viewer control, each change of it by one lemma
for HELD and one for the others. -/
theorem viewerControlMoves : Obligations.ViewerControlMoves := by
  intro k s ends moved told
  refine ⟨fun tag kind => ?_, fun tag => ?_, fun tag b0 b1 hb => ⟨fun ht => ?_, fun ht hb => ?_⟩, fun he hu => ?_⟩
  · intro r ht
    have hj : judgeClaimControl r.body (begun r s) = claimControl k kind (begun r s) := judgeClaimControl_bytes
    refine ⟨fun hd => ?_, fun hu => ⟨fun hw => ?_, fun hi hv => ?_⟩⟩
    · exact exec_request r judgeClaimControl s ht _ _ _ (hj.trans (claimControl_down hd))
    · exact exec_request r judgeClaimControl s ht _ _ _ (hj.trans (claimControl_wrong hu hw))
    · exact ⟨_, exec_request r judgeClaimControl s ht _ _ _ (hj.trans (claimControl_taken hu hi hv)),
        setViewer_modLink (s := begun r s) (enqueueFrame (.claim kind)) (by decide) (by simp [hv])⟩
  · intro r ht
    have hj : judgeReleaseControl r.body (begun r s) = releaseControl k (begun r s) := judgeReleaseControl_byte
    refine ⟨fun hd => ?_, fun hu => ⟨fun hv => ?_, fun hv => ?_⟩⟩
    · exact exec_request r judgeReleaseControl s ht _ _ _ (hj.trans (releaseControl_down hd))
    · exact exec_request r judgeReleaseControl s ht _ _ _ (hj.trans (releaseControl_none hu hv))
    · exact ⟨_, exec_request r judgeReleaseControl s ht _ _ _ (hj.trans (releaseControl_taken hu hv)),
        setViewer_modLink (s := begun r s) (enqueueFrame .release) (by decide) (by simpa using hv)⟩
  · exact exec_request ⟨0x5B, tag, [b0, b1]⟩ judgeClaimControl s ht _ _ _ (judgeClaimControl_none hb)
  · exact exec_request ⟨0x5C, tag, [b0]⟩ judgeReleaseControl s ht _ _ _ (judgeReleaseControl_none hb)
  · intro l lost
    have answers : ∀ {m : LinkMsg}, LinkMsg.sendable m = true →
        done (wholeFrame k m s) = done (dispatchFrame k m (heard k s)) := fun hm => by rw [wholeFrame_heard hm he hu]
    have grant : exec (.grant k) s = done (takeGrant k (heard k s)) := answers (m := .grant) rfl
    have deny : ∀ r, exec (.deny k r) s = done (takeDeny k r (heard k s)) := fun r => answers (m := .deny r) rfl
    have revoke : exec (.revoke k) s = done (takeRevoke k (heard k s)) := answers (m := .revoke) rfl
    refine ⟨fun hv => ?_, fun hv => ?_, fun hv => ?_, fun r hv => ?_, fun r hv => ?_, fun hv => ?_, fun hv => ?_⟩
    · rw [grant, takeGrant_none hv]
      exact done_modLink _
    · rw [grant, takeGrant_held hv]
      exact done_modLink _
    · rw [grant, takeGrant_requested hv]
      exact done_setViewer_held (by rw [show (frameTaken k s).viewer = _ from hv]; decide)
    · rw [deny, takeDeny_requested hv]
      exact done_setViewer (by decide) (by rw [show (frameTaken k s).viewer = _ from hv]; decide)
    · rw [deny, takeDeny_other hv]
      exact done_modLink _
    · rw [revoke, takeRevoke_held hv]
      exact done_setViewer (by decide) (by rw [show (frameTaken k s).viewer = _ from hv]; decide)
    · rw [revoke, takeRevoke_other hv]
      exact done_modLink _

end

section
/-!
SUPPORT. A glide that stays in its tile: what stages A and B do to the desk pointer, and that the focus is not looked at (R21,
R22).
-/

namespace Sys2Proof.Machine

open Sys2Proof

variable {s : State} {a : Axis} {m : Int} {tile : Tile} {p : DeskPointer}

/-! ### The pressure that a move relieves -/

/-- Whether a move along an axis leads away from a side (R22). -/
def leavesSide : Axis → Side → Int → Bool
  | .x, .left, m => decide (0 < m)
  | .x, .right, m => decide (m < 0)
  | .y, .top, m => decide (0 < m)
  | .y, .bottom, m => decide (m < 0)
  | _, _, _ => false

/-- Whether a move along an axis leads away from the edge that the pressure names (R22). -/
def leavesEdge (a : Axis) (m : Int) : Option (Monitor × Side) → Bool
  | some (_, side) => leavesSide a side m
  | none => false

/-- The pressure after a move along an axis. -/
def Pressure.afterMove (a : Axis) (m : Int) (q : Pressure) : Pressure := if leavesEdge a m q.edge then Pressure.none else q

theorem leavesSide_iff (hm : m ≠ 0) (a : Axis) (side : Side) :
    leavesSide a side m = true ↔ side = sideOf a (decide (m < 0)) := by
  rcases lt_or_gt_of_ne hm with h | h
  · rw [decide_eq_true h]
    cases a <;> cases side <;> simp [leavesSide, sideOf, h, h.le]
  · rw [decide_eq_false h.not_gt]
    cases a <;> cases side <;> simp [leavesSide, sideOf, h, h.le]

theorem relieve_eq (hm : m ≠ 0) (a : Axis) (p : DeskPointer) :
    relieve a m p = { p with pressure := Pressure.afterMove a m p.pressure } := by
  unfold relieve Pressure.afterMove leavesEdge
  cases he : p.pressure.edge with
  | none => rfl
  | some e =>
    simp only [leavesSide_iff hm]
    split <;> rfl

theorem afterMove_zero (a : Axis) (q : Pressure) : Pressure.afterMove a 0 q = q := by
  have hs : ∀ side, leavesSide a side 0 = false := fun side => by cases a <;> cases side <;> rfl
  unfold Pressure.afterMove leavesEdge
  cases q.edge with
  | none => rfl
  | some e => simp only [hs, Bool.false_eq_true, if_false]

/-- Two moves relieve the pressure that one of them leads away from. -/
theorem afterMove_afterMove (mx my : Int) (q : Pressure) :
    Pressure.afterMove .y my (Pressure.afterMove .x mx q) =
      if leavesEdge .x mx q.edge || leavesEdge .y my q.edge then Pressure.none else q := by
  unfold Pressure.afterMove
  cases hx : leavesEdge .x mx q.edge
  · rfl
  · have hn : leavesEdge .y my Pressure.none.edge = false := rfl
    simp only [if_true, hn, Bool.true_or, Bool.false_eq_true, if_false]

/-- The sides that moves on both axes lead away from. -/
theorem leavesEdge_sides (mx my : Int) (edge : Option (Monitor × Side)) :
    (leavesEdge .x mx edge || leavesEdge .y my edge) =
      match edge with
      | some (_, .left) => decide (0 < mx)
      | some (_, .right) => decide (mx < 0)
      | some (_, .top) => decide (0 < my)
      | some (_, .bottom) => decide (my < 0)
      | none => false := by
  cases edge with
  | none => rfl
  | some e =>
    obtain ⟨mon, side⟩ := e
    cases side <;> simp [leavesEdge, leavesSide]

/-! ### The walk inside a tile -/

theorem setPos_self (a : Axis) (p : DeskPointer) : DeskPointer.setPos p a (DeskPointer.pos p a) = p := by cases a <;> rfl

/-- A move that stays inside the pointer's tile (R22). -/
theorem walk_within (ht : pointerTile s = some tile) (h0 : (Tile.first tile a : Int) ≤ DeskPointer.pos s.pointer a + m)
    (h1 : (DeskPointer.pos s.pointer a : Int) + m < Tile.first tile a + Tile.size tile a) :
    walk a m s = s.modPointer fun p =>
      DeskPointer.setPos { p with pressure := Pressure.afterMove a m p.pressure } a (DeskPointer.pos s.pointer a + m).toNat := by
  by_cases hm : m = 0
  · subst hm
    rw [Int.add_zero, Int.toNat_natCast]
    simp only [walk, if_true, State.modPointer, afterMove_zero, setPos_self]
  · unfold walk
    rw [if_neg hm]
    simp only [ht]
    have hlast : ¬ (Tile.last tile a : Int) < DeskPointer.pos s.pointer a + m := by unfold Tile.last; omega
    rw [if_neg (by omega), if_neg hlast]
    simp only [State.modPointer, relieve_eq hm]

/-- In a valid layout the tile that contains the pointer is the pointer's tile. -/
theorem pointerTile_of_contains (hv : validLayout s.layout) (ht : tile ∈ s.layout)
    (hc : Tile.contains tile s.pointer.px s.pointer.py = true) : pointerTile s = some tile := by
  have hs : (pointerTile s).isSome := List.find?_isSome.mpr ⟨tile, ht, hc⟩
  obtain ⟨b, hb⟩ := Option.isSome_iff_exists.mp hs
  obtain ⟨hbl, hbc⟩ := pointerTile_mem hb
  rw [hb, validLayout_unique hv hbl ht hbc hc]

/-- The desk pointer after a glide that stays in its tile, its residuals apart. -/
def DeskPointer.glidedBy (p : DeskPointer) (mx my : Int) : DeskPointer :=
  { p with
    px := (p.px + mx).toNat, py := (p.py + my).toNat
    pressure := if leavesEdge .x mx p.pressure.edge || leavesEdge .y my p.pressure.edge then Pressure.none else p.pressure }

/-- Both walks inside a tile, and that they leave the pointer in it. -/
theorem walks_within (hv : validLayout s.layout) (ht : pointerTile s = some tile) {mx my : Int}
    (hx0 : (tile.x0 : Int) ≤ s.pointer.px + mx) (hx1 : (s.pointer.px : Int) + mx < tile.x0 + tile.w)
    (hy0 : (tile.y0 : Int) ≤ s.pointer.py + my) (hy1 : (s.pointer.py : Int) + my < tile.y0 + tile.h) :
    walk .y my (walk .x mx s) = s.modPointer (DeskPointer.glidedBy · mx my) ∧
      pointerTile (s.modPointer (DeskPointer.glidedBy · mx my)) = some tile := by
  obtain ⟨hmem, hin⟩ := pointerTile_mem ht
  have hy : tile.y0 ≤ s.pointer.py ∧ s.pointer.py < tile.y0 + tile.h := by
    simp only [Tile.contains, decide_eq_true_eq] at hin
    exact ⟨hin.2.2.1, hin.2.2.2⟩
  have hwx := walk_within (a := .x) ht hx0 hx1
  have htx : pointerTile (walk .x mx s) = some tile := by
    rw [hwx]
    refine pointerTile_of_contains hv hmem (decide_eq_true ?_)
    simp only [State.modPointer_pointer, DeskPointer.setPos, DeskPointer.pos]
    omega
  refine ⟨?_, pointerTile_of_contains hv hmem (decide_eq_true ?_)⟩
  · rw [walk_within htx (by rw [hwx]; exact hy0) (by rw [hwx]; exact hy1), hwx]
    simp only [State.modPointer, DeskPointer.setPos, DeskPointer.pos, afterMove_afterMove]
    rfl
  · simp only [State.modPointer_pointer, DeskPointer.glidedBy]
    omega

end Sys2Proof.Machine
end

section
/-! The glide within a tile (O23). -/

open Sys2Proof Sys2Proof.Machine

/-- Settles O23: the walks stay in the tile, so the focus is not re-evaluated, and the state they leave hands on. -/
theorem glideWithinATile : Obligations.GlideWithinATile := by
  intro dx dy w b s tile hatt hb hcap hc hv ht ax ay x y z hx0 hx1 hy0 hy1 away base
  let e : Motion := ⟨max (-2047) (min 2047 dx), max (-2047) (min 2047 dy), z, b, s.mouse.buttons⟩
  let start : State := { s with
    mouse := ⟨true, b⟩, pointer := { s.pointer with rx := ax - 16 * ax.tdiv 16, ry := ay - 16 * ay.tdiv 16 } }
  obtain ⟨hwalks, htile⟩ := walks_within (s := start) hv ht hx0 hx1 hy0 hy1
  have hbase : start.modPointer (DeskPointer.glidedBy · (ax.tdiv 16) (ay.tdiv 16)) = base := by
    simp only [State.modPointer, DeskPointer.glidedBy, leavesEdge_sides]
    rfl
  rw [hbase] at hwalks htile
  have hstay : reevaluateIfMoved (pointerMonitor s) base = base := by
    simp only [reevaluateIfMoved, pointerMonitor, htile, ht, Option.map_some, if_true]
  have hglide : glided e (s.setMouse ⟨true, b⟩) = emitGlided e base :=
    congrArg (emitGlided e) ((congrArg (reevaluateIfMoved (pointerMonitor s)) hwalks).trans hstay)
  have hexec : exec (.deskPointerReport dx dy w b) s = .next (handedOn (wakeByButton e (emitGlided e base))) := by
    rw [← hglide]
    exact congrArg done ((if_pos hatt).trans (mouseReport_glides hb hcap hc))
  rw [hexec]
  exact handsPointerOn_of (e := e) hb

end

section
/-!
SUPPORT. A motion event on the relative delta path (R21, R27 to R29, R36), and what a record for a port and a frame for a link
leave.
-/

namespace Sys2Proof.Machine

open Sys2Proof

variable {s x v : State} {n : Comp} {k : LinkId} {e : Motion} {r : PointerRecord} {f : PointerFrame} {p : Port}

/-! ### The start of a capture -/

/-- The desk pointer of a captured event: a capture that starts clears the residuals and the edge pressure (R21, R28). -/
def captureBegun (p : DeskPointer) : DeskPointer :=
  if p.capture then p else { p with capture := true, rx := 0, ry := 0, pressure := ⟨none, 0, none⟩ }

/-- A state in which a capture has begun, or continues. -/
def captureEntered (x : State) : State := { x with pointer := captureBegun x.pointer }

theorem captureBegun_of_captured {q : DeskPointer} (h : q.capture = true) : captureBegun q = q := if_pos h

theorem captureBegun_of_free {q : DeskPointer} (h : q.capture = false) :
    captureBegun q = { q with capture := true, rx := 0, ry := 0, pressure := ⟨none, 0, none⟩ } :=
  if_neg (by rw [h]; exact Bool.false_ne_true)

theorem captureEntered_tile (x : State) : pointerTile (captureEntered x) = pointerTile x := by
  have hp : (captureBegun x.pointer).px = x.pointer.px ∧ (captureBegun x.pointer).py = x.pointer.py := by
    unfold captureBegun
    split <;> exact ⟨rfl, rfl⟩
  unfold pointerTile
  rw [show (captureEntered x).pointer = captureBegun x.pointer from rfl, hp.1, hp.2]
  rfl

theorem captureEntered_attached (x : State) : attached (captureEntered x) = attached x := by
  unfold attached pointerMonitor
  rw [captureEntered_tile]
  rfl

theorem captured_eq (e : Motion) (x : State) : captured e x = emitRelative e (captureEntered x) := by
  unfold captured captureEntered captureBegun
  split <;> rfl

theorem motion_captured (hb : x.blank.state = .clear) (hc : (x.pointer.capture || capturable x) = true) :
    motion e x = wakeByButton e (emitRelative e (captureEntered x)) := by
  have hblank : ¬ blanked x = true := by simp [blanked, hb]
  rw [motion, if_neg hblank, if_pos hc, captured_eq]

theorem motion_glided (hb : x.blank.state = .clear) (hc : (x.pointer.capture || capturable x) = false) :
    motion e x = wakeByButton e (glided e x) := by
  have hblank : ¬ blanked x = true := by simp [blanked, hb]
  rw [motion, if_neg hblank, if_neg (by rw [hc]; exact Bool.false_ne_true)]

theorem motion_blanked (hb : x.blank.state ≠ .clear) : motion e x = x := if_pos (by simpa [blanked] using hb)

/-! ### A record for a port -/

/-- A desk record for the computer Cn, whose port is `p` when the record reaches it: a DETACHED port takes none (R61). -/
structure RecordTaken (n : Comp) (r : PointerRecord) (p : Port) (x v : State) : Prop where
  detached : (x.port n).bus = .detached →
    v.port n = p ∧ (∀ m, m ≠ n → v.port m = x.port m) ∧ v = { x with ports := v.ports }
  taken : (x.port n).bus ≠ .detached →
    v.port n = pushPointer r p ∧ (∀ m, m ≠ n → v.port m = x.port m) ∧
    v.control n = { x.control n with lastDesk := some x.now } ∧ (∀ m, m ≠ n → v.control m = x.control m) ∧
    v.lastPointer n = some r ∧ (∀ m, m ≠ n → v.lastPointer m = x.lastPointer m) ∧
    v = { x with
      ports := v.ports, controls := v.controls, router := { x.router with lastPointer := v.router.lastPointer }
      sup := toldPointer n r (x.port n) x.sup }

theorem deliverPointer_taken (n : Comp) (r : PointerRecord) (x : State) :
    RecordTaken n r (x.port n) x (deliverPointer .desk n r x) := by
  refine ⟨fun hb => ?_, fun hb => ?_⟩
  · rw [deliverPointer_detached hb]
    exact ⟨rfl, fun _ _ => rfl, rfl⟩
  · obtain ⟨hp, hps, hc, hcs, hl, hls, hrest⟩ := deliverPointer_handed r hb
    exact ⟨hp, hps, hc, hcs, hl, hls, hrest⟩

theorem RecordTaken.holder (h : RecordTaken n r p x v) (m : Comp) : (v.control m).holder = (x.control m).holder := by
  by_cases hb : (x.port n).bus = .detached
  · rw [(h.detached hb).2.2]
    rfl
  · obtain ⟨-, -, hc, hcs, -⟩ := h.taken hb
    by_cases hm : m = n
    · rw [hm, hc]
    · rw [hcs m hm]

theorem RecordTaken.focus (h : RecordTaken n r p x v) : v.focus = x.focus := by
  by_cases hb : (x.port n).bus = .detached
  · rw [(h.detached hb).2.2]
  · obtain ⟨-, -, -, -, -, -, hrest⟩ := h.taken hb
    rw [hrest]

/-! ### A frame for a link -/

/-- A POINTER frame has been formed on DLk and kept as its last one (R36, R56). -/
structure FrameSent (k : LinkId) (f : PointerFrame) (x v : State) : Prop where
  link : v.link k = enqueueFrame (.pointer f) (x.link k)
  links : ∀ j, j ≠ k → v.link j = x.link j
  last : v.linkPointer k = some f
  lasts : ∀ j, j ≠ k → v.linkPointer j = x.linkPointer j
  rest : v = { x with links := v.links, router := { x.router with linkPointer := v.router.linkPointer } }

theorem sendPointer_sent (k : LinkId) (f : PointerFrame) (x : State) : FrameSent k f x (sendPointer k f x) := by
  have hlink : ∀ j, (sendPointer k f x).link j = (sendFrame k (.pointer f) x).link j := fun _ => rfl
  refine ⟨?_, fun j hj => ?_, ?_, fun j hj => ?_, rfl⟩
  · rw [hlink, sendFrame_link, if_pos rfl]
  · rw [hlink, sendFrame_link, if_neg hj]
  · rw [sendPointer, setLinkPointer_linkPointer, if_pos rfl]
  · rw [sendPointer, setLinkPointer_linkPointer, if_neg hj, sendFrame_linkPointer]

/-! ### What the relative delta path produces -/

theorem laneState_present {d : Mode} : laneState d ≠ .absent ↔ ¬ (d.width = 0 ∧ d.height = 0) := by
  unfold laneState
  split
  next h => simp [h]
  next h => simp [h]

theorem linkIsRecipient_iff (hb : x.blank.state = .clear) (hf : x.focus.target = .rem k) :
    linkIsRecipient x k = true ↔ (x.link k).viewer = .held := by
  simp [linkIsRecipient, blanked, hb, hf]

theorem emitRelative_apart (h : attached x = false) : emitRelative e x = x :=
  if_neg (by rw [h]; exact Bool.false_ne_true)

theorem emitRelative_loc (ha : attached x = true) (hf : x.focus.target = .loc n) :
    emitRelative e x =
      if (x.control n).holder = .desk then deliverPointer .desk n (.relative e.buttons e.dx e.dy e.wheel) x else x := by
  simp only [emitRelative, ha, if_true, hf]

theorem emitRelative_unheld (hf : x.focus.target = .loc n) (hh : (x.control n).holder ≠ .desk) : emitRelative e x = x := by
  cases ha : attached x
  · exact emitRelative_apart ha
  · rw [emitRelative_loc ha hf, if_neg hh]

/-- Nothing is sent without HELD control, and under a session mode of 0 × 0. -/
theorem emitRelative_silent (hb : x.blank.state = .clear) (hf : x.focus.target = .rem k)
    (h : (x.link k).viewer ≠ .held ∨ ∀ o, activeOffer x k = some o → o.mode.width = 0 ∧ o.mode.height = 0) :
    emitRelative e x = x := by
  unfold emitRelative
  simp only [hf]
  split
  · split
    next o ho =>
      refine if_neg fun ⟨hr, hm⟩ => ?_
      rcases h with h | h
      · exact h ((linkIsRecipient_iff hb hf).mp hr)
      · exact laneState_present.mp hm (h o ho)
    · rfl
  · rfl

theorem emitRelative_rem {o : Offer} (hb : x.blank.state = .clear) (ha : attached x = true) (hf : x.focus.target = .rem k)
    (hv : (x.link k).viewer = .held) (ho : activeOffer x k = some o) (hm : ¬ (o.mode.width = 0 ∧ o.mode.height = 0)) :
    emitRelative e x = sendPointer k (.relative e.buttons e.dx e.dy e.wheel) x := by
  simp only [emitRelative, ha, if_true, hf, ho]
  exact if_pos ⟨(linkIsRecipient_iff hb hf).mpr hv, laneState_present.mpr hm⟩

/-! ### The press that wakes -/

theorem wakeByButton_loc (hf : v.focus.target = .loc n) (hh : (v.control n).holder = .desk) :
    wakeByButton e v = woken n (e.buttons &&& ~~~e.before != 0) v := by
  simp only [wakeByButton, hf, hh, if_true, wakeIfSuspended_eq]

theorem wakeByButton_unheld (hf : v.focus.target = .loc n) (hh : (v.control n).holder ≠ .desk) : wakeByButton e v = v := by
  simp only [wakeByButton, hf, hh, if_false]

theorem wakeByButton_rem (hf : v.focus.target = .rem k) : wakeByButton e v = v := by
  simp only [wakeByButton, hf]

theorem woken_detached {press : Bool} (hb : (v.port n).bus = .detached) : woken n press v = v :=
  if_neg fun h => by rw [hb] at h; cases h.2.1

theorem woken_no_press (n : Comp) (v : State) : woken n false v = v := if_neg fun h => by cases h.1

end Sys2Proof.Machine
end

section
/-! SUPPORT. A mouse report on the relative delta path (R21, R27). -/

namespace Sys2Proof.Machine

open Sys2Proof

variable {s v : State} {n : Comp} {k : LinkId} {o : Offer} {dx dy w : Int} {b : Buttons}

/-- The motion event of a mouse report: its clamped raw deltas and its wheel, with the buttons before it (R21). -/
def reportMotion (dx dy w : Int) (b : Buttons) (s : State) : Motion :=
  ⟨max (-2047) (min 2047 dx), max (-2047) (min 2047 dy), max (-127) (min 127 w), b, s.mouse.buttons⟩

/-- The state in which a captured mouse report reaches its recipient. -/
def captureReported (b : Buttons) (s : State) : State := captureEntered (s.setMouse ⟨true, b⟩)

theorem exec_report_captured (hm : s.mouse.attached = true) (hb : s.blank.state = .clear)
    (hc : (s.pointer.capture || capturable s) = true) :
    exec (.deskPointerReport dx dy w b) s =
      .next (handedOn (wakeByButton (reportMotion dx dy w b s) (emitRelative (reportMotion dx dy w b s) (captureReported b s)))) :=
  congrArg done ((if_pos hm).trans (motion_captured (x := s.setMouse ⟨true, b⟩) hb hc))

theorem captureReported_of_captured (h : s.pointer.capture = true) : captureReported b s = { s with mouse := ⟨true, b⟩ } :=
  congrArg (fun q => ({ s with mouse := ⟨true, b⟩, pointer := q } : State)) (captureBegun_of_captured h)

theorem capturable_loc (ha : attached s = true) (hf : s.focus.target = .loc n) (hh : (s.control n).holder = .desk)
    (hr : effMode s n = .relative) : capturable s = true := by
  simp [capturable, ha, hf, hh, hr]

theorem capturable_rem (ha : attached s = true) (hf : s.focus.target = .rem k) (hv : (s.link k).viewer = .held)
    (ho : activeOffer s k = some o) (hr : o.pointerMode = .relative) : capturable s = true := by
  simp [capturable, ha, hf, hv, ho, hr]

theorem captureReported_attached (ha : attached s = true) : attached (captureReported b s) = true :=
  (captureEntered_attached (s.setMouse ⟨true, b⟩)).trans ha

end Sys2Proof.Machine
end

section
/-! Captured motion (O22). -/

open Sys2Proof Sys2Proof.Machine

/-- Settles O22: the capture begins or continues, and the relative delta path hands on by the target and its holder. -/
theorem capturedMotionIsRelative : Obligations.CapturedMotionIsRelative := by
  intro dx dy w b s hm hb x y z p still
  let e := reportMotion dx dy w b s
  let c := captureReported b s
  have hrun (h : (s.pointer.capture || capturable s) = true) :
      exec (.deskPointerReport dx dy w b) s = .next (handedOn (wakeByButton e (emitRelative e c))) :=
    exec_report_captured hm hb h
  refine ⟨fun hcap => ?_, fun ha => ?_⟩
  · have hc : c = still := captureReported_of_captured hcap
    rw [hrun (by rw [hcap]; rfl), hc]
    refine ⟨fun ha => ?_, ?_⟩
    · rw [emitRelative_apart (x := still) ha]
      exact congrArg (fun u => Host.Outcome.next (handedOn u)) (wakeByButton_eq rfl fun _ => rfl)
    · rintro (⟨n, hf, hh⟩ | ⟨k, hf, hv⟩)
      · rw [emitRelative_unheld (x := still) hf hh, wakeByButton_unheld (v := still) hf hh]
      · rw [emitRelative_silent (x := still) hb hf (.inl hv), wakeByButton_rem (v := still) hf]
  · have hac : attached c = true := captureReported_attached ha
    have onComp {n : Comp} (hf : s.focus.target = .loc n) (hh : (s.control n).holder = .desk) (hr : effMode s n = .relative) :
        exec (.deskPointerReport dx dy w b) s = .next (handedOn (woken n (b &&& ~~~s.mouse.buttons != 0)
          (deliverPointer .desk n (.relative b x y z) c))) := by
      have htaken := deliverPointer_taken n (.relative b x y z) c
      have hemit : emitRelative e c = deliverPointer .desk n (.relative b x y z) c :=
        (emitRelative_loc hac hf).trans (if_pos hh)
      rw [hrun (by rw [capturable_loc ha hf hh hr, Bool.or_true]), hemit,
        wakeByButton_loc (htaken.focus.symm ▸ hf) ((htaken.holder n).trans hh)]
      rfl
    have onLane {k : LinkId} {o : Offer} (hf : s.focus.target = .rem k) (hv : (s.link k).viewer = .held)
        (ho : activeOffer s k = some o) (hr : o.pointerMode = .relative) :
        exec (.deskPointerReport dx dy w b) s = .next (handedOn (wakeByButton e (emitRelative e c))) :=
      hrun (by rw [capturable_rem ha hf hv ho hr, Bool.or_true])
    refine ⟨fun n hf hh hr hd => ?_, fun n hf hh hr hd => ?_, fun k o hf hv ho hr hw hh => ?_, fun k o hf hv ho hr hmode => ?_⟩
    · obtain ⟨hp, hps, hk, hks, hl, hls, hrest⟩ := (deliverPointer_taken n (.relative b x y z) c).taken hd
      exact ⟨_, onComp hf hh hr, hp, hps, hk, hks, hl, hls, hrest⟩
    · rw [onComp hf hh hr, deliverPointer_detached (x := c) hd, woken_detached (v := c) hd]
      rfl
    · have hsilent : emitRelative e c = c := emitRelative_silent hb hf (.inr fun o' ho' => by
        obtain rfl : o = o' := Option.some.inj (ho.symm.trans ho')
        exact ⟨hw, hh⟩)
      rw [onLane hf hv ho hr, hsilent, wakeByButton_rem (v := c) hf]
      rfl
    · have hsent := sendPointer_sent k (.relative b x y z) c
      have hemit : emitRelative e c = sendPointer k (.relative b x y z) c := emitRelative_rem hb hac hf hv ho hmode
      have hft : (sendPointer k (.relative b x y z) c).focus.target = .rem k := by rw [hsent.rest]; exact hf
      rw [onLane hf hv ho hr, hemit, wakeByButton_rem hft]
      exact ⟨_, rfl, hsent.link, hsent.links, hsent.last, hsent.lasts, congrArg handedOn hsent.rest⟩

end

section
/-! SUPPORT. The event of no movement that a mouse leaves as it detaches (R19). -/

namespace Sys2Proof.Machine

open Sys2Proof

variable {s u v x : State} {n : Comp} {k : LinkId} {e : Motion} {h : Head} {tile : Tile} {r : PointerRecord}

/-! ### What an event may hand on -/

/-- A state that has handed a record or a frame on, or nothing: ports, links, router, controls and the supervisor link. -/
def HandsOn (x v : State) : Prop :=
  v = { x with router := v.router, ports := v.ports, controls := v.controls, links := v.links, sup := v.sup }

theorem HandsOn.refl (x : State) : HandsOn x x := rfl

theorem HandsOn.trans (h : HandsOn x u) (g : HandsOn u v) : HandsOn x v := by
  unfold HandsOn at *
  rw [g, h]

theorem deliverPointer_handsOn (n : Comp) (r : PointerRecord) (x : State) : HandsOn x (deliverPointer .desk n r x) := by
  have hd := deliverPointer_delivers .desk n r x
  generalize deliverPointer .desk n r x = v at *
  unfold Delivers at hd
  unfold HandsOn
  rw [hd]

theorem emitAbsolute_handsOn (e : Motion) (tile : Tile) (h : Head) (x : State) : HandsOn x (emitAbsolute e tile h x) := by
  rw [emitAbsolute_eq]
  exact .trans (u := countClamps _ _ x) rfl (deliverPointer_handsOn ..)

theorem emitRelative_handsOn (e : Motion) (x : State) : HandsOn x (emitRelative e x) := by
  unfold emitRelative
  split
  · split
    · split
      · exact deliverPointer_handsOn ..
      · exact .refl x
    · split
      · split
        · exact rfl
        · exact .refl x
      · exact .refl x
    · exact .refl x
  · exact .refl x

theorem emitGlided_handsOn (e : Motion) (x : State) : HandsOn x (emitGlided e x) := by
  unfold emitGlided
  split
  · exact .refl x
  · split
    · exact .refl x
    · split
      · split
        · exact emitAbsolute_handsOn ..
        · exact .refl x
      · split
        · split
          · exact rfl
          · exact .refl x
        · exact .refl x
      · exact .refl x

/-! ### The absolute record and frame of a pointer on its tile -/

/-- The record of stages C, D and E reaches a port whose desktop clamps have been counted. -/
theorem emitAbsolute_taken (e : Motion) (tile : Tile) (h : Head) (x : State) :
    RecordTaken h.comp (mappedRecord e tile h x)
      (clampsCounted h (stageC x.pointer.px tile.x0 tile.w (effSize x h).1) (stageC x.pointer.py tile.y0 tile.h (effSize x h).2) x)
      x (emitAbsolute e tile h x) := by
  rw [emitAbsolute_eq]
  obtain ⟨hport, hports, hrest⟩ := countClamps_counted h (stageC x.pointer.px tile.x0 tile.w (effSize x h).1)
    (stageC x.pointer.py tile.y0 tile.h (effSize x h).2) x
  generalize countClamps h.comp _ x = y at *
  have hbus : (y.port h.comp).bus = (x.port h.comp).bus := by rw [hport]; rfl
  refine ⟨fun hd => ?_, fun hd => ?_⟩
  · rw [deliverPointer_detached (hbus.trans hd)]
    exact ⟨hport, hports, hrest⟩
  · obtain ⟨vport, vports, vctl, vctls, vlast, vlasts, vrest⟩ :=
      deliverPointer_handed (mappedRecord e tile h x) (x := y) (n := h.comp) (by rw [hbus]; exact hd)
    generalize deliverPointer .desk h.comp (mappedRecord e tile h x) y = v at *
    have hctl : ∀ m, y.control m = x.control m := by rw [hrest]; exact fun _ => rfl
    have htold : toldPointer h.comp (mappedRecord e tile h x) (y.port h.comp) y.sup =
        toldPointer h.comp (mappedRecord e tile h x) (x.port h.comp) x.sup := by rw [hport, hrest]; rfl
    refine ⟨by rw [vport, hport], fun m hm => (vports m hm).trans (hports m hm), by rw [vctl, hrest]; rfl,
      fun m hm => (vctls m hm).trans (hctl m), vlast, fun m hm => (vlasts m hm).trans (by rw [hrest]; rfl), ?_⟩
    rw [htold, hrest] at vrest
    exact vrest

theorem assignment_of_lane (ha : attached x = true) (ht : pointerTile x = some tile) (hf : x.focus.target = .rem k) :
    assignmentOf x tile.monitor = some (.lane k) := by
  rw [attached_tile ht, hf] at ha
  cases has : assignmentOf x tile.monitor with
  | none => rw [has] at ha; cases ha
  | some y =>
    rw [has] at ha
    cases y with
    | head h => cases ha
    | lane j => rw [show j = k by simpa [showsFocus] using ha]

theorem emitFrame_frameSent (e : Motion) (tile : Tile) (k : LinkId) (d : Mode) (x : State) :
    FrameSent k (.absolute e.buttons ((x.pointer.px - tile.x0) * d.width / tile.w)
      ((x.pointer.py - tile.y0) * d.height / tile.h) e.wheel) x (emitFrame e tile k d x) := by
  obtain ⟨h1, h2, h3, h4, h5⟩ := emitFrame_sent e tile k d x
  exact ⟨h1, h2, h3, h4, h5⟩

/-- What a lane is sent by a glided event that ends on it. -/
theorem emitGlided_rem (hb : x.blank.state = .clear) (ha : attached x = true) (hc : capturable x = false)
    (ht : pointerTile x = some tile) (hf : x.focus.target = .rem k) :
    emitGlided e x =
      match activeOffer x k with
      | some o =>
        if (x.link k).viewer = .held ∧ ¬ (o.mode.width = 0 ∧ o.mode.height = 0) then emitFrame e tile k o.mode x else x
      | none => x :=
  emitGlided_lane hb ha hc ht (assignment_of_lane ha ht hf)

/-! ### An event of no movement -/

/-- Stage A on no movement keeps a residual that is less than a step (R21). -/
theorem stageA_zero {r : Int} {g : Nat} (h0 : -15 ≤ r) (h1 : r ≤ 15) : stageA r 0 g = (0, r) := by
  have hm : r.tdiv 16 = 0 := by
    rcases Int.le_total 0 r with h | h
    · exact Int.tdiv_eq_zero_of_lt h (by omega)
    · have := Int.tdiv_eq_zero_of_lt (a := -r) (b := 16) (by omega) (by omega)
      rwa [Int.neg_tdiv, neg_eq_zero] at this
  simp [stageA, hm]

theorem glided_zero (hx : e.dx = 0) (hy : e.dy = 0) (hrx : -15 ≤ x.pointer.rx ∧ x.pointer.rx ≤ 15)
    (hry : -15 ≤ x.pointer.ry ∧ x.pointer.ry ≤ 15) : glided e x = emitGlided e x := by
  have hwalk : moveAndWalk e x = x := by
    simp only [moveAndWalk, hx, hy, stageA_zero hrx.1 hrx.2, stageA_zero hry.1 hry.2]
    rfl
  have hstay : reevaluateIfMoved (pointerMonitor x) x = x := by
    unfold reevaluateIfMoved
    split
    next m hm => rw [if_pos hm]
    · rfl
  rw [glided, hwalk, hstay]

theorem wakeByButton_released (he : e.buttons = 0) : wakeByButton e v = v := by
  have hpress : (e.buttons &&& ~~~e.before != 0) = false := by rw [he]; simp
  rw [wakeByButton_eq rfl fun _ => rfl, hpress]
  split
  · split
    · exact woken_no_press ..
    · rfl
  · rfl

/-! ### The detach -/

/-- The motion event of a detach: no movement and no button. -/
def detachMotion (s : State) : Motion := ⟨0, 0, 0, 0, s.mouse.buttons⟩

/-- The state that hands the event of a detach on. -/
def mouseGone (s : State) : State :=
  if s.pointer.capture || capturable s then captureEntered (s.setMouse ⟨false, 0⟩) else s.setMouse ⟨false, 0⟩

/-- The event of a detach handed on. -/
def detachHanded (s : State) : State :=
  if s.pointer.capture || capturable s then emitRelative (detachMotion s) (mouseGone s)
  else emitGlided (detachMotion s) (mouseGone s)

theorem exec_detach_clear (hm : s.mouse.attached = true) (hb : s.blank.state = .clear)
    (hrx : -15 ≤ s.pointer.rx ∧ s.pointer.rx ≤ 15) (hry : -15 ≤ s.pointer.ry ∧ s.pointer.ry ≤ 15) :
    exec .deskPointerDetach s = .next (handedOn (detachHanded s)) := by
  refine congrArg done ((if_pos hm).trans ?_)
  unfold detachHanded mouseGone
  by_cases hc : (s.pointer.capture || capturable s) = true
  · rw [if_pos hc, if_pos hc]
    exact (motion_captured (x := s.setMouse ⟨false, 0⟩) hb hc).trans (wakeByButton_released rfl)
  · rw [if_neg hc, if_neg hc]
    exact (motion_glided (x := s.setMouse ⟨false, 0⟩) hb (Bool.not_eq_true _ ▸ hc)).trans
      ((wakeByButton_released rfl).trans (glided_zero rfl rfl hrx hry))

theorem mouseGone_eq (s : State) : mouseGone s = { s with mouse := ⟨false, 0⟩, pointer := (mouseGone s).pointer } := by
  unfold mouseGone
  split <;> rfl

theorem mouseGone_attached (s : State) : attached (mouseGone s) = attached s := by
  unfold mouseGone
  split
  · exact captureEntered_attached (s.setMouse ⟨false, 0⟩)
  · rfl

theorem mouseGone_of_free (hc : (s.pointer.capture || capturable s) = false) : mouseGone s = s.setMouse ⟨false, 0⟩ :=
  if_neg (by rw [hc]; exact Bool.false_ne_true)

theorem mouseGone_captures (hp : s.pointer.capture = false) (hc : capturable s = true) :
    (mouseGone s).pointer = { s.pointer with capture := true, rx := 0, ry := 0, pressure := ⟨none, 0, none⟩ } := by
  unfold mouseGone
  rw [if_pos (by rw [hc, Bool.or_true])]
  exact captureBegun_of_free hp

theorem mouseGone_keeps (h : ¬ (s.pointer.capture = false ∧ capturable s = true)) : (mouseGone s).pointer = s.pointer := by
  unfold mouseGone
  split
  next hc =>
    have hp : s.pointer.capture = true := by
      rcases hcap : s.pointer.capture with _ | _
      · rw [hcap, Bool.false_or] at hc
        exact absurd ⟨hcap, hc⟩ h
      · rfl
    exact captureBegun_of_captured hp
  · rfl

theorem detachHanded_handsOn (s : State) : HandsOn (mouseGone s) (detachHanded s) := by
  unfold detachHanded
  split
  · exact emitRelative_handsOn ..
  · exact emitGlided_handsOn ..

theorem detachHanded_apart (ha : attached s = false) : detachHanded s = mouseGone s := by
  unfold detachHanded
  split
  · exact emitRelative_apart ((mouseGone_attached s).trans ha)
  · exact emitGlided_still (.inl ((mouseGone_attached s).trans ha))

/-- What a detach hands to the port of the attached computer Cn. -/
def detachRecord (tile : Tile) (h : Head) (s : State) : PointerRecord :=
  if s.pointer.capture || capturable s then .relative 0 0 0 0 else mappedRecord (detachMotion s) tile h s

/-- The port that it reaches: on the absolute path its desktop clamps have been counted. -/
def portAtDetach (tile : Tile) (h : Head) (s : State) : Port :=
  if s.pointer.capture || capturable s then s.port h.comp
  else clampsCounted h (stageC s.pointer.px tile.x0 tile.w (effSize s h).1) (stageC s.pointer.py tile.y0 tile.h (effSize s h).2) s

theorem detachHanded_loc (ha : attached s = true) (ht : pointerTile s = some tile)
    (has : assignmentOf s tile.monitor = some (.head h)) (hh : (s.control h.comp).holder = .desk) :
    RecordTaken h.comp (detachRecord tile h s) (portAtDetach tile h s) (mouseGone s) (detachHanded s) := by
  have hf := focus_of_head ha ht has
  unfold detachHanded detachRecord portAtDetach
  by_cases hc : (s.pointer.capture || capturable s) = true
  · simp only [if_pos hc]
    have hemit : emitRelative (detachMotion s) (mouseGone s) = deliverPointer .desk h.comp (.relative 0 0 0 0) (mouseGone s) := by
      rw [emitRelative_loc ((mouseGone_attached s).trans ha) (by rw [mouseGone_eq]; exact hf)]
      exact if_pos (by rw [mouseGone_eq]; exact hh)
    have hport : (mouseGone s).port h.comp = s.port h.comp := by rw [mouseGone_eq]; rfl
    rw [hemit, ← hport]
    exact deliverPointer_taken ..
  · simp only [if_neg hc]
    obtain ⟨-, hcap⟩ := Bool.or_eq_false_iff.mp (Bool.not_eq_true _ ▸ hc)
    rw [mouseGone_of_free (Bool.not_eq_true _ ▸ hc)]
    rw [(emitGlided_head (x := s.setMouse ⟨false, 0⟩) ha hcap ht has).trans (if_pos hh)]
    exact emitAbsolute_taken (detachMotion s) tile h (s.setMouse ⟨false, 0⟩)

theorem detachHanded_unheld (ha : attached s = true) (ht : pointerTile s = some tile)
    (has : assignmentOf s tile.monitor = some (.head h)) (hh : (s.control h.comp).holder ≠ .desk) :
    detachHanded s = mouseGone s := by
  have hf := focus_of_head ha ht has
  unfold detachHanded
  by_cases hc : (s.pointer.capture || capturable s) = true
  · rw [if_pos hc]
    exact emitRelative_unheld (n := h.comp) (by rw [mouseGone_eq]; exact hf) (by rw [mouseGone_eq]; exact hh)
  · rw [if_neg hc, mouseGone_of_free (Bool.not_eq_true _ ▸ hc)]
    exact (emitGlided_head (x := s.setMouse ⟨false, 0⟩) ha (Bool.or_eq_false_iff.mp (Bool.not_eq_true _ ▸ hc)).2 ht has).trans
      (if_neg hh)

/-- What a detach sends on an attached lane. -/
def detachFrame (tile : Tile) (d : Mode) (s : State) : PointerFrame :=
  if s.pointer.capture || capturable s then .relative 0 0 0 0
  else .absolute 0 ((s.pointer.px - tile.x0) * d.width / tile.w) ((s.pointer.py - tile.y0) * d.height / tile.h) 0

theorem detachHanded_rem {o : Offer} (hb : s.blank.state = .clear) (ha : attached s = true) (ht : pointerTile s = some tile)
    (hf : s.focus.target = .rem k) (hv : (s.link k).viewer = .held) (ho : activeOffer s k = some o)
    (hm : ¬ (o.mode.width = 0 ∧ o.mode.height = 0)) :
    FrameSent k (detachFrame tile o.mode s) (mouseGone s) (detachHanded s) := by
  unfold detachHanded detachFrame
  by_cases hc : (s.pointer.capture || capturable s) = true
  · simp only [if_pos hc]
    rw [emitRelative_rem (k := k) (o := o) (by rw [mouseGone_eq]; exact hb) ((mouseGone_attached s).trans ha)
      (by rw [mouseGone_eq]; exact hf) (by rw [mouseGone_eq]; exact hv) (by rw [mouseGone_eq]; exact ho) hm]
    exact sendPointer_sent ..
  · simp only [if_neg hc]
    rw [mouseGone_of_free (Bool.not_eq_true _ ▸ hc)]
    have hemit := emitGlided_rem (e := detachMotion s) (x := s.setMouse ⟨false, 0⟩) hb ha
      (Bool.or_eq_false_iff.mp (Bool.not_eq_true _ ▸ hc)).2 ht hf
    rw [show activeOffer (s.setMouse ⟨false, 0⟩) k = some o from ho] at hemit
    rw [hemit.trans (if_pos ⟨hv, hm⟩)]
    exact emitFrame_frameSent (detachMotion s) tile k o.mode (s.setMouse ⟨false, 0⟩)

theorem detachHanded_silent (hb : s.blank.state = .clear) (ha : attached s = true) (ht : pointerTile s = some tile)
    (hf : s.focus.target = .rem k)
    (h : (s.link k).viewer ≠ .held ∨ ∀ o, activeOffer s k = some o → o.mode.width = 0 ∧ o.mode.height = 0) :
    detachHanded s = mouseGone s := by
  unfold detachHanded
  by_cases hc : (s.pointer.capture || capturable s) = true
  · rw [if_pos hc]
    exact emitRelative_silent (k := k) (by rw [mouseGone_eq]; exact hb) (by rw [mouseGone_eq]; exact hf) (by rw [mouseGone_eq]; exact h)
  · rw [if_neg hc, mouseGone_of_free (Bool.not_eq_true _ ▸ hc)]
    refine (emitGlided_rem (x := s.setMouse ⟨false, 0⟩) hb ha (Bool.or_eq_false_iff.mp (Bool.not_eq_true _ ▸ hc)).2 ht hf).trans ?_
    split
    next o ho => exact if_neg fun ⟨hv, hm⟩ => h.elim (fun h => h hv) fun h => hm (h o ho)
    · rfl

end Sys2Proof.Machine
end

section
/-! The desk pointer port (O21). -/

open Sys2Proof Sys2Proof.Machine

/-- Settles O21: attach and the silent cases by evaluation, the detach by what its event hands on from the state `mouseGone`. -/
theorem mousePortStates : Obligations.MousePortStates := by
  intro dx dy w b s
  refine ⟨rfl, fun hd => ?_, fun ha hb => ?_, fun hm hx0 hx1 hy0 hy1 => ?_⟩
  · have hno : ¬ s.mouse.attached = true := by rw [hd]; exact Bool.false_ne_true
    exact ⟨congrArg done (if_neg hno), congrArg done (if_neg hno)⟩
  · exact ⟨congrArg done ((if_pos ha).trans (motion_blanked (x := s.setMouse ⟨true, b⟩) hb)),
      congrArg done ((if_pos ha).trans (motion_blanked (x := s.setMouse ⟨false, 0⟩) hb))⟩
  · by_cases hb : s.blank.state = .clear
    case neg =>
      exact ⟨_, congrArg done ((if_pos hm).trans (motion_blanked (x := s.setMouse ⟨false, 0⟩) hb)), rfl, rfl,
        fun h => absurd h hb, fun _ => rfl, fun h => absurd h hb, rfl⟩
    have hon := detachHanded_handsOn s
    have hgone := mouseGone_eq s
    refine ⟨_, exec_detach_clear hm hb ⟨hx0, hx1⟩ ⟨hy0, hy1⟩, ?_, ?_, fun _ hc h => ?_, fun h => ?_, fun _ => ?_, ?_⟩
    · rw [hon, hgone]; rfl
    · rw [hon, hgone]; rfl
    · rw [hon]; exact mouseGone_captures hc h
    · rw [hon]; exact mouseGone_keeps fun hc => h ⟨hb, hc⟩
    · intro captured nothing
      have hnothing : detachHanded s = mouseGone s → nothing := fun h => by
        show _ ∧ _ ∧ _ ∧ _ ∧ _
        rw [h, hgone]
        exact ⟨rfl, rfl, rfl, rfl, rfl⟩
      refine ⟨fun ha => hnothing (detachHanded_apart ha), fun tile ha ht => ⟨fun n h hf has => ⟨fun hh => ?_, fun hh => ?_⟩,
        fun k hf => ⟨fun hno => hnothing (detachHanded_silent hb ha ht hf hno), fun o hv ho hmode => ?_⟩⟩⟩
      · obtain rfl : n = h.comp := FocusTarget.loc.inj (hf.symm.trans (focus_of_head ha ht has))
        exact hnothing (detachHanded_unheld ha ht has hh)
      · obtain rfl : n = h.comp := FocusTarget.loc.inj (hf.symm.trans (focus_of_head ha ht has))
        have htaken := detachHanded_loc ha ht has hh
        have hport : ∀ m, (mouseGone s).port m = s.port m := by rw [hgone]; exact fun _ => rfl
        have hctl : ∀ m, (mouseGone s).control m = s.control m := by rw [hgone]; exact fun _ => rfl
        have hlast : ∀ m, (mouseGone s).lastPointer m = s.lastPointer m := by rw [hgone]; exact fun _ => rfl
        intro gx gy c r clamps p
        by_cases hbus : (s.port h.comp).bus = .detached
        · obtain ⟨tp, tps, trest⟩ := htaken.detached ((congrArg Port.bus (hport _)).trans hbus)
          rw [hgone] at trest
          refine ⟨fun m hne => ⟨(tps m hne).trans (hport m), ?_, ?_⟩, ?_, ?_, fun _ => ⟨tp, ?_, ?_, ?_⟩, fun h => absurd hbus h⟩
          all_goals rw [trest]; rfl
        · obtain ⟨tp, tps, tc, tcs, tl, tls, trest⟩ := htaken.taken fun h => hbus ((congrArg Port.bus (hport _)).symm.trans h)
          rw [hgone] at trest
          refine ⟨fun m hne => ⟨(tps m hne).trans (hport m), (tcs m hne).trans (hctl m), (tls m hne).trans (hlast m)⟩, ?_, ?_,
            fun h => absurd h hbus, fun _ => ⟨tp, tc.trans ?_, tl, ?_⟩⟩
          · rw [trest]; rfl
          · rw [trest]; rfl
          · rw [hgone]; rfl
          · rw [trest]; rfl
      · obtain ⟨h1, h2, h3, h4, h5⟩ := detachHanded_rem hb ha ht hf hv ho hmode
        rw [hgone] at h1 h2 h4 h5
        refine ⟨h1, h2, h3, h4, ?_, ?_, ?_, ?_⟩
        all_goals rw [h5]; rfl
    · rw [hon, hgone]; rfl

end

section
/-! SUPPORT. The bytes of a scene name its entries again, their order by monitor is unique (R117), and a recall (R118). -/

namespace Sys2Proof.Machine

open Sys2Proof

variable {s x u : State} {b f : Byte} {es kept : List (Monitor × Target)} {pairs : List (Byte × Byte)} {e : Monitor × Target}
  {m : Monitor} {t : Target} {i : Fin 16}

/-! ### The bytes of the entries -/

theorem sceneEntriesOf_bytes (es : List (Monitor × Target)) :
    sceneEntriesOf (es.flatMap fun e => monitorByte e.1 ++ targetByte e.2) = some es := by
  induction es with
  | nil => rfl
  | cons e es ih =>
    obtain ⟨b, hb, ht⟩ := targetOf_bytes e.2
    rw [List.flatMap_cons, hb]
    simp only [monitorByte, byte1, List.cons_append, List.nil_append, sceneEntriesOf, monitorOf_byte, ht]
    exact congrArg (fun l : Option (List (Monitor × Target)) => match some e.1, some e.2, l with
      | some m, some t, some es => some ((m, t) :: es)
      | _, _, _ => none) ih

/-- Every pair of the list has to name a monitor and a target. -/
theorem sceneEntriesOf_none (h : ∃ p ∈ pairs, p.1 = 0 ∨ 4 < p.1.toNat ∨ 18 < p.2.toNat) :
    sceneEntriesOf (pairs.flatMap fun p => [p.1, p.2]) = none := by
  induction pairs with
  | nil =>
    obtain ⟨p, hp, -⟩ := h
    cases hp
  | cons q pairs ih =>
    simp only [List.flatMap_cons, List.cons_append, List.nil_append, sceneEntriesOf]
    obtain ⟨p, hp, hbad⟩ := h
    rcases List.mem_cons.mp hp with rfl | hp
    · rcases hbad with h | h | h
      · rw [monitorOf_eq_none (.inl h)]
      · rw [monitorOf_eq_none (.inr h)]
      · rw [targetOf_eq_none h]
        cases monitorOf p.1 <;> rfl
    · rw [ih ⟨p, hp, hbad⟩]
      cases monitorOf q.1 <;> cases targetOf q.2 <;> rfl

theorem flatMap_length_two {α : Type} {g : α → List Byte} (hg : ∀ a, (g a).length = 2) (xs : List α) :
    (xs.flatMap g).length = 2 * xs.length := by
  induction xs with
  | nil => rfl
  | cons a xs ih =>
    rw [List.flatMap_cons, List.length_append, hg, ih, List.length_cons]
    omega

theorem entryBytes_length (e : Monitor × Target) : (monitorByte e.1 ++ targetByte e.2).length = 2 := by
  obtain ⟨b, hb, -⟩ := targetOf_bytes e.2
  rw [hb]
  rfl

theorem sceneSlotOf_none (h : 15 < b.toNat) : sceneSlotOf b = none := dif_neg (by omega)

theorem sceneSlotOf_some (h : b.toNat = i.val) : sceneSlotOf b = some i := by
  unfold sceneSlotOf
  rw [dif_pos (by omega)]
  exact congrArg some (Fin.ext h)

theorem sceneFocusOf_none (h : 8 < f.toNat) : sceneFocusOf f = none := by
  have hf : ¬ f = 0 := by
    rw [byte_eq_zero_iff]
    omega
  rw [sceneFocusOf, if_neg hf, compOf_eq_none.mpr (.inr h)]
  rfl

theorem sceneFocusOf_isSome (h : ¬ 8 < f.toNat) : ∃ c, sceneFocusOf f = some c := by
  unfold sceneFocusOf
  split
  · exact ⟨_, rfl⟩
  next hf =>
    cases hc : compOf f with
    | none => exact absurd (compOf_eq_none.mp hc) fun h' => h'.elim hf h
    | some n => exact ⟨some n, rfl⟩

theorem sceneFocusOf_comp {n : Comp} (h : f.toNat = n.val + 1) : sceneFocusOf f = some (some n) := by
  have hf : ¬ f = 0 := by
    rw [byte_eq_zero_iff]
    omega
  rw [sceneFocusOf, if_neg hf, compOf_eq_some h]
  rfl

/-! ### The order by monitor -/

theorem insertEntry_perm (e : Monitor × Target) (es : List (Monitor × Target)) : (insertEntry e es).Perm (e :: es) := by
  induction es with
  | nil => exact .refl _
  | cons a es ih =>
    unfold insertEntry
    split
    · exact .refl _
    · exact (ih.cons a).trans (.swap e a es)

theorem sortEntries_perm (es : List (Monitor × Target)) : (sortEntries es).Perm es := by
  induction es with
  | nil => exact .refl _
  | cons e es ih => exact (insertEntry_perm e _).trans (ih.cons e)

theorem insertEntry_sorted (e : Monitor × Target) (h : es.Pairwise fun a c => a.1 ≤ c.1) :
    (insertEntry e es).Pairwise fun a c => a.1 ≤ c.1 := by
  induction es with
  | nil => simp [insertEntry]
  | cons c es ih =>
    obtain ⟨hc, hes⟩ := List.pairwise_cons.mp h
    unfold insertEntry
    split
    next hle =>
      refine List.pairwise_cons.mpr ⟨fun d hd => ?_, h⟩
      obtain rfl | hd := List.mem_cons.mp hd
      · exact hle
      · exact le_trans hle (hc d hd)
    next hle =>
      refine List.pairwise_cons.mpr ⟨fun d hd => ?_, ih hes⟩
      obtain rfl | hd := List.mem_cons.mp ((insertEntry_perm e es).mem_iff.mp hd)
      · exact le_of_lt (not_le.mp hle)
      · exact hc d hd

theorem sortEntries_sorted (es : List (Monitor × Target)) : (sortEntries es).Pairwise fun a c => a.1 ≤ c.1 := by
  induction es with
  | nil => exact .nil
  | cons e es ih => exact insertEntry_sorted e ih

/-- A list of entries of distinct monitors has one order by monitor. -/
theorem sortEntries_eq {sorted : List (Monitor × Target)} (hp : sorted.Perm es) (hs : sorted.Pairwise fun a b => a.1 < b.1) :
    sortEntries es = sorted := by
  have hmem := (sortEntries_perm es).trans hp.symm
  refine List.Perm.eq_of_pairwise (fun a b ha hb h1 h2 => ?_) (sortEntries_sorted es) (hs.imp le_of_lt) hmem
  exact List.inj_on_of_nodup_map (List.pairwise_map.mpr (hs.imp ne_of_lt)) (hmem.mem_iff.mp ha) hb (le_antisymm h1 h2)

/-! ### STORE_SCENE -/

theorem entriesStorable_iff : entriesStorable s es = true ↔
    es.length ≤ 4 ∧ (es.map Prod.fst).Nodup ∧ ∀ m h, (m, some (Input.head h)) ∈ es → (s.headMap h).enabled = true := by
  simp only [entriesStorable, Bool.and_eq_true, decide_eq_true_eq, List.all_eq_true, and_assoc]
  refine and_congr_right fun _ => and_congr_right fun _ => ⟨fun h m g hm => h _ hm, fun h e he => ?_⟩
  split
  next g hg => exact h e.1 g (by rw [← hg]; exact he)
  · rfl

theorem judgeStoreScene_counted {α : Type} {g : α → List Byte} {xs : List α} (hg : ∀ a, (g a).length = 2) (hl : xs.length ≤ 122) :
    judgeStoreScene (b :: f :: listBytes g xs) s =
      match sceneSlotOf b, sceneFocusOf f, sceneEntriesOf (xs.flatMap g) with
      | some i, some fc, some es =>
        if entriesStorable s es then okay (s.setScene i (if es = [] then none else some ⟨sortEntries es, fc⟩))
        else refuse .badArg s
      | _, _, _ => refuse .badArg s := by
  have hn : (BitVec.ofNat 8 xs.length).toNat = xs.length := toNat_byte (by omega)
  refine if_pos ?_
  rw [hn]
  exact flatMap_length_two hg xs

theorem judgeStoreScene_stored {c : Option Comp} (hl : es.length ≤ 122) (hb : b.toNat = i.val) (hf : sceneFocusOf f = some c)
    (hs : entriesStorable s es = true) :
    judgeStoreScene (b :: f :: listBytes (fun e => monitorByte e.1 ++ targetByte e.2) es) s =
      okay (s.setScene i (if es = [] then none else some ⟨sortEntries es, c⟩)) := by
  simp only [judgeStoreScene_counted entryBytes_length hl, sceneSlotOf_some hb, hf, sceneEntriesOf_bytes, hs, if_true]

theorem judgeStoreScene_refused (hl : es.length ≤ 122)
    (h : 15 < b.toNat ∨ 8 < f.toNat ∨ entriesStorable s es = false) :
    judgeStoreScene (b :: f :: listBytes (fun e => monitorByte e.1 ++ targetByte e.2) es) s = refuse .badArg s := by
  rw [judgeStoreScene_counted entryBytes_length hl, sceneEntriesOf_bytes]
  split
  next hi hc he =>
    cases he
    rcases h with h | h | h
    · rw [sceneSlotOf_none h] at hi
      cases hi
    · rw [sceneFocusOf_none h] at hc
      cases hc
    · exact if_neg (by rw [h]; exact Bool.false_ne_true)
  · rfl

theorem judgeStoreScene_unnamed (hl : pairs.length ≤ 122) (h : ∃ p ∈ pairs, p.1 = 0 ∨ 4 < p.1.toNat ∨ 18 < p.2.toNat) :
    judgeStoreScene (b :: f :: listBytes (fun p => [p.1, p.2]) pairs) s = refuse .badArg s := by
  rw [judgeStoreScene_counted (fun _ => rfl) hl, sceneEntriesOf_none h]
  split
  next he => cases he
  · rfl

/-! ### The entries that a recall hands out -/

/-- What a recall skips: an inbound lane without an ACTIVE session, and a head now disabled (R118). -/
def targetSkipped (s : State) (t : Target) : Prop :=
  (∃ k, t = some (.lane k) ∧ ∀ y, (s.link k).inbound ≠ .active y) ∨
    ∃ h, t = some (.head h) ∧ (s.headMap h).enabled = false

theorem entrySkipped_iff : entrySkipped s e = true ↔ targetSkipped s e.2 := by
  unfold entrySkipped targetSkipped
  cases e.2 with
  | none => simp
  | some i =>
    cases i with
    | head h => simp
    | lane k => simp [← activeOffer_eq_some, Option.eq_none_iff_forall_ne_some]

/-- The entries that a recall of the scene does not skip. -/
def recalled (s : State) (c : Scene) : List (Monitor × Target) := c.entries.filter fun e => !entrySkipped s e

theorem mem_recalled {c : Scene} : e ∈ recalled s c ↔ e ∈ c.entries ∧ ¬ targetSkipped s e.2 := by
  rw [recalled, List.mem_filter, ← entrySkipped_iff, Bool.not_eq_true, Bool.not_eq_true']

theorem recalled_nodup {c : Scene} (h : (c.entries.map Prod.fst).Nodup) : ((recalled s c).map Prod.fst).Nodup :=
  h.sublist (List.filter_sublist.map _)

/-- Any duplicate-free list of the entries handed out counts them. -/
theorem recalled_length {c : Scene} (h : (c.entries.map Prod.fst).Nodup)
    (hk : ∀ e, e ∈ kept ↔ e ∈ c.entries ∧ ¬ targetSkipped s e.2) (hd : kept.Nodup) :
    c.entries.length - (recalled s c).length + kept.length = c.entries.length := by
  have hp : kept.Perm (recalled s c) :=
    (List.perm_ext_iff_of_nodup hd (List.Nodup.of_map _ (recalled_nodup h))).mpr fun e => (hk e).trans mem_recalled.symm
  have hle : (recalled s c).length ≤ c.entries.length := List.length_filter_le ..
  rw [hp.length_eq]
  omega

theorem monitorOut_inj {a c : Monitor} : monitorOut a = monitorOut c ↔ a = c := by revert a c; decide

theorem laneOut_ne_monitorOut (k : LinkId) (m : Monitor) : laneOut k ≠ monitorOut m := by revert k m; decide

/-- The monitors listed have been handed their targets (R118). -/
def targetsTaken (es : List (Monitor × Target)) (s : State) : State :=
  es.foldl (fun s e => takeTarget (monitorOut e.1) e.2 s) s

theorem targetsTaken_eq (es : List (Monitor × Target)) (s : State) :
    targetsTaken es s = { s with outputs := (targetsTaken es s).outputs } := by
  induction es generalizing s with
  | nil => rfl
  | cons e es ih => exact ih (takeTarget (monitorOut e.1) e.2 s)

theorem targetsTaken_out_of_ne (o : OutputId) (h : ∀ e ∈ es, o ≠ monitorOut e.1) (s : State) :
    (targetsTaken es s).out o = s.out o := by
  induction es generalizing s with
  | nil => rfl
  | cons e es ih =>
    obtain ⟨he, hes⟩ := List.forall_mem_cons.mp h
    exact (ih hes _).trans (State.modOut_out_ne _ _ _ _ he)

theorem targetsTaken_out_of_mem (hd : (es.map Prod.fst).Nodup) (h : (m, t) ∈ es) (s : State) :
    (targetsTaken es s).out (monitorOut m) = takeTargetRecord t (s.out (monitorOut m)) := by
  induction es generalizing s with
  | nil => cases h
  | cons e es ih =>
    obtain ⟨he, hes⟩ := List.nodup_cons.mp hd
    rcases List.mem_cons.mp h with rfl | h
    · refine (targetsTaken_out_of_ne (es := es) _ (fun c hc hm => he ?_) _).trans (State.modOut_out_same ..)
      exact List.mem_map.mpr ⟨c, hc, (monitorOut_inj.mp hm).symm⟩
    · have hne : monitorOut m ≠ monitorOut e.1 := fun hm =>
        he (List.mem_map.mpr ⟨(m, t), h, monitorOut_inj.mp hm⟩)
      refine (ih hes h _).trans (congrArg _ (State.modOut_out_ne _ _ _ _ hne))

theorem targetsTaken_out_of_absent (h : ∀ t, (m, t) ∉ es) (s : State) :
    (targetsTaken es s).out (monitorOut m) = s.out (monitorOut m) :=
  targetsTaken_out_of_ne _ (fun e he hm => h e.2 (by rw [monitorOut_inj.mp hm]; exact he)) s

/-! ### The picture that places the focus -/

theorem sceneLook_of_mem (hd : (es.map Prod.fst).Nodup) (h : (m, t) ∈ es) : sceneLook s es m = t := by
  have hs : (es.find? fun e => e.1 == m).isSome := List.find?_isSome.mpr ⟨(m, t), h, by simp⟩
  obtain ⟨e, he⟩ := Option.isSome_iff_exists.mp hs
  have hm : e.1 = m := by simpa using List.find?_some he
  rw [sceneLook, he, List.inj_on_of_nodup_map hd (List.mem_of_find?_eq_some he) h hm]

theorem sceneLook_of_absent (h : ∀ t, (m, t) ∉ es) : sceneLook s es m = assignmentOf s m := by
  have hn : (es.find? fun e => e.1 == m) = none := List.find?_eq_none.mpr fun e he hm =>
    h e.2 (by rw [← show e.1 = m by simpa using hm]; exact he)
  rw [sceneLook, hn]

/-- The picture is the target handed out, and the assignment of every other monitor. -/
theorem sceneLook_eq {c : Scene} (hd : (c.entries.map Prod.fst).Nodup) {look : Monitor → Target}
    (hk : ∀ m t, (m, t) ∈ c.entries → ¬ targetSkipped s t → look m = t)
    (ha : ∀ m, (∀ t, (m, t) ∈ c.entries → targetSkipped s t) → look m = assignmentOf s m) :
    sceneLook (targetsTaken (recalled s c) s) (recalled s c) = look := by
  funext m
  by_cases h : ∃ t, (m, t) ∈ recalled s c
  · obtain ⟨t, ht⟩ := h
    obtain ⟨hm, hs⟩ := mem_recalled.mp ht
    rw [sceneLook_of_mem (recalled_nodup hd) ht, hk m t hm hs]
  · have habs : ∀ t, (m, t) ∉ recalled s c := fun t ht => h ⟨t, ht⟩
    rw [sceneLook_of_absent habs, ha m fun t ht => not_not.mp fun hs => habs t (mem_recalled.mpr ⟨ht, hs⟩)]
    exact congrArg Output.assignment (targetsTaken_out_of_absent habs s)

/-! ### RECALL_SCENE -/

theorem judgeRecallScene_none (h : 15 < b.toNat) : judgeRecallScene [b] s = refuse .badArg s := by
  simp only [judgeRecallScene, sceneSlotOf_none h]

theorem judgeRecallScene_empty (h : b.toNat = i.val) (hi : s.scene i = none) :
    judgeRecallScene [b] s = refuse .noEntry s := by
  simp only [judgeRecallScene, sceneSlotOf_some h, recallSlot, hi]

/-- The state after a recall (R118). -/
def sceneDone (c : Scene) (s : State) : State :=
  let s1 := targetsTaken (recalled s c) s
  match c.focus with
  | some n => writePlaced (.loc n) .scene (placement s1 (sceneLook s1 (recalled s c)) (.loc n)) s1
  | none => s1

theorem judgeRecallScene_held {c : Scene} (h : b.toNat = i.val) (hi : s.scene i = some c) :
    judgeRecallScene [b] s =
      ⟨.accepted, [BitVec.ofNat 8 (c.entries.length - (recalled s c).length)], sceneDone c s⟩ := by
  simp only [judgeRecallScene, sceneSlotOf_some h, recallSlot, hi]
  rfl

theorem sceneDone_unfocused {c : Scene} (h : c.focus = none) : sceneDone c s = targetsTaken (recalled s c) s := by
  simp only [sceneDone, h]

/-- The focus write of a recall, from the state whose outputs have taken their targets. -/
theorem sceneDone_focused {c : Scene} {n : Comp} (h : c.focus = some n) :
    PlacedWrite ⟨.loc n, .scene, placement s (sceneLook (targetsTaken (recalled s c) s) (recalled s c)) (.loc n)⟩
      (targetsTaken (recalled s c) s) (sceneDone c s) := by
  have hlayout : (targetsTaken (recalled s c) s).layout = s.layout := by rw [targetsTaken_eq]
  have hplace (look : Monitor → Target) (t : FocusTarget) :
      placement (targetsTaken (recalled s c) s) look t = placement s look t := by rw [placement, placement, hlayout]
  simp only [sceneDone, h, hplace]
  exact writePlaced_written ..

theorem sceneDone_outputs (c : Scene) (s : State) : (sceneDone c s).outputs = (targetsTaken (recalled s c) s).outputs := by
  unfold sceneDone
  cases c.focus with
  | none => rfl
  | some n =>
    show (writePlaced ..).outputs = _
    rw [(writePlaced_written ..).rest]

end Sys2Proof.Machine
end

section
/-! The scenes (O42). -/

open Sys2Proof Sys2Proof.Machine

/-- Settles O42: the entries read are the entries told, their order by monitor is unique, and a recall hands out targets and
then writes the focus as any cause that places the pointer. -/
theorem scenesStoredAndRecalled : Obligations.ScenesStoredAndRecalled := by
  intro tag b f es s hl
  refine ⟨?_, ?_, ?_⟩
  · intro pairs hp hbad r ht
    exact exec_request r judgeStoreScene s ht _ _ _ (judgeStoreScene_unnamed hp hbad)
  · intro r bad ht
    have hstorable : entriesStorable (begun r s) es = true ↔
        es.length ≤ 4 ∧ (es.map Prod.fst).Nodup ∧ ∀ m h, (m, some (Input.head h)) ∈ es → (s.headMap h).enabled = true :=
      entriesStorable_iff
    refine ⟨fun hbad => ?_, fun hok i sorted hb hperm hsort => ?_⟩
    · refine exec_request r judgeStoreScene s ht _ _ _ (judgeStoreScene_refused hl ?_)
      refine hbad.imp_right (Or.imp_right fun hbad => ?_)
      rw [Bool.eq_false_iff, ne_eq, hstorable]
      rintro ⟨hlen, hnd, hen⟩
      rcases hbad with h | h | ⟨m, h, hm, hdis⟩
      · omega
      · exact h hnd
      · rw [hen m h hm] at hdis
        cases hdis
    · obtain ⟨-, hf, hlen, hnd, hen⟩ : ¬ 15 < b.toNat ∧ ¬ 8 < f.toNat ∧ ¬ 4 < es.length ∧ (es.map Prod.fst).Nodup ∧
          ¬ ∃ m h, (m, some (Input.head h)) ∈ es ∧ (s.headMap h).enabled = false := by
        simpa only [bad, not_or, not_not] using hok
      obtain ⟨c, hc⟩ := sceneFocusOf_isSome hf
      have hst : entriesStorable (begun r s) es = true := hstorable.mpr
        ⟨Nat.not_lt.mp hlen, hnd, fun m h hm => not_imp_comm.mp (fun h' => ⟨m, h, hm, Bool.not_eq_true _ ▸ h'⟩) hen⟩
      refine answered_ok ht (judgeStoreScene_stored hl hb hc hst) ⟨fun he => ?_, fun he h0 => ?_, fun he n hn => ?_,
        fun j hj => State.setScene_scene_ne _ _ _ _ hj, rfl⟩
      · rw [State.setScene_scene_same, if_pos he]
      · subst h0
        rw [State.setScene_scene_same, if_neg he, sortEntries_eq hperm hsort]
        cases hc
        rfl
      · rw [State.setScene_scene_same, if_neg he, sortEntries_eq hperm hsort]
        rw [sceneFocusOf_comp hn] at hc
        cases hc
        rfl
  · intro r ht
    refine ⟨fun hb => ?_, fun i hb => ⟨fun hi => ?_, fun c hi hd => ?_⟩⟩
    · exact exec_request r judgeRecallScene s ht _ _ _ (judgeRecallScene_none hb)
    · exact exec_request r judgeRecallScene s ht _ _ _ (judgeRecallScene_empty (s := begun r s) hb hi)
    intro skipped
    have hout : ∀ o, (sceneDone c (begun r s)).out o = (targetsTaken (recalled (begun r s) c) (begun r s)).out o := fun o =>
      congrArg (pick · o) (sceneDone_outputs c (begun r s))
    refine ⟨_, _, exec_request r judgeRecallScene s ht _ _ _ (judgeRecallScene_held (s := begun r s) hb hi),
      fun kept hk hnd => recalled_length (s := begun r s) hd hk hnd, fun m t hm ht => ?_, fun m hm => ?_, fun k => ?_, ?_⟩
    · exact (hout _).trans (targetsTaken_out_of_mem (recalled_nodup hd) (mem_recalled.mpr ⟨hm, ht⟩) _)
    · exact (hout _).trans (targetsTaken_out_of_absent (fun t ht => (mem_recalled.mp ht).2 (hm t (mem_recalled.mp ht).1)) _)
    · exact (hout _).trans (targetsTaken_out_of_ne _ (fun e _ => laneOut_ne_monitorOut k e.1) _)
    obtain ⟨outs, htaken⟩ : ∃ outs, targetsTaken (recalled (begun r s) c) (begun r s) = { begun r s with outputs := outs } :=
      ⟨_, targetsTaken_eq ..⟩
    cases hf : c.focus with
    | none =>
      rw [sceneDone_unfocused hf, htaken]
      refine ⟨fun _ => rfl, nofun, rfl, rfl, rfl, rfl, linesFollow_same rfl fun _ => rfl, ?_⟩
      have hsup := toldWrite_same (s := s) (u := { begun r s with outputs := outs }) rfl (fun _ => rfl) (begun r s).sup
      rw [hsup]
    | some n =>
      have hw := sceneDone_focused (s := begun r s) hf
      have hlook := fun look => sceneLook_eq (s := begun r s) (c := c) hd (look := look)
      rw [htaken] at hw hlook
      generalize sceneDone c (begun r s) = u at *
      refine ⟨nofun, fun c' hc look hk ha => ?_, hw.gain, hw.threshold, hw.dwell, hw.broadcast, hw.lines, ?_⟩
      · cases hc
        rw [hlook look hk ha] at hw
        refine ⟨hw.focus, fun m d hm hd => ?_, fun hm => ?_, hw.capture, fun h => ?_, fun h => hw.changed (Ne.symm h)⟩
        · rw [show placement (begun r s) look (.loc n) = some m from hm] at hw
          exact hw.centred hd
        · rw [show placement (begun r s) look (.loc n) = none from hm] at hw
          exact hw.stayed
        · obtain ⟨hkept, hports⟩ := hw.same h.symm
          refine ⟨hkept, fun m => (hports m).trans ?_⟩
          simp only [FocusTarget.loc.injEq, eq_comm (a := n)]
          rfl
      · exact hw.rest.trans (by rw [hw.rest]; rfl)

end

section
/-!
SUPPORT. What setting an output tells the router: a capture that ends with it, and a focus that is re-evaluated (R28, R43).
-/

namespace Sys2Proof.Machine

open Sys2Proof

variable {s u x y : State} {m : Monitor} {o : OutputId} {t : FocusTarget}

/-! ### A focus change after the end of a capture -/

theorem clearCapture_isRecipient (s : State) (m : Comp) : isRecipient (clearCapture s) m = isRecipient s m := by
  refine isRecipient_congr (clearCapture_focus s) ?_ ?_ ?_ (fun m => ?_) (fun m => ?_) m
  case refine_4 =>
    rw [clearCapture_port]
    split <;> rfl
  all_goals rw [clearCapture_eq]
  rfl

theorem clearCapture_linkIsRecipient (s : State) (k : LinkId) : linkIsRecipient (clearCapture s) k = linkIsRecipient s k := by
  rw [clearCapture_eq]
  rfl

theorem releaseLeavers_congr {old old' : State} (hc : ∀ m, isRecipient old' m = isRecipient old m)
    (hl : ∀ k, linkIsRecipient old' k = linkIsRecipient old k) (s : State) : releaseLeavers old' s = releaseLeavers old s := by
  have h1 : releaseIfLeft old' = releaseIfLeft old := by
    funext s m
    rw [releaseIfLeft, releaseIfLeft, hc]
  have h2 : releaseLinkIfLeft old' = releaseLinkIfLeft old := by
    funext s k
    rw [releaseLinkIfLeft, releaseLinkIfLeft, hl]
  rw [releaseLeavers, releaseLeavers, h1, h2]

/-- What a focus change does to its old target is done once, however the capture has ended. -/
theorem leaveTarget_clearCapture (r : FocusRecord) (s : State) :
    leaveTarget s.focus.target ((maskHeld (clearCapture s)).setFocus r) =
      leaveTarget s.focus.target ((maskHeld s).setFocus r) := by
  by_cases hc : s.pointer.capture = true
  · have hclear : clearCapture s = leaveTarget s.focus.target s := if_pos hc
    rw [hclear]
    cases s.focus.target with
    | loc n =>
      have htwice : upd (upd s.ports n carryCleared) n carryCleared = upd s.ports n carryCleared := by
        refine vector_ext fun j => ?_
        simp only [pick_upd]
        split <;> rfl
      exact congrArg (fun ports => { leaveTarget (.loc n) ((maskHeld s).setFocus r) with ports := ports }) htwice
    | rem k => rfl
    | none => rfl
  · rw [show clearCapture s = s from if_neg hc]

theorem focusChange_clearCapture (t : FocusTarget) (o : Origin) (c : Option Monitor) (place : Bool) (s : State) :
    focusChange t o c place (clearCapture s) = focusChange t o c place s := by
  have hleave := leaveTarget_clearCapture ⟨t, o, c⟩ s
  have hnotice : noticeFocus (clearCapture s) = noticeFocus s := by
    funext v
    rw [noticeFocus, noticeFocus, clearCapture_focus]
  simp only [focusChange, clearCapture_focus, hleave, hnotice,
    releaseLeavers_congr (clearCapture_isRecipient s) (clearCapture_linkIsRecipient s)]

/-! ### The router is told of an output that has been set -/

/-- What setting the output `o` in the state `y` does to the router and its recipients (R28, R43). -/
structure OutputSettled (o : OutputId) (y u : State) : Prop where
  onTile : ∀ m : Monitor, o = monitorOut m → y.focus.tile = some m → u.focus = ⟨formedTarget y (assignmentOf y m), .glide, some m⟩
  offTile : (∀ m : Monitor, o = monitorOut m → y.focus.tile ≠ some m) → u.focus = y.focus
  capture : ∀ m : Monitor, o = monitorOut m → pointerMonitor y = some m → u.pointer.capture = false
  same : u.focus.target = y.focus.target → targetKept y u ∧
    ((∀ m : Monitor, o = monitorOut m → pointerMonitor y ≠ some m) → u.pointer = y.pointer ∧ u.ports = y.ports) ∧
    ∀ m : Monitor, o = monitorOut m → pointerMonitor y = some m → ∀ n, u.port n =
      if y.pointer.capture = true ∧ y.focus.target = .loc n then carryCleared (y.port n) else y.port n
  changed : u.focus.target ≠ y.focus.target → refocused y u
  pointer : u.pointer = { y.pointer with
    capture := u.pointer.capture, glideZone := u.pointer.glideZone, glideFrom := u.pointer.glideFrom }
  broadcast : u.router.broadcast = y.router.broadcast
  away : (∀ m : Monitor, o = monitorOut m → y.focus.tile ≠ some m ∧ pointerMonitor y ≠ some m) → u = y
  lines : linesFollow y u
  rest : u = { y with
    focus := u.focus, pointer := u.pointer, router := u.router, ports := u.ports, controls := u.controls
    keyboard := u.keyboard, lines := u.lines, links := u.links, sup := toldWrite y u y.sup }

theorem OutputSettled.written (h : OutputSettled o y u) : u = { y with
    outputs := u.outputs, focus := u.focus, pointer := u.pointer, router := u.router, ports := u.ports
    controls := u.controls, keyboard := u.keyboard, lines := u.lines, links := u.links, sup := toldWrite y u y.sup } := by
  have houts : u.outputs = y.outputs := by rw [h.rest]
  rw [houts]
  exact h.rest

/-- The capture of the pointer's monitor has ended, when that is the monitor set. -/
def captureSettled (m : Monitor) (y : State) : State := if pointerMonitor y = some m then clearCapture y else y

theorem captureSettled_eq (m : Monitor) (y : State) :
    captureSettled m y = { y with
      pointer := { y.pointer with capture := (captureSettled m y).pointer.capture }, ports := (captureSettled m y).ports } := by
  unfold captureSettled
  split
  · rw [clearCapture_eq]
  · rfl

theorem outputSet_monitor (m : Monitor) (y : State) :
    outputSet (monitorOut m) y =
      if y.focus.tile = some m then reevaluate m (captureSettled m y) else captureSettled m y := by
  have ho : outMonitor (monitorOut m) = some m := dif_pos m.isLt
  have hf : (captureSettled m y).focus = y.focus := by rw [captureSettled_eq]
  simp only [outputSet, ho]
  rw [← hf]
  rfl

theorem outputSet_lane (h : ∀ m : Monitor, o ≠ monitorOut m) (y : State) : outputSet o y = y := by
  have ho : outMonitor o = none := dif_neg fun hlt => h ⟨o.val, hlt⟩ rfl
  simp only [outputSet, ho]

theorem captureSettled_off (h : pointerMonitor y ≠ some m) : captureSettled m y = y := if_neg h

theorem captureSettled_on (h : pointerMonitor y = some m) : captureSettled m y = clearCapture y := if_pos h

theorem captureSettled_isRecipient (m : Monitor) (y : State) (n : Comp) :
    isRecipient (captureSettled m y) n = isRecipient y n := by
  unfold captureSettled
  split
  · exact clearCapture_isRecipient y n
  · rfl

/-- Nothing but the capture and the record has been written, and the target stays. -/
theorem outputSettled_kept {f : FocusRecord} (ht : f.target = y.focus.target)
    (hon : y.focus.tile = some m → f = ⟨formedTarget y (assignmentOf y m), .glide, some m⟩)
    (hoff : y.focus.tile ≠ some m → f = y.focus)
    (hu : u = { captureSettled m y with focus := f, sup := toldFocus y u y.sup }) : OutputSettled (monitorOut m) y u := by
  have hcs := captureSettled_eq m y
  have hf : u.focus = f := by rw [hu]
  have hrec : ∀ n, isRecipient u n = isRecipient y n := fun n => by
    rw [← captureSettled_isRecipient m y n]
    have hc : (captureSettled m y).focus = y.focus := by rw [hcs]
    refine isRecipient_target (hf ▸ ht.trans (by rw [hc])) ?_ ?_ ?_ (fun n => ?_) (fun n => ?_) n
    all_goals rw [hu]
    all_goals rfl
  have htold : toldWrite y u y.sup = toldFocus y u y.sup := congrArg (toldFocus y u) (toldLeavers_same hrec _)
  have hkeep : u.focus.target = y.focus.target := by rw [hf, ht]
  refine ⟨fun m' hm' htile => ?_, fun hoffs => hf.trans (hoff (hoffs m rfl)), fun m' hm' hp => ?_,
    fun _ => ⟨⟨?_, ?_, ?_, ?_, ?_, ?_⟩, fun hp => ?_, fun m' hm' hp n => ?_⟩, fun h => absurd hkeep h, ?_, ?_, fun haway => ?_,
    linesFollow_same hkeep fun l => ?_, ?_⟩
  · cases monitorOut_inj.mp hm'
    exact hf.trans (hon htile)
  · cases monitorOut_inj.mp hm'
    rw [hu, captureSettled_on hp, clearCapture_eq]
  · rw [hu, hcs]
  · rw [hu, hcs]
  · rw [hu, hcs]
  · rw [hu, hcs]
  · rw [hu, hcs]
  · rw [hu, hcs]
  · rw [hu, captureSettled_off (hp m rfl)]
    exact ⟨rfl, rfl⟩
  · cases monitorOut_inj.mp hm'
    rw [hu, captureSettled_on hp]
    exact clearCapture_port y n
  · rw [hu, hcs]
  · rw [hu, hcs]
  · obtain ⟨htile, hp⟩ := haway m rfl
    have hfocus : f = y.focus := hoff htile
    have hsup : toldFocus y u y.sup = y.sup := if_pos (hf.trans hfocus)
    rw [hsup, captureSettled_off hp, hfocus] at hu
    exact hu
  · rw [hu, hcs]
    rfl
  · rw [htold]
    rw [hcs] at hu
    exact hu.trans (by rw [hu])

/-- The focus has been re-evaluated on the monitor set, and its target has changed. -/
theorem outputSettled_changed (htile : y.focus.tile = some m) (hne : u.focus.target ≠ y.focus.target) (hr : Reevaluated m y u) :
    OutputSettled (monitorOut m) y u := by
  refine ⟨fun m' hm' _ => ?_, fun h => absurd htile (h m rfl), fun _ _ _ => ?_, fun h => absurd h hne, hr.changed, hr.pointer,
    hr.broadcast, fun h => absurd htile (h m rfl).1, hr.lines, ?_⟩
  · cases monitorOut_inj.mp hm'
    exact hr.focus
  · obtain ⟨hcap, -⟩ := hr.changed hne
    exact hcap
  · exact hr.rest

theorem captureSettled_formed (m : Monitor) (y : State) :
    formedTarget (captureSettled m y) (assignmentOf (captureSettled m y) m) = formedTarget y (assignmentOf y m) := by
  rw [captureSettled_eq]
  rfl

theorem outputSet_settled (o : OutputId) (y : State) : OutputSettled o y (outputSet o y) := by
  by_cases ho : ∃ m : Monitor, o = monitorOut m
  case neg =>
    have hno : ∀ m : Monitor, o ≠ monitorOut m := fun m hm => ho ⟨m, hm⟩
    rw [outputSet_lane hno]
    refine ⟨fun m hm => absurd hm (hno m), fun _ => rfl, fun m hm => absurd hm (hno m),
      fun _ => ⟨⟨rfl, rfl, rfl, rfl, rfl, rfl⟩, fun _ => ⟨rfl, rfl⟩, fun m hm => absurd hm (hno m)⟩, fun h => absurd rfl h, rfl, rfl,
      fun _ => rfl, linesFollow_same rfl fun _ => rfl, ?_⟩
    rw [toldWrite_same rfl fun _ => rfl]
  obtain ⟨m, rfl⟩ := ho
  have hfocus : (captureSettled m y).focus = y.focus := by rw [captureSettled_eq]
  have hsup : (captureSettled m y).sup = y.sup := by rw [captureSettled_eq]
  rw [outputSet_monitor]
  by_cases htile : y.focus.tile = some m
  · rw [if_pos htile]
    by_cases ht : formedTarget y (assignmentOf y m) = y.focus.target
    · refine outputSettled_kept (f := ⟨formedTarget y (assignmentOf y m), .glide, some m⟩) ht (fun _ => rfl)
        (fun h => absurd htile h) ?_
      have heq : reevaluate m (captureSettled m y) =
          noticeFocus (captureSettled m y) ((captureSettled m y).setFocus ⟨formedTarget y (assignmentOf y m), .glide, some m⟩) := by
        rw [← captureSettled_formed]
        exact if_pos ((captureSettled_formed m y).trans (ht.trans (congrArg _ hfocus.symm)))
      rw [heq, noticeFocus_eq]
      simp only [toldFocus, hfocus, State.setFocus_sup, hsup]
      rfl
    · have heq : reevaluate m (captureSettled m y) = reevaluate m y := by
        unfold captureSettled
        split
        next hp =>
          have hform := captureSettled_formed m y
          rw [captureSettled_on hp] at hform
          rw [reevaluate, reevaluate, hform, clearCapture_focus, if_neg ht, if_neg ht, focusChange_clearCapture]
        · rfl
      have hr := reevaluate_effect m y
      rw [heq]
      exact outputSettled_changed htile (by rw [hr.focus]; exact ht) hr
  · rw [if_neg htile]
    refine outputSettled_kept (f := y.focus) rfl (fun h => absurd h htile) (fun _ => rfl) ?_
    rw [show toldFocus y (captureSettled m y) y.sup = y.sup from if_pos hfocus, ← hfocus, ← hsup]

/-! ### The crosspoint -/

/-- The state that an output enters when its crosspoint is set (R109). -/
def settledState (s : State) (lockTimeout now : Nat) : Target → OutputState
  | none => .dark
  | some i => .locking (now + lockTimeout) (stableFrom now (s.input i))

theorem modOut_congr {f g : Output → Output} (h : f (s.out o) = g (s.out o)) : s.modOut o f = s.modOut o g := by
  simp only [State.modOut, upd]
  rw [show f (pick s.outputs o) = g (pick s.outputs o) from h]

theorem modOut_modOut (s : State) (o : OutputId) (f g : Output → Output) :
    (s.modOut o f).modOut o g = s.modOut o fun r => g (f r) := by
  have h : upd (upd s.outputs o f) o g = upd s.outputs o fun r => g (f r) := by
    refine vector_ext fun j => ?_
    simp only [pick_upd]
    split <;> rfl
  exact congrArg (fun outs => { s with outputs := outs }) h

/-- The output `o` has been set to a target, before its state is entered. -/
def crosspointWritten (o : OutputId) (x : Target) (z : State) : State :=
  outputSet o (z.modOut o fun r => { r with assignment := x })

theorem crosspointWritten_out (o : OutputId) (x : Target) (z : State) (j : OutputId) :
    (crosspointWritten o x z).out j = if j = o then { z.out o with assignment := x } else z.out j := by
  rw [← modOut_out_at z o j fun r => { r with assignment := x }, crosspointWritten, (outputSet_settled ..).rest]
  rfl

/-- The state entered presents black. -/
theorem setCrosspoint_eq (o : OutputId) (x : Target) (z : State) :
    let u := crosspointWritten o x z
    let r : Output := { z.out o with assignment := x, state := settledState z (z.out o).lockTimeout z.now x }
    setCrosspoint o x z =
      (u.modOut o fun _ => r).modSup (queueNotice .video (outputNotice o r false)) := by
  intro u r
  have hu : u = crosspointWritten o x z := rfl
  have hout : u.out o = { z.out o with assignment := x } := (crosspointWritten_out o x z o).trans (if_pos rfl)
  have hrest : u.now = z.now ∧ u.inputs = z.inputs := by
    rw [hu, crosspointWritten, (outputSet_settled ..).rest]
    exact ⟨rfl, rfl⟩
  have hblack (st : OutputState) (hst : st ≠ .showing) (hr : r = { u.out o with state := st }) :
      enterState o st u = (u.modOut o fun _ => r).modSup (queueNotice .video (outputNotice o r false)) := by
    have hmod : (u.modOut o fun q => { q with state := st }) = u.modOut o fun _ => r := modOut_congr hr.symm
    rw [enterState_black o st u hst, hmod, hr]
  cases x with
  | none => exact hblack .dark nofun (by rw [hout]; rfl)
  | some i =>
    have hinput : u.input i = z.input i := congrArg (pick · (Input.idx i)) hrest.2
    refine hblack (.locking (u.now + (u.out o).lockTimeout) (stableFrom u.now (u.input i))) nofun ?_
    rw [hout, hrest.1, hinput]
    rfl

theorem toldWrite_timed (s u : State) (now : Nat) (start : Option Nat) (outs : Vector Output 6) (q p : Supervisor) :
    toldWrite { s with now := now, crosspointStart := start, outputs := outs, sup := q } u p = toldWrite s u p := rfl

theorem toldWrite_entered (s u : State) (o : OutputId) (r : Output) (q : Supervisor → Supervisor) (p : Supervisor) :
    toldWrite s (handedOn ((u.modOut o fun _ => r).modSup q)) p = toldWrite s u p := rfl

theorem crosspointWritten_written (s : State) (o : OutputId) (x : Target) (now : Nat) (start : Option Nat)
    (outs : Vector Output 6) (before : Supervisor) :
    let u := crosspointWritten o x { s with now := now, crosspointStart := start, outputs := outs, sup := before }
    u = { s with
      now := now, crosspointStart := start, outputs := u.outputs, focus := u.focus, pointer := u.pointer, router := u.router
      ports := u.ports, controls := u.controls, keyboard := u.keyboard, lines := u.lines, links := u.links
      sup := toldWrite s u before } := by
  intro u
  have h := (outputSet_settled o (State.modOut { s with now := now, crosspointStart := start, outputs := outs, sup := before }
    o fun r => { r with assignment := x })).written
  rw [State.modOut, toldWrite_timed] at h
  exact h

/-- An output has entered a state, in what `u` says of the router. -/
theorem handedOn_entered {p : Supervisor} {now : Nat} {start : Option Nat} (h : u = { s with
    now := now, crosspointStart := start, outputs := u.outputs, focus := u.focus, pointer := u.pointer, router := u.router
    ports := u.ports, controls := u.controls, keyboard := u.keyboard, lines := u.lines, links := u.links, sup := p })
    (o : OutputId) (r : Output) (q : Supervisor → Supervisor) :
    let t := handedOn ((u.modOut o fun _ => r).modSup q)
    t = { s with
      now := now, crosspointStart := start, outputs := t.outputs, focus := t.focus, pointer := t.pointer, router := t.router
      ports := t.ports, controls := t.controls, keyboard := t.keyboard, lines := t.lines, links := t.links
      sup := transmitNext (q p) } :=
  congrArg (fun v : State => handedOn ((v.modOut o fun _ => r).modSup q)) h

/-! ### The start of a switch -/

theorem freeTime_le {d : Nat} : freeTime s ≤ d ↔ ∀ c, s.crosspointStart = some c → c + 2 ≤ d := by
  unfold freeTime
  cases s.crosspointStart with
  | none => simp
  | some c => simp [Config.startSpacing]

/-- A target is pending on the output, and its rest time is over (R108). -/
def restOver (s : State) (j : OutputId) (d : Nat) : Prop :=
  (s.out j).pendingSlot ≠ none ∧ ∀ v, (s.out j).lastStart = some v → v + (s.out j).restTime ≤ d

theorem restOver_iff {j : OutputId} {d : Nat} : restOver s j d ↔ ∃ a, readyTime s j = some a ∧ a ≤ d := by
  unfold restOver readyTime
  cases (s.out j).pendingSlot with
  | none => simp
  | some x =>
    cases (s.out j).lastStart with
    | none => simp
    | some v => simp

theorem eligible_iff {j : OutputId} : eligible s j = true ↔ restOver s j s.now := by
  unfold eligible restOver
  cases (s.out j).pendingSlot with
  | none => simp
  | some x =>
    cases (s.out j).lastStart with
    | none => simp
    | some v => simp

theorem crosspointFree_iff : crosspointFree s = true ↔ freeTime s ≤ s.now := by
  unfold crosspointFree freeTime
  cases s.crosspointStart with
  | none => simp
  | some c => simp

theorem startTime_none (h : ∀ o, (s.out o).pendingSlot = none) : startTime s = none := by
  have hnone : ∀ o, readyTime s o = none := fun o => by simp [readyTime, h o]
  have hnil : allOutputs.filterMap (readyTime s) = [] := List.filterMap_eq_nil_iff.mpr fun o _ => hnone o
  rw [startTime, hnil]
  rfl

/-- The earliest moment at which spacing and a rest time allow a start. -/
theorem startTime_some {now : Nat} (hnow : s.now ≤ now) (hfree : freeTime s ≤ now) (ho : restOver s o now)
    (hfirst : ∀ d, s.now ≤ d → d < now → ¬ (freeTime s ≤ d ∧ ∃ j, restOver s j d)) :
    ∃ d, startTime s = some d ∧ reach d s = s.setNow now := by
  obtain ⟨a, ha, hale⟩ := restOver_iff.mp ho
  have hmem : a ∈ allOutputs.filterMap (readyTime s) := List.mem_filterMap.mpr ⟨o, mem_allOutputs o, ha⟩
  obtain ⟨b, hb⟩ : ∃ b, (allOutputs.filterMap (readyTime s)).min? = some b :=
    Option.isSome_iff_exists.mp (List.isSome_min?_of_mem hmem)
  obtain ⟨hbmem, hbmin⟩ := List.min?_eq_some_iff.mp hb
  obtain ⟨j, -, hj⟩ := List.mem_filterMap.mp hbmem
  have hba : b ≤ a := hbmin a hmem
  have hle : max s.now (max (freeTime s) b) ≤ now := max_le hnow (max_le hfree (hba.trans hale))
  have hge : ¬ max s.now (max (freeTime s) b) < now := fun hlt =>
    hfirst _ (le_max_left ..) hlt ⟨le_max_of_le_right (le_max_left ..), j,
      restOver_iff.mpr ⟨b, hj, le_max_of_le_right (le_max_right ..)⟩⟩
  refine ⟨max (freeTime s) b, by rw [startTime, hb]; rfl, ?_⟩
  rw [reach, le_antisymm hle (Nat.not_lt.mp hge)]

/-- The first element of an ascending list that satisfies a test. -/
theorem find?_of_least {α : Type} [LinearOrder α] {p : α → Bool} {l : List α} {a : α} (hl : l.Pairwise (· < ·)) (ha : a ∈ l)
    (hp : p a = true) (h : ∀ c, c < a → p c = false) : l.find? p = some a := by
  induction l with
  | nil => cases ha
  | cons c l ih =>
    obtain ⟨hc, hl⟩ := List.pairwise_cons.mp hl
    rcases List.mem_cons.mp ha with rfl | ha
    · exact List.find?_cons_of_pos hp
    · rw [List.find?_cons_of_neg (by rw [h c (hc a ha)]; exact Bool.false_ne_true)]
      exact ih hl ha

theorem startNext_first (hfree : freeTime s ≤ s.now) (ho : restOver s o s.now) (h : ∀ j, j < o → ¬ restOver s j s.now) :
    startNext s = startSwitch o s := by
  have hfind : allOutputs.find? (eligible s) = some o :=
    find?_of_least (by decide) (mem_allOutputs o) (eligible_iff.mpr ho)
      fun j hj => Bool.eq_false_iff.mpr fun he => h j hj (eligible_iff.mp he)
  rw [startNext, nextStart, if_pos (crosspointFree_iff.mpr hfree), hfind]

/-- The state after the start has been recorded and BLANKING entered (R108). -/
def switchStarted (o : OutputId) (x : Target) (s : State) : State :=
  let r : Output := { s.out o with
    pendingSlot := none, lastStart := some s.now, state := .blanking x (s.now + (s.out o).blankLead) }
  ((s.modOut o fun _ => r).setCrosspointStart (some s.now)).modSup (queueNotice .video (outputNotice o r false))

theorem startSwitch_eq {x : Target} (hx : (s.out o).pendingSlot = some x) :
    startSwitch o s =
      if (s.out o).blankLead = 0 then setCrosspoint o x (switchStarted o x s) else switchStarted o x s := by
  let g : Output → Output := fun r => { r with pendingSlot := none, lastStart := some s.now }
  let st : OutputState := .blanking x (s.now + (s.out o).blankLead)
  have hout : ((s.modOut o g).setCrosspointStart (some s.now)).out o = g (s.out o) := State.modOut_out_same s o g
  have hmod : (s.modOut o g).modOut o (fun r => { r with state := st }) = s.modOut o fun _ => { g (s.out o) with state := st } :=
    (modOut_modOut ..).trans (modOut_congr rfl)
  have henter : enterState o st ((s.modOut o g).setCrosspointStart (some s.now)) = switchStarted o x s := by
    rw [enterState_black o st _ nofun, hout]
    exact congrArg (fun v : State => (v.setCrosspointStart (some s.now)).modSup
      (queueNotice .video (outputNotice o { g (s.out o) with state := st } false))) hmod
  have hstart : startSwitch o s =
      if (s.out o).blankLead = 0 then setCrosspoint o x (enterState o st ((s.modOut o g).setCrosspointStart (some s.now)))
      else enterState o st ((s.modOut o g).setCrosspointStart (some s.now)) := by
    simp only [startSwitch, hx]
    rfl
  rw [hstart, henter]

end Sys2Proof.Machine
end

section
/-! Switch starts and crosspoints (O43). -/

open Sys2Proof Sys2Proof.Machine

/-- Settles O43: a start and a blank end set the crosspoint alike, from the state in which the output stands in BLANKING. -/
theorem switchStartsAndSets : Obligations.SwitchStartsAndSets := by
  unfold Obligations.SwitchStartsAndSets
  intro set
  have hset (s z : State) (o : OutputId) (p : Output) (x : Target) (now : Nat) (start : Option Nat) (before : Supervisor)
      (hp : ∀ a st, ({ z.out o with assignment := a, state := st } : Output) = { p with assignment := a, state := st })
      (hlock : (z.out o).lockTimeout = p.lockTimeout) (hothers : ∀ j, j ≠ o → z.out j = s.out j)
      (hz : ∃ outs, z = { s with now := now, crosspointStart := start, outputs := outs, sup := before }) :
      set s o p x now start before (handedOn (setCrosspoint o x z)) := by
    obtain ⟨outs, rfl⟩ := hz
    have hwritten := crosspointWritten_written s o x now start outs before
    generalize hz : ({ s with now := now, crosspointStart := start, outputs := outs, sup := before } : State) = z at *
    have hu := outputSet_settled o (z.modOut o fun r => { r with assignment := x })
    have hout := crosspointWritten_out o x z
    have hassign : ∀ m : Monitor, o = monitorOut m → assignmentOf (z.modOut o fun r => { r with assignment := x }) m = x := by
      rintro m rfl
      exact congrArg Output.assignment (State.modOut_out_same ..)
    rw [setCrosspoint_eq, hp, hlock]
    rw [← show crosspointWritten o x z = outputSet o (z.modOut o fun r => { r with assignment := x }) from rfl] at hu
    generalize crosspointWritten o x z = u at *
    have htout : ∀ r q, (handedOn ((u.modOut o fun _ => r).modSup q)).out o = r := fun r q => State.modOut_out_same u o fun _ => r
    subst hz
    refine ⟨?_, ?_, fun j hj => ?_, fun m ho htile => ?_, hu.offTile, hu.capture, hu.same, hu.changed, hu.pointer, hu.broadcast,
      fun h => ?_, hu.lines, ?_⟩
    · rintro rfl
      exact htout ..
    · rintro i rfl
      exact htout ..
    · refine (State.modOut_out_ne u o j _ hj).trans ((hout j).trans ((if_neg hj).trans (hothers j hj)))
    · refine (hu.onTile m ho htile).trans ?_
      rw [hassign m ho]
      rfl
    · rw [htout]
      rw [hu.away h]
      rfl
    · rw [htout]
      rw [toldWrite_entered]
      exact handedOn_entered hwritten o _ _
  refine ⟨fun s h => ?_, ?_, fun s o => ⟨fun h => ?_, fun x e he => ?_⟩⟩
  · exact congrArg done (by rw [startTime_none h])
  · intro s now o x free ready hnow hfree hfirst hx hready hleast started
    have hle : ∀ {d}, freeTime s ≤ d ↔ free d := freeTime_le
    obtain ⟨d, hd, hreach⟩ := startTime_some hnow (hle.mpr hfree) hready
      fun d hd hlt ⟨hf, hr⟩ => hfirst d hd hlt ⟨hle.mp hf, hr⟩
    have hexec : exec .switchStart s = .next (handedOn (startSwitch o (s.setNow now))) := by
      refine congrArg done ?_
      rw [hd]
      show startNext (reach d s) = _
      rw [hreach]
      exact startNext_first (s := s.setNow now) (hle.mpr hfree) hready hleast
    have hstart : startSwitch o (s.setNow now) = if (s.out o).blankLead = 0 then
        setCrosspoint o x (switchStarted o x (s.setNow now)) else switchStarted o x (s.setNow now) := startSwitch_eq hx
    have hout : ∀ j, (switchStarted o x (s.setNow now)).out j =
        if j = o then { started with state := .blanking x (now + (s.out o).blankLead) } else s.out j :=
      fun j => modOut_out_at s o j fun _ => _
    have hothers : ∀ j, j ≠ o → (switchStarted o x (s.setNow now)).out j = s.out j := fun j hj => (hout j).trans (if_neg hj)
    have hself := (hout o).trans (if_pos rfl)
    refine ⟨fun hlead => ?_, fun hlead => ?_⟩
    · rw [hstart, if_neg (Nat.ne_of_gt hlead)] at hexec
      refine ⟨_, hexec, hself, hothers, ?_⟩
      rw [show (handedOn (switchStarted o x (s.setNow now))).out o = _ from hself]
      rfl
    · rw [hstart, if_pos hlead] at hexec
      have hend : now + (s.out o).blankLead = now := by rw [hlead, Nat.add_zero]
      refine ⟨_, hexec, hset s _ o started x now (some now) _ (fun a st => by rw [hself]) (by rw [hself]) hothers
        ⟨(switchStarted o x (s.setNow now)).outputs, ?_⟩⟩
      rw [switchStarted, show (s.setNow now).now + ((s.setNow now).out o).blankLead = now from hend]
      rfl
  · refine congrArg done ?_
    split
    next x e he => exact absurd he (h x e)
    · rfl
  · refine ⟨_, ?_, hset s (reach e s) o (s.out o) x (max s.now e) s.crosspointStart s.sup (fun _ _ => rfl) rfl (fun _ _ => rfl)
      ⟨_, rfl⟩⟩
    refine congrArg done ?_
    rw [he]

end

section
/-! SUPPORT. The records of the control lock table: what a KEYS and a POINTER frame leave in a computer's port (R37, R162, R163). -/

namespace Sys2Proof.Machine

open Sys2Proof

variable {s v x y : State} {n : Comp} {k : LinkId} {h : Head} {f : PointerFrame} {r : PointerRecord} {ks : KeyState}

/-! ### A record of the lock table at a port -/

/-- A key-state record of the table, queued at the port of Cn or not: no control record changes (R151). -/
structure TableKeyed (n : Comp) (r : KeyRecord) (queued : Bool) (x v : State) : Prop where
  port : v.port n = if queued then pushKey r (x.port n) else x.port n
  ports : ∀ m, m ≠ n → v.port m = x.port m
  controls : v.controls = x.controls
  last : v.lastKey n = if queued then some r else x.lastKey n
  lasts : ∀ m, m ≠ n → v.lastKey m = x.lastKey m
  rest : v = { x with
    ports := v.ports, router := { x.router with lastKey := v.router.lastKey }
    sup := if queued then toldKey n (x.port n) x.sup else x.sup }

theorem deliverKeys_tabled (n : Comp) (ks : KeyState) (x : State) :
    TableKeyed n (shapeKeys (x.port n).keyFormat ks) (keysPass n ks x) x (deliverKeys .table n ks x) := by
  have heff := fun m => deliverKeys_effect .table n m ks x
  have hsup := deliverKeys_sup .table n ks x
  have hdel := deliverKeys_delivers .table n ks x
  have hkept := deliverKeys_routerKept .table n ks x
  generalize deliverKeys .table n ks x = v at *
  dsimp only at heff
  have hcontrol : ∀ m, v.control m = x.control m := fun m => by
    by_cases hm : m = n ∧ keysPass n ks x = true
    · exact ((heff m).1 hm).2.2
    · exact ((heff m).2.1 hm).2.2
  have hcontrols : v.controls = x.controls := vector_ext hcontrol
  have hother := fun m (hm : m ≠ n) => (heff m).2.1 fun h => hm h.1
  have hptr : v.router.lastPointer = x.router.lastPointer := vector_ext fun m => (heff m).2.2
  refine ⟨?_, fun m hm => (hother m hm).1, hcontrols, ?_, fun m hm => (hother m hm).2.1, ?_⟩
  · split
    next hq => exact ((heff n).1 ⟨rfl, hq⟩).1
    next hq => exact ((heff n).2.1 fun h => hq h.2).1
  · split
    next hq => exact ((heff n).1 ⟨rfl, hq⟩).2.1
    next hq => exact ((heff n).2.1 fun h => hq h.2).2.1
  · have hrouter : v.router = { x.router with lastKey := v.router.lastKey } := by
      unfold routerKept at hkept
      rw [hptr] at hkept
      exact hkept
    unfold Delivers at hdel
    rw [hsup, hcontrols] at hdel
    rw [← hrouter]
    exact hdel

/-- A pointer record of the table for the port of Cn, which takes it when it is not DETACHED (R61, R151). -/
structure TablePointed (n : Comp) (r : PointerRecord) (x v : State) : Prop where
  port : v.port n = if (x.port n).bus != .detached then pushPointer r (x.port n) else x.port n
  ports : ∀ m, m ≠ n → v.port m = x.port m
  controls : v.controls = x.controls
  last : v.lastPointer n = if (x.port n).bus != .detached then some r else x.lastPointer n
  lasts : ∀ m, m ≠ n → v.lastPointer m = x.lastPointer m
  rest : v = { x with
    ports := v.ports, router := { x.router with lastPointer := v.router.lastPointer }
    sup := if (x.port n).bus != .detached then toldPointer n r (x.port n) x.sup else x.sup }

theorem deliverPointer_tabled (n : Comp) (r : PointerRecord) (x : State) :
    TablePointed n r x (deliverPointer .table n r x) := by
  have heff := fun m => deliverPointer_effect .table n m r x
  have hsup := deliverPointer_sup .table n r x
  have hdel := deliverPointer_delivers .table n r x
  have hkept := deliverPointer_routerKept .table n r x
  generalize deliverPointer .table n r x = v at *
  dsimp only at heff
  have hcontrol : ∀ m, v.control m = x.control m := fun m => by
    by_cases hm : m = n ∧ (x.port n).bus ≠ .detached
    · exact ((heff m).1 hm).2.2
    · exact ((heff m).2.1 hm).2.2
  have hcontrols : v.controls = x.controls := vector_ext hcontrol
  have hother := fun m (hm : m ≠ n) => (heff m).2.1 fun h => hm h.1
  have hkey : v.router.lastKey = x.router.lastKey := vector_ext fun m => (heff m).2.2
  refine ⟨?_, fun m hm => (hother m hm).1, hcontrols, ?_, fun m hm => (hother m hm).2.1, ?_⟩
  · split
    next hb => exact ((heff n).1 ⟨rfl, bne_iff_ne.mp hb⟩).1
    next hb => exact ((heff n).2.1 fun h => hb (bne_iff_ne.mpr h.2)).1
  · split
    next hb => exact ((heff n).1 ⟨rfl, bne_iff_ne.mp hb⟩).2.1
    next hb => exact ((heff n).2.1 fun h => hb (bne_iff_ne.mpr h.2)).2.1
  · have hrouter : v.router = { x.router with lastPointer := v.router.lastPointer } := by
      unfold routerKept at hkept
      rw [hkey] at hkept
      exact hkept
    have hsup' : v.sup = if (x.port n).bus != .detached then toldPointer n r (x.port n) x.sup else x.sup := by
      rw [hsup]
      by_cases hb : (x.port n).bus = .detached <;> simp [hb]
    unfold Delivers at hdel
    rw [hsup', hcontrols] at hdel
    rw [← hrouter]
    exact hdel

/-! ### The frames of a link that holds the computer -/

theorem drivenHead_holder {b : Bool} (ho : (s.link k).outbound = .active h b) (hh : (s.control h.comp).holder = .link k) :
    drivenHead s k = some h := by
  simp only [drivenHead, ho, Outbound.activeHead, hh, if_true]

theorem drivenHead_none (h : ∀ h v, (s.link k).outbound = .active h v → (s.control h.comp).holder ≠ .link k) :
    drivenHead s k = none := by
  unfold drivenHead
  cases ho : (s.link k).outbound with
  | active g v => simp only [Outbound.activeHead, if_neg (h g v ho)]
  | _ => rfl

theorem takeKeys_driven (hd : drivenHead s k = some h) :
    takeKeys k ks s = woken h.comp (pressesKey ks (s.control h.comp).remoteKeys)
      (deliverKeys .table h.comp ks (s.modControl h.comp fun c => { c with remoteKeys := ks })) := by
  simp only [takeKeys, hd, wakeIfSuspended_eq]

theorem takePointer_driven (hd : drivenHead s k = some h) :
    takePointer k f s =
      woken h.comp (PointerFrame.buttons f &&& ~~~(s.control h.comp).remoteButtons != 0)
        (deliverRemote h f (s.modControl h.comp fun c => { c with remoteButtons := PointerFrame.buttons f })) := by
  simp only [takePointer, hd, wakeIfSuspended_eq]

theorem drivenHead_heard (h : ∀ h v, (s.link k).outbound = .active h v → (s.control h.comp).holder ≠ .link k) :
    drivenHead (heard k s) k = none :=
  drivenHead_none fun g v hg => h g v (by rw [heard_link_same] at hg; exact hg)

theorem drivenHead_heard_holder {b : Bool} (ho : (s.link k).outbound = .active h b) (hh : (s.control h.comp).holder = .link k) :
    drivenHead (heard k s) k = some h :=
  drivenHead_holder (b := b) (by rw [heard_link_same]; exact ho) hh

/-! ### A POINTER frame shaped to the computer (R37) -/

section
variable {b : Buttons} {px py : Nat} {dx dy w : Int}

theorem deliverRemote_mapped (hm : effMode x h.comp = .absolute) :
    deliverRemote h (.absolute b px py w) x =
      deliverMapped .table h (min px ((effSize x h).1 - 1)) (min py ((effSize x h).2 - 1)) b w x := by
  simp only [deliverRemote, hm]

theorem deliverRemote_stopped (hm : effMode x h.comp = .relative) :
    deliverRemote h (.absolute b px py w) x = deliverPointer .table h.comp (.relative b 0 0 w) x := by
  simp only [deliverRemote, hm]

theorem deliverRemote_raw (hm : effMode x h.comp = .relative) :
    deliverRemote h (.relative b dx dy w) x = deliverPointer .table h.comp (.relative b dx dy w) x := by
  simp only [deliverRemote, hm]

/-- The position of a relative frame at an ABSOLUTE computer: that of its last absolute record, or the centre. -/
theorem deliverRemote_resting (hm : effMode x h.comp = .absolute) :
    deliverRemote h (.relative b dx dy w) x = deliverPointer .table h.comp
      (match x.lastPointer h.comp with
        | some (.absolute _ px py _) => .absolute b px py w
        | _ => .absolute b 16383 16383 w) x := by
  simp only [deliverRemote, hm]
  cases x.lastPointer h.comp with
  | none => rfl
  | some r => cases r <;> rfl

end

/-- The no-change rule of R52 with the bus of the port. -/
theorem keysPass_eq (n : Comp) (ks : KeyState) (s : State) :
    keysPass n ks s = ((s.port n).bus != .detached &&
      match s.lastKey n with
      | some q => !(q.mods == (shapeKeys (s.port n).keyFormat ks).mods && q.keys == (shapeKeys (s.port n).keyFormat ks).keys)
      | none => !((shapeKeys (s.port n).keyFormat ks).mods == 0 && (shapeKeys (s.port n).keyFormat ks).keys == [])) := by
  unfold keysPass sameRecord BusState.present
  rw [Bool.not_or, Bool.not_not, Bool.and_comm]
  cases s.lastKey n with
  | some q => rfl
  | none => cases (shapeKeys (s.port n).keyFormat ks).keys <;> rfl

theorem shapeKeys_eq (d : Format) (ks : KeyState) :
    shapeKeys d ks =
      if d = .full then ⟨.full, ks.mods, ks.keys⟩
      else if ks.keys.length ≤ 6 then ⟨.boot, ks.mods, ks.keys⟩
      else ⟨.rollover, ks.mods, [1, 1, 1, 1, 1, 1]⟩ := by
  cases d <;> rfl

end Sys2Proof.Machine
end

section
/-! Remote input (O56). -/

open Sys2Proof Sys2Proof.Machine

/-- Settles O56: a whole frame is counted and handed to the lock table, whose record reaches the port of the head's computer. -/
theorem remoteInputDrivesItsComputer : Obligations.RemoteInputDrivesItsComputer := by
  intro k s
  refine ⟨fun c hc => ?_, fun he hu => ?_⟩
  · obtain ⟨t, ht, hk, hj, hrest⟩ := done_modLink (s := s) (k := k) { s.link k with
      receiver := [], counters := { (s.link k).counters with
        malformed := min ((s.link k).counters.malformed + 1) 4294967295 } }
    refine ⟨t, ?_, hk, hj, hrest⟩
    rcases hc with ⟨ks, rfl, hm⟩ | ⟨f, rfl, hm⟩
    · exact (congrArg done (wholeFrame_malformed (m := .keys ks) hm)).trans ht
    · exact (congrArg done (wholeFrame_malformed (m := .pointer f) hm)).trans ht
  intro l lost
  refine ⟨fun c hc hno => ?_, fun h v ho hh => ?_⟩
  · obtain ⟨t, ht, hk, hj, hrest⟩ := done_modLink (s := s) (k := k) lost
    refine ⟨t, ?_, hk, hj, hrest⟩
    have hkeys (ks : KeyState) : takeKeys k ks (heard k s) = s.modLink k fun _ => lost := by
      simp only [takeKeys, drivenHead_heard hno]
      exact discardFrame_heard
    have hpointer (f : PointerFrame) : takePointer k f (heard k s) = s.modLink k fun _ => lost := by
      simp only [takePointer, drivenHead_heard hno]
      exact discardFrame_heard
    rcases hc with ⟨ks, rfl, hm⟩ | ⟨f, rfl, hm⟩
    · exact (congrArg done ((wholeFrame_heard (m := .keys ks) hm he hu).trans (hkeys ks))).trans ht
    · exact (congrArg done ((wholeFrame_heard (m := .pointer f) hm he hu).trans (hpointer f))).trans ht
  intro n there others points
  have hdrive := drivenHead_heard_holder ho hh
  have hothers (g : Control → Control) (p : Port) (w : State) (hc : w.controls = ((heard k s).modControl n g).controls)
      (hl : w.links = (heard k s).links) (hp : w.port n = p) (hps : ∀ m, m ≠ n → w.port m = s.port m) :
      others (g (s.control n)) p w := by
    have hcontrol : ∀ m, w.control m = ((heard k s).modControl n g).control m := fun m => congrArg (pick · m) hc
    have hlink : ∀ j, w.link j = (heard k s).link j := fun j => congrArg (pick · j) hl
    refine ⟨?_, fun m hm => ?_, hp, hps, (hlink k).trans (heard_link_same k s), fun j hj => (hlink j).trans (heard_link_ne hj)⟩
    · exact (hcontrol n).trans (State.modControl_control_same ..)
    · exact (hcontrol m).trans (State.modControl_control_ne _ _ _ _ hm)
  have hpoints (f : PointerFrame) (hf : PointerFrame.sendable f = true) (r : PointerRecord) (p : Port) (y : State)
      (hdel : deliverRemote h f ((heard k s).modControl n fun c => { c with remoteButtons := PointerFrame.buttons f }) =
        deliverPointer .table n r y)
      (hy : y = { (heard k s).modControl n (fun c => { c with remoteButtons := PointerFrame.buttons f }) with ports := y.ports })
      (hp : y.port n = p) (hps : ∀ m, m ≠ n → y.port m = s.port m) (hbus : p.bus = (s.port n).bus)
      (htold : toldPointer n r p s.sup = toldPointer n r (s.port n) s.sup) : points f (PointerFrame.buttons f) r p := by
    have hw := deliverPointer_tabled n r y
    have hexec : exec (.pointer k f) s = .next (handedOn
        (woken n (PointerFrame.buttons f &&& ~~~(s.control n).remoteButtons != 0) (deliverPointer .table n r y))) := by
      rw [← hdel]
      exact congrArg done ((wholeFrame_heard (m := .pointer f) hf he hu).trans (takePointer_driven hdrive))
    generalize deliverPointer .table n r y = w at *
    have hthere : ((y.port n).bus != .detached) = there := by rw [hp, hbus]
    obtain ⟨wport, wports, wcontrols, wlast, wlasts, wrest⟩ := hw
    rw [hthere] at wport wlast wrest
    have hlasts : ∀ m, y.lastPointer m = s.lastPointer m := fun m => by rw [hy]; rfl
    refine ⟨w, hexec, hothers (fun c => { c with remoteButtons := PointerFrame.buttons f }) _ w ?_ ?_ ?_ ?_, ?_, fun m hm => ?_, ?_⟩
    · rw [wcontrols, hy]
    · rw [wrest, hy]
      rfl
    · rw [wport, hp]
    · exact fun m hm => (wports m hm).trans (hps m hm)
    · rw [wlast, hlasts]
    · rw [wlasts m hm, hlasts]
    · have hsup : (if there = true then toldPointer n r (y.port n) y.sup else y.sup) =
          if there = true then toldPointer n r (s.port n) s.sup else s.sup := by
        rw [hp, show y.sup = s.sup by rw [hy]; rfl, htold]
      rw [hsup, hy] at wrest
      exact wrest.trans (by rw [wrest]; rfl)
  refine ⟨?_, ?_, ?_⟩
  · intro ks hks r old queued
    have hr : shapeKeys (s.port n).keyFormat ks = r := shapeKeys_eq ..
    have hq : keysPass n ks s = queued := by
      have hpass := keysPass_eq n ks s
      rw [hr] at hpass
      exact hpass
    have hw := deliverKeys_tabled n ks ((heard k s).modControl n fun c => { c with remoteKeys := ks })
    have hexec : exec (.keys k ks) s = .next (handedOn (woken n (pressesKey ks old)
        (deliverKeys .table n ks ((heard k s).modControl n fun c => { c with remoteKeys := ks })))) :=
      congrArg done ((wholeFrame_heard (m := .keys ks) hks he hu).trans (takeKeys_driven hdrive))
    generalize deliverKeys .table n ks _ = w at *
    obtain ⟨wport, wports, wcontrols, wlast, wlasts, wrest⟩ : TableKeyed n r queued _ w := by
      rw [← hr, ← hq]
      exact hw
    exact ⟨w, hexec, hothers (fun c => { c with remoteKeys := ks }) _ w wcontrols (by rw [wrest]; rfl) wport wports, wlast, wlasts,
      wrest.trans (by rw [wrest]; rfl)⟩
  · intro b x y w hf gx gy c clamped
    let base := (heard k s).modControl n fun c => { c with remoteButtons := b }
    refine ⟨fun hm => ?_, fun hm => ?_⟩
    · obtain ⟨hport, hports, hrest⟩ :=
        countClamps_counted h (min x ((effSize s h).1 - 1)) (min y ((effSize s h).2 - 1)) base
      refine hpoints (.absolute b x y w) hf _ _ (countClamps n (mapClamps base h _ _) base) ?_ hrest hport hports rfl rfl
      exact deliverRemote_mapped (x := base) hm
    · refine hpoints (.absolute b x y w) hf _ _ base ?_ rfl rfl (fun _ _ => rfl) rfl rfl
      exact deliverRemote_stopped (x := base) hm
  · intro b x y w hf
    let base := (heard k s).modControl n fun c => { c with remoteButtons := b }
    refine ⟨fun hm => ?_, fun hm => ?_⟩
    · refine hpoints (.relative b x y w) hf _ _ base ?_ rfl rfl (fun _ _ => rfl) rfl rfl
      exact deliverRemote_raw (x := base) hm
    · refine hpoints (.relative b x y w) hf _ _ base ?_ rfl rfl (fun _ _ => rfl) rfl rfl
      exact deliverRemote_resting (x := base) hm

end

section
/-!
SUPPORT. The return of control to the desk, with the grant that may follow it, as one change of holder (R152, R153, R155).
-/

namespace Sys2Proof.Machine

open Sys2Proof

variable {s s' x u u' base base' : State} {n m : Comp} {k j : LinkId} {c : HolderCause}

/-! ### What a change of holder reads -/

/-- Two states alike in all that a change of the holder of Cn reads, but for Cn's own control record. -/
structure AlikeBut (n : Comp) (s s' : State) : Prop where
  now : s'.now = s.now
  ports : s'.ports = s.ports
  router : s'.router = s.router
  keyboard : s'.keyboard = s.keyboard
  controls : ∀ m, m ≠ n → s'.control m = s.control m
  recipients : ∀ m, isRecipient s' m = isRecipient s m

theorem AlikeBut.refl (n : Comp) (s : State) : AlikeBut n s s := ⟨rfl, rfl, rfl, rfl, fun _ _ => rfl, fun _ => rfl⟩

theorem AlikeBut.modControl {g : Control → Control} (hg : (g (s.control n)).holder = (s.control n).holder) :
    AlikeBut n s (s.modControl n g) := by
  refine ⟨rfl, rfl, rfl, rfl, fun m hm => State.modControl_control_ne _ _ _ _ hm,
    isRecipient_congr rfl rfl rfl rfl (fun _ => rfl) fun m => ?_⟩
  by_cases hm : m = n
  · rw [hm, State.modControl_control_same, hg]
  · rw [State.modControl_control_ne _ _ _ _ hm]

theorem releasedPort_alike (hp : s'.ports = s.ports) (hr : s'.router = s.router) (m : Comp) (p : Port) :
    emptyRecordDue s' m = emptyRecordDue s m ∧ noButtonsDue s' m = noButtonsDue s m ∧ releasedPort s' m p = releasedPort s m p := by
  have hport : s'.port m = s.port m := congrArg (pick · m) hp
  have h1 : emptyRecordDue s' m = emptyRecordDue s m :=
    emptyRecordDue_congr (by rw [hport]) (by rw [hport]) (State.lastKey_congr hr m)
  have h2 : noButtonsDue s' m = noButtonsDue s m := noButtonsDue_congr (by rw [hport]) (State.lastPointer_congr hr m)
  exact ⟨h1, h2, by rw [releasedPort, releasedPort, h1, h2]⟩

theorem computerLetGo_alike {gone : Bool} {p : Port} (hsp : s'.ports = s.ports) (hsr : s'.router = s.router)
    (hup : u'.ports = u.ports) (hur : u'.router = u.router) (h : computerLetGo gone s u p m) : computerLetGo gone s' u' p m := by
  obtain ⟨h1, h2, h3⟩ := releasedPort_alike hsp hsr m p
  have hport : u'.port m = u.port m := congrArg (pick · m) hup
  unfold computerLetGo at h ⊢
  rwa [h1, h2, h3, hport, State.lastKey_congr hsr, State.lastPointer_congr hsr, State.lastKey_congr hur, State.lastPointer_congr hur]

theorem releaseTouches_alike {gone : Bool} (hs : AlikeBut n s s') (hu : AlikeBut n u u') (hm : m ≠ n)
    (h : releaseTouches gone s u m) : releaseTouches gone s' u' m := by
  obtain ⟨h1, h2, -⟩ := releasedPort_alike hs.ports hs.router m (s.port m)
  unfold releaseTouches at h ⊢
  rwa [h1, h2, hs.controls m hm, hu.controls m hm, hu.now]

theorem holderChanged.alike (h : holderChanged n base s u) (hb : ∀ m, isRecipient base' m = isRecipient base m)
    (hs : AlikeBut n s s') (hu : AlikeBut n u u') : holderChanged n base' s' u' := by
  obtain ⟨hport, hkey, hptr, hothers, hmasked, hmask, hbc, hlk, hlp⟩ := h
  obtain ⟨h1, h2, h3⟩ := releasedPort_alike hs.ports hs.router n (s.port n)
  have hsport : ∀ m, s'.port m = s.port m := fun m => congrArg (pick · m) hs.ports
  have huport : u'.port n = u.port n := congrArg (pick · n) hu.ports
  refine ⟨?_, ?_, ?_, fun m hm => ?_, fun hj => ?_, fun hk => ?_, ?_, ?_, ?_⟩
  · rw [huport, hport, hsport, h3]
  · rw [State.lastKey_congr hu.router, hkey, h1, State.lastKey_congr hs.router]
  · rw [State.lastPointer_congr hu.router, hptr, h2, State.lastPointer_congr hs.router]
  · obtain ⟨hgo, htouch⟩ := hothers m hm
    rw [hb, hu.recipients, hsport]
    exact ⟨computerLetGo_alike hs.ports hs.router hu.ports hu.router hgo, releaseTouches_alike hs hu hm htouch⟩
  · simp only [hb, hs.recipients] at hj
    have hheld := hmasked hj
    unfold heldMasked at hheld ⊢
    rwa [hu.router, hs.router, hs.keyboard]
  · simp only [hb, hs.recipients] at hk
    rw [hu.router, hs.router]
    exact hmask hk
  · rw [hu.router, hs.router, hbc]
  · rw [hu.router, hs.router, hlk]
  · rw [hu.router, hs.router, hlp]

/-! ### A grant after a return -/

/-- Nothing of a computer that is not the one concerned, and is a recipient afterwards if before, has changed. -/
theorem computerLetGo.kept {gone : Bool} {p : Port} (hg : gone = false) (h : computerLetGo gone s u p m) :
    u.port m = p ∧ u.lastKey m = s.lastKey m ∧ u.lastPointer m = s.lastPointer m := by
  subst hg
  exact h

theorem releaseTouches.kept {gone : Bool} (hg : gone = false) (h : releaseTouches gone s u m) : u.control m = s.control m := by
  subst hg
  exact h.trans (if_neg fun hp => by cases hp.1)

/-- The return of Cn to the desk (`x`), and then a grant (`u`), are one change of holder. -/
theorem holderChanged.then_grant (h : holderChanged n x s x) (hg : holderChanged n x x u) : holderChanged n x s u := by
  obtain ⟨hport, hkey, hptr, hothers, hmasked, hmask, hbc, hlk, hlp⟩ := h
  obtain ⟨gport, gkey, gptr, gothers, -, gmask, gbc, glk, glp⟩ := hg
  have hbus : (x.port n).bus = (s.port n).bus ∧ (x.port n).keyFormat = (s.port n).keyFormat := by
    rw [hport]
    simp only [carryCleared, releasedPort]
    cases emptyRecordDue s n <;> cases noButtonsDue s n <;> simp
  obtain ⟨hdue1, hdue2⟩ := released_nothing_due hbus.1 hbus.2 hkey hptr
  have hmasks : u.router.mask = x.router.mask := gmask fun _ hm => hm
  refine ⟨?_, ?_, ?_, fun m hm => ?_, fun hj => ?_, fun hk => ?_, gbc.trans hbc, glk.trans hlk, glp.trans hlp⟩
  · rw [gport, releasedPort, hdue1, hdue2, hport]
    rfl
  · rw [gkey, hdue1, hkey]
    rfl
  · rw [gptr, hdue2, hptr]
    rfl
  · obtain ⟨hgo, htouch⟩ := hothers m hm
    obtain ⟨ggo, gtouch⟩ := gothers m hm
    obtain ⟨kport, kkey, kptr⟩ := hgo.kept (by cases isRecipient x m <;> rfl)
    have kctl := htouch.kept (by cases isRecipient x m <;> rfl)
    have e1 : emptyRecordDue x m = emptyRecordDue s m := emptyRecordDue_congr (by rw [kport]) (by rw [kport]) kkey
    have e2 : noButtonsDue x m = noButtonsDue s m := noButtonsDue_congr (by rw [kport]) kptr
    unfold computerLetGo releasedPort at ggo
    unfold releaseTouches at gtouch
    rw [e1, e2, kport, kkey, kptr] at ggo
    rw [e1, e2, kctl] at gtouch
    exact ⟨ggo, gtouch⟩
  · have hheld := hmasked hj
    unfold heldMasked at hheld ⊢
    rwa [hmasks]
  · rw [hmasks]
    exact hmask hk

/-- The recipients after the return are those of the state with the desk as holder. -/
theorem returned_recipients (hc : (x.control n).holder = .desk) (h : holderChanged n x s x)
    (hx : x = { s with controls := x.controls, ports := x.ports, router := x.router, sup := x.sup }) (m : Comp) :
    isRecipient (s.modControl n fun c => { c with holder := .desk }) m = isRecipient x m := by
  obtain ⟨hport, -, -, hothers, -, -, hbc, -, -⟩ := h
  have hfocus : x.focus = s.focus ∧ x.blank = s.blank ∧ x.comps = s.comps := by
    rw [hx]
    exact ⟨rfl, rfl, rfl⟩
  refine isRecipient_congr (t := s.modControl n fun c => { c with holder := .desk }) hfocus.1.symm hfocus.2.1.symm
    hfocus.2.2.symm hbc.symm (fun m => ?_) (fun m => ?_) m
  · by_cases hm : m = n
    · rw [hm, hport]
      simp only [carryCleared, releasedPort]
      cases emptyRecordDue s n <;> cases noButtonsDue s n <;> simp
    · rw [((hothers m hm).1.kept (by cases isRecipient x m <;> rfl)).1]
      rfl
  · by_cases hm : m = n
    · rw [hm, State.modControl_control_same, hc]
    · rw [State.modControl_control_ne _ _ _ _ hm, ((hothers m hm).2.kept (by cases isRecipient x m <;> rfl))]

/-! ### The return as a whole -/

theorem grants_iff {p : SharePolicy} : SharePolicy.grants p = true ↔ p = .ask ∨ p = .auto := by
  cases p <;> simp [SharePolicy.grants]

/-- A claim whose approval is dropped (R153, R159). -/
def Claim.unapproved (d : Claim) : Claim := { d with approved := false }

/-- The link that holds Cn after a return to the desk, if a claim is granted at once (R153, R155). -/
def grantedNext (n : Comp) (s : State) : Option LinkId :=
  match (s.control n).claims.find? Claim.approved with
  | some c => if (s.comp n).policy = .ask ∨ (s.comp n).policy = .auto then some c.link else none
  | none =>
    if (s.comp n).policy = .auto ∧
        (match (s.control n).lastDesk with
          | some d => decide ((s.comp n).quietTime ≤ s.now - d)
          | none => true) = true then
      (s.control n).claims.head?.map Claim.link
    else none

/-- What a return of Cn from DLk to the desk leaves, with the grant to `next` that may follow it (R153). -/
structure ReturnTaken (n : Comp) (next : Option LinkId) (s u : State) : Prop where
  kept : next = none → (u.control n).holder = .desk ∧ (u.control n).claims = (s.control n).claims.map Claim.unapproved
  granted : ∀ j, next = some j → (u.control n).holder = .link j ∧
    (u.control n).claims = (s.control n).claims.filter fun d => d.link != j
  remoteKeys : (u.control n).remoteKeys = ⟨0, []⟩
  remoteButtons : (u.control n).remoteButtons = 0
  lastDesk : (u.control n).lastDesk = (s.control n).lastDesk
  input : holderChanged n (s.modControl n fun c => { c with holder := .desk }) s u
  link : ∀ j, u.link j = if next = some j then enqueueFrame .grant (s.link j) else s.link j
  rest : u = { s with
    pointer := { s.pointer with capture := s.pointer.capture && !(next.isSome && s.focus.target == .loc n) }
    controls := u.controls, ports := u.ports, router := u.router, links := u.links, sup := u.sup }

/-- The holder is the desk and the input as it has to be, before a claim is granted. -/
structure ReturnBegun (n : Comp) (s x : State) : Prop where
  control : x.control n = { s.control n with holder := .desk, remoteKeys := ⟨0, []⟩, remoteButtons := 0 }
  input : holderChanged n x s x
  rest : x = { s with controls := x.controls, ports := x.ports, router := x.router, sup := x.sup }

theorem ReturnBegun.granted (h : ReturnBegun n s x) {c : HolderCause} (hg : grantMade n j c x u) :
    ReturnTaken n (some j) s u := by
  obtain ⟨hctl, hin, hrest⟩ := h
  obtain ⟨gctl, gin, glink, glinks, grest⟩ := hg
  have hlinks : ∀ i, x.link i = s.link i := fun i => by rw [hrest]; rfl
  refine ⟨nofun, fun i hi => ?_, by rw [gctl], by rw [gctl], by rw [gctl, hctl], ?_, fun i => ?_, ?_⟩
  · cases hi
    rw [gctl, hctl]
    exact ⟨rfl, rfl⟩
  · exact (hin.then_grant gin).alike (returned_recipients (by rw [hctl]) hin hrest) (.refl n s) (.refl n u)
  · by_cases hi : i = j
    · rw [hi, if_pos rfl, glink, hlinks]
    · rw [if_neg fun h => hi (Option.some.inj h).symm, glinks i hi, hlinks]
  · have hsup := congrArg State.sup grest
    dsimp only at hsup
    rw [← hsup, hrest] at grest
    exact grest

theorem ReturnBegun.kept (h : ReturnBegun n s x) (hu : u.control n = { x.control n with
      claims := (x.control n).claims.map Claim.unapproved })
    (halike : AlikeBut n x u) (hrest : u = { x with controls := u.controls }) : ReturnTaken n none s u := by
  obtain ⟨hctl, hin, hx⟩ := h
  refine ⟨fun _ => ?_, nofun, by rw [hu, hctl], by rw [hu, hctl], by rw [hu, hctl], ?_, fun i => ?_, ?_⟩
  · rw [hu, hctl]
    exact ⟨rfl, rfl⟩
  · exact hin.alike (returned_recipients (by rw [hctl]) hin hx) (.refl n s) halike
  · rw [hrest, hx]
    rfl
  · have hptr : s.pointer = { s.pointer with capture := s.pointer.capture && !((none : Option LinkId).isSome &&
        s.focus.target == .loc n) } := by rw [Option.isSome_none, Bool.false_and, Bool.not_false, Bool.and_true]
    rw [← hptr, hrest, hx]

theorem claims_unapproved_self {cs : List Claim} (h : cs.find? Claim.approved = none) : cs.map Claim.unapproved = cs := by
  conv_rhs => rw [← List.map_id cs]
  refine List.map_congr_left fun d hd => ?_
  have ha : d.approved = false := by simpa using List.find?_eq_none.mp h d hd
  rw [Claim.unapproved, ← ha]
  rfl

theorem controlReturned.taken (h : controlReturned n k c s u) : ReturnTaken n (grantedNext n s) s u := by
  obtain ⟨x, hctl, hin, hrest, hstep⟩ := h
  have hbegun : ReturnBegun n s x := ⟨hctl, hin, by rw [hrest]⟩
  have hquiet : (∀ d, (s.control n).lastDesk = some d → (s.comp n).quietTime ≤ s.now - d) ↔
      (match (s.control n).lastDesk with
        | some d => decide ((s.comp n).quietTime ≤ s.now - d)
        | none => true) = true := by
    cases (s.control n).lastDesk <;> simp
  unfold grantedNext
  cases hf : (s.control n).claims.find? Claim.approved with
  | some d =>
    simp only [hf] at hstep ⊢
    split at hstep
    next hp => rw [if_pos hp]; exact hbegun.granted hstep
    next hp =>
      rw [if_neg hp]
      subst hstep
      exact hbegun.kept (State.modControl_control_same ..) (.modControl rfl) rfl
  | none =>
    have hstays (hu : u = x) : ReturnTaken n none s u := by
      subst hu
      refine hbegun.kept ?_ (.refl n u) rfl
      rw [hctl, claims_unapproved_self hf]
    simp only [hf] at hstep ⊢
    by_cases hp : (s.comp n).policy = .auto ∧ ∀ d, (s.control n).lastDesk = some d → (s.comp n).quietTime ≤ s.now - d
    · rw [if_pos hp] at hstep
      rw [if_pos ⟨hp.1, hquiet.mp hp.2⟩]
      cases hcl : (s.control n).claims with
      | nil =>
        rw [hcl] at hstep
        exact hstays hstep
      | cons d cs =>
        rw [hcl] at hstep
        exact hbegun.granted hstep
    · rw [if_neg hp] at hstep
      rw [if_neg fun h => hp ⟨h.1, hquiet.mpr h.2⟩]
      exact hstays hstep

end Sys2Proof.Machine
end

section
/-! SUPPORT. CLAIM and RELEASE at the owner (R154, R155, R158). -/

namespace Sys2Proof.Machine

open Sys2Proof

variable {s : State} {n : Comp} {k : LinkId} {h : Head} {kind : ClaimKind} {v : Bool}

/-- The claims of DLk on Cn. -/
theorem listed_iff : ((s.control n).claims.any fun c => c.link == k) = true ↔ ∃ c ∈ (s.control n).claims, c.link = k := by
  simp

theorem quietMet_iff : quietMet s n = true ↔ ∀ d, (s.control n).lastDesk = some d → (s.comp n).quietTime ≤ s.now - d := by
  unfold quietMet
  cases (s.control n).lastDesk <;> simp

/-! ### The branches of R154 -/

/-- A claim that the policy or a view-only session does not let in. -/
theorem claimOn_closed (h : ¬ (v = false ∧ ((s.comp n).policy = .ask ∨ (s.comp n).policy = .auto))) :
    claimOn k n v kind s = denyClaim k n .viewOnly s := by
  refine if_pos ?_
  rw [← grants_iff] at h
  cases v
  · simpa using h
  · rfl

/-- The judgement of a claim that is let in, in the order of R154. -/
theorem claimOn_open (hopen : v = false ∧ ((s.comp n).policy = .ask ∨ (s.comp n).policy = .auto)) :
    claimOn k n v kind s =
      if !(s.link k).peerZones.getLsbD (s.comp n).zone.val then denyClaim k n .zone s
      else if (s.control n).holder = .link k then sendFrame k .grant s
      else if (s.control n).claims.any fun c => c.link == k then discardFrame k s
      else if (s.control n).holder = .desk ∧ (s.comp n).policy = .auto ∧ quietMet s n = true then grantTo n k .auto s
      else match kind with
        | .direct => denyClaim k n .busy s
        | .queued =>
          let s1 := s.modControl n fun r => { r with claims := r.claims ++ [⟨k, s.now, false⟩] }
          notify .share (claimNotice (compByte n) k .queued (s1.control n).claims) s1 := by
  refine if_neg ?_
  rw [hopen.1, grants_iff.mpr hopen.2]
  exact Bool.false_ne_true

section
variable (hopen : v = false ∧ ((s.comp n).policy = .ask ∨ (s.comp n).policy = .auto))
include hopen

theorem claimOn_outside (hz : ¬ (s.link k).peerZones.getLsbD (s.comp n).zone.val = true) :
    claimOn k n v kind s = denyClaim k n .zone s :=
  (claimOn_open hopen).trans (if_pos (by simpa using hz))

variable (hz : (s.link k).peerZones.getLsbD (s.comp n).zone.val = true)
include hz

theorem claimOn_inside : claimOn k n v kind s =
    if (s.control n).holder = .link k then sendFrame k .grant s
    else if (s.control n).claims.any fun c => c.link == k then discardFrame k s
    else if (s.control n).holder = .desk ∧ (s.comp n).policy = .auto ∧ quietMet s n = true then grantTo n k .auto s
    else match kind with
      | .direct => denyClaim k n .busy s
      | .queued =>
        let s1 := s.modControl n fun r => { r with claims := r.claims ++ [⟨k, s.now, false⟩] }
        notify .share (claimNotice (compByte n) k .queued (s1.control n).claims) s1 :=
  (claimOn_open hopen).trans (if_neg (by rw [hz]; exact Bool.false_ne_true))

theorem claimOn_holder (hh : (s.control n).holder = .link k) : claimOn k n v kind s = sendFrame k .grant s :=
  (claimOn_inside hopen hz).trans (if_pos hh)

variable (hh : (s.control n).holder ≠ .link k)
include hh

theorem claimOn_listed (hl : ∃ c ∈ (s.control n).claims, c.link = k) : claimOn k n v kind s = discardFrame k s :=
  (claimOn_inside hopen hz).trans ((if_neg hh).trans (if_pos (listed_iff.mpr hl)))

variable (hl : ¬ ∃ c ∈ (s.control n).claims, c.link = k)
include hl

theorem claimOn_new : claimOn k n v kind s =
    if (s.control n).holder = .desk ∧ (s.comp n).policy = .auto ∧ quietMet s n = true then grantTo n k .auto s
    else match kind with
      | .direct => denyClaim k n .busy s
      | .queued =>
        let s1 := s.modControl n fun r => { r with claims := r.claims ++ [⟨k, s.now, false⟩] }
        notify .share (claimNotice (compByte n) k .queued (s1.control n).claims) s1 :=
  (claimOn_inside hopen hz).trans ((if_neg hh).trans (if_neg fun h => hl (listed_iff.mp h)))

end

/-! ### The frames -/

theorem denyClaim_heard (r : DenyReason) :
    denyClaim k n r (heard k s) = (s.modLink k fun _ => enqueueFrame (.deny r) (frameTaken k s)).modSup
      (queueNotice .share (claimNotice (compByte n) k (.denied r) (s.control n).claims)) := by
  rw [denyClaim, sendFrame_heard]
  rfl

/-- What a frame answers that writes the link and places a notice. -/
theorem done_modLink_told (y : Link) (q : Supervisor → Supervisor) :
    ∃ t, done ((s.modLink k fun _ => y).modSup q) = .next t ∧
      t.link k = y ∧ (∀ j, j ≠ k → t.link j = s.link j) ∧ t = { s with links := t.links, sup := transmitNext (q s.sup) } := by
  obtain ⟨hk, hj⟩ := modLink_const_link (s := s) (k := k) y
  exact ⟨_, rfl, hk, hj, rfl⟩

/-- What a frame answers that writes the claims of Cn and places a notice of them. -/
theorem done_claims_told (g : Control → Control) (q : Supervisor → Supervisor) :
    ∃ t, done (((heard k s).modControl n g).modSup q) = .next t ∧
      t.link k = frameTaken k s ∧ (∀ j, j ≠ k → t.link j = s.link j) ∧
      t.control n = g (s.control n) ∧ (∀ m, m ≠ n → t.control m = s.control m) ∧
      t = { s with links := t.links, controls := t.controls, sup := transmitNext (q s.sup) } :=
  ⟨_, rfl, heard_link_same k s, fun _ hj => heard_link_ne hj, State.modControl_control_same ..,
    fun _ hm => State.modControl_control_ne _ _ _ _ hm, rfl⟩

theorem heard_outbound (k : LinkId) (s : State) : ((heard k s).link k).outbound = (s.link k).outbound := by
  rw [heard_link_same]
  rfl

theorem takeClaim_active {y : State} (ho : (y.link k).outbound = .active h v) :
    takeClaim k kind y = claimOn k h.comp v kind y := by
  simp only [takeClaim, ho]

theorem takeClaim_offered {y : State} {d : Nat} (ho : (y.link k).outbound = .offered h v d) :
    takeClaim k kind y = denyClaim k h.comp .noSession y := by
  simp only [takeClaim, ho, denyNoSession, Outbound.share]

theorem takeClaim_none (ho : (s.link k).outbound = .none) :
    takeClaim k kind (heard k s) = (s.modLink k fun _ => enqueueFrame (.deny .noSession) (frameTaken k s)).modSup
      (queueNotice .share (claimNotice [Config.noSessionComputer k.val] k (.denied .noSession) [])) := by
  simp only [takeClaim, heard_outbound, ho, denyNoSession, Outbound.share, sendFrame_heard]
  rfl

theorem takeRelease_idle (ho : ∀ h v, (s.link k).outbound ≠ .active h v) :
    takeRelease k (heard k s) = s.modLink k fun _ => frameLost k s := by
  have hno : Outbound.activeHead (s.link k).outbound = none := by
    cases hout : (s.link k).outbound with
    | active h v => exact absurd hout (ho h v)
    | _ => rfl
  simp only [takeRelease, heard_outbound, hno]
  exact discardFrame_heard

theorem takeRelease_active {y : State} (ho : (y.link k).outbound = .active h v) :
    takeRelease k y =
      if (y.control h.comp).holder = .link k then returnToDesk h.comp k .release y
      else if (y.control h.comp).claims.any fun c => c.link == k then
        let s1 := y.modControl h.comp fun r => { r with claims := dropClaims k r.claims }
        notify .share (claimNotice (compByte h.comp) k .withdrawn (s1.control h.comp).claims) s1
      else discardFrame k y := by
  simp only [takeRelease, ho, Outbound.activeHead]

/-- What a RELEASE of the holder leaves, in terms of the state in which its frame came. -/
theorem ReturnTaken.of_heard {next : Option LinkId} {u : State} (h : ReturnTaken n next (heard k s) u) :
    holderChanged n (s.modControl n fun c => { c with holder := .desk }) s (handedOn u) ∧
    (∀ j, (handedOn u).link j =
      if next = some j then enqueueFrame .grant (if j = k then frameTaken k s else s.link j)
      else if j = k then frameTaken k s else s.link j) ∧
    handedOn u = { s with
      links := (handedOn u).links, controls := (handedOn u).controls, ports := (handedOn u).ports
      router := (handedOn u).router
      pointer := { s.pointer with capture := s.pointer.capture && !(next.isSome && s.focus.target == .loc n) }
      sup := (handedOn u).sup } := by
  refine ⟨?_, fun j => ?_, congrArg handedOn h.rest⟩
  · exact h.input.alike (fun _ => rfl) ⟨rfl, rfl, rfl, rfl, fun _ _ => rfl, fun _ => rfl⟩
      ⟨rfl, rfl, rfl, rfl, fun _ _ => rfl, fun _ => rfl⟩
  · have hlink : (heard k s).link j = if j = k then frameTaken k s else s.link j := by
      by_cases hj : j = k
      · rw [if_pos hj, hj, heard_link_same]
      · rw [if_neg hj, heard_link_ne hj]
    rw [← hlink]
    exact h.link j

/-! ### The quiet time -/

theorem execQuietTimeReached_eq (n : Comp) (s : State) :
    execQuietTimeReached n s = done (autoGrant n (s.setNow (match (s.control n).lastDesk with
      | some d => max s.now (d + (s.comp n).quietTime)
      | none => s.now))) := by
  unfold execQuietTimeReached
  cases (s.control n).lastDesk <;> rfl

end Sys2Proof.Machine
end

section
/-! The owner and its claims (O55). -/

open Sys2Proof Sys2Proof.Machine

/-- Settles O55: each frame is counted and handed to the owner, which judges it by the branches of R154, R158 and R155. -/
theorem ownerTakesClaims : Obligations.OwnerTakesClaims := by
  refine ⟨fun k s he hu => ?_, fun n s => ?_⟩
  · intro l lost onlyLink told
    have hclaim : ∀ kind, exec (.claim k kind) s = done (takeClaim k kind (heard k s)) := fun kind =>
      congrArg done (wholeFrame_heard (m := .claim kind) rfl he hu)
    have hrelease : exec (.release k) s = done (takeRelease k (heard k s)) :=
      congrArg done (wholeFrame_heard (m := .release) rfl he hu)
    refine ⟨fun kind => ⟨fun ho => ?_, fun h v d ho => ?_⟩, fun ho => ?_, fun h v ho => ?_⟩
    · rw [hclaim, takeClaim_none ho]
      exact done_modLink_told ..
    · rw [hclaim, takeClaim_offered ((heard_outbound k s).trans ho), denyClaim_heard]
      exact done_modLink_told ..
    · rw [hrelease, takeRelease_idle ho]
      exact done_modLink _
    · intro n open' inZone listed quiet denied
      have hdenied : ∀ r, ∃ t, done (denyClaim k n r (heard k s)) = .next t ∧ denied r t := fun r => by
        rw [denyClaim_heard]
        exact done_modLink_told ..
      have hact : ∀ kind, exec (.claim k kind) s = done (claimOn k n v kind (heard k s)) := fun kind => by
        rw [hclaim, takeClaim_active ((heard_outbound k s).trans ho)]
      have hrel := hrelease.trans (congrArg done (takeRelease_active ((heard_outbound k s).trans ho)))
      have hzone : ∀ {z}, ((heard k s).link k).peerZones.getLsbD z = (s.link k).peerZones.getLsbD z := by
        rw [heard_link_same]
        exact rfl
      have hquiet : quiet ↔ ((heard k s).control n).holder = .desk ∧ ((heard k s).comp n).policy = .auto ∧
          quietMet (heard k s) n = true := by
        rw [quietMet_iff]
        exact Iff.rfl
      refine ⟨fun kind => ⟨fun hno => ?_, fun hop hz => ?_, fun hop hz => ⟨fun hh => ?_, fun hh hl => ?_, fun hh hl =>
        ⟨fun hq => ?_, fun hq hk => ?_, fun hq hk => ?_⟩⟩⟩, fun hh => ?_, fun hh hl => ?_, fun hh hl => ?_⟩
      · rw [hact, claimOn_closed (s := heard k s) hno]
        exact hdenied _
      · rw [hact, claimOn_outside (s := heard k s) hop (by rw [hzone]; exact hz)]
        exact hdenied _
      · rw [hact, claimOn_holder (s := heard k s) hop (hzone.trans hz) hh, sendFrame_heard]
        exact done_modLink _
      · rw [hact, claimOn_listed (s := heard k s) hop (hzone.trans hz) hh hl, discardFrame_heard]
        exact done_modLink _
      · rw [hact, claimOn_new (s := heard k s) hop (hzone.trans hz) hh hl, if_pos (hquiet.mp hq)]
        exact ⟨_, rfl, grantTo_made n k .auto (heard k s)⟩
      · rw [hact, claimOn_new (s := heard k s) hop (hzone.trans hz) hh hl, if_neg fun h => hq (hquiet.mpr h), hk]
        exact hdenied _
      · rw [hact, claimOn_new (s := heard k s) hop (hzone.trans hz) hh hl, if_neg fun h => hq (hquiet.mpr h), hk]
        have hc : (((heard k s).modControl n fun r => { r with
            claims := r.claims ++ [⟨k, (heard k s).now, false⟩] }).control n).claims =
            (s.control n).claims ++ [⟨k, s.now, false⟩] := congrArg Control.claims (State.modControl_control_same ..)
        simp only [hc]
        exact done_claims_told ..
      · intro next
        rw [hrel, if_pos (show ((heard k s).control n).holder = .link k from hh)]
        have hret := returnToDesk_made h.comp k .release (heard k s)
        generalize returnToDesk h.comp k .release (heard k s) = u at hret ⊢
        have htaken : ReturnTaken n next (heard k s) u := hret.taken
        obtain ⟨hinput, hlinks, hrest⟩ := htaken.of_heard
        exact ⟨_, rfl, ⟨_, hret, rfl⟩, htaken.kept, htaken.granted, htaken.remoteKeys, htaken.remoteButtons, htaken.lastDesk,
          hinput, hlinks, hrest⟩
      · rw [hrel, if_neg (show ¬ ((heard k s).control n).holder = .link k from hh),
          if_pos (listed_iff.mpr (show ∃ c ∈ ((heard k s).control n).claims, c.link = k from hl))]
        have hc : (((heard k s).modControl n fun r => { r with claims := dropClaims k r.claims }).control n).claims =
            (s.control n).claims.filter fun c => c.link != k := congrArg Control.claims (State.modControl_control_same ..)
        obtain ⟨t, ht, hk, hks, hctl, hctls, hrest⟩ := done_claims_told (s := s) (n := n) (k := k)
          (fun r => { r with claims := dropClaims k r.claims })
          (queueNotice .share (claimNotice (compByte n) k .withdrawn ((s.control n).claims.filter fun c => c.link != k)))
        rw [← hc] at ht
        exact ⟨t, ht, hk, hctl, hks, hctls, hrest⟩
      · rw [hrel, if_neg (show ¬ ((heard k s).control n).holder = .link k from hh),
          if_neg fun h => hl ((listed_iff (s := heard k s)).mp h), discardFrame_heard]
        exact done_modLink _
  · intro now
    have hexec : exec (.quietTimeReached n) s = done (autoGrant n { s with now := now }) := execQuietTimeReached_eq n s
    refine ⟨fun c cs hh hp hc => ?_, fun h => ?_⟩
    · have hmet : ∀ d, (s.control n).lastDesk = some d → (s.comp n).quietTime ≤ now - d := fun d hd => by
        have hnow : now = max s.now (d + (s.comp n).quietTime) := by simp only [now, hd]
        omega
      have hdue : autoGrantDue { s with now := now } n = true :=
        autoGrantDue_iff.mpr ⟨by rw [show ((({ s with now := now } : State)).control n).claims = c :: cs from hc]; exact List.cons_ne_nil _ _,
          hp, hh, hmet⟩
      have hgrant : autoGrant n { s with now := now } = grantTo n c.link .auto { s with now := now } :=
        (autoGrant_cons (x := { s with now := now }) hc).trans (if_pos hdue)
      rw [hexec, hgrant]
      exact ⟨_, rfl, grantTo_made n c.link .auto _⟩
    · have hnot : ¬ autoGrantDue { s with now := now } n = true := fun hd => by
        obtain ⟨hc, hp, hh, -⟩ := autoGrantDue_iff.mp hd
        rcases h with h | h | h
        · exact h hh
        · exact h hp
        · exact hc h
      rw [hexec, autoGrant_not_due hnot]
      rfl

end

section
/-! SUPPORT. The requests of the owner's host (R156, R157, R159). -/

namespace Sys2Proof.Machine

open Sys2Proof

variable {s u : State} {n : Comp} {k : LinkId} {b0 b1 : Byte} {c : Claim} {o : Option LinkId}

theorem AlikeBut.symm {s' : State} (h : AlikeBut n s s') : AlikeBut n s' s :=
  ⟨h.now.symm, h.ports.symm, h.router.symm, h.keyboard.symm, fun m hm => (h.controls m hm).symm, fun m => (h.recipients m).symm⟩

theorem modControl_modControl (s : State) (n : Comp) (f g : Control → Control) :
    (s.modControl n f).modControl n g = s.modControl n fun x => g (f x) := by
  have h : upd (upd s.controls n f) n g = upd s.controls n fun x => g (f x) := by
    refine vector_ext fun j => ?_
    simp only [pick_upd]
    split <;> rfl
  exact congrArg (fun controls => { s with controls := controls }) h

/-! ### The claim that a request names -/

/-- The claim that a link byte names: 0 the oldest one. -/
def claimNamed (b1 : Byte) (claims : List Claim) : Option Claim :=
  if b1 = 0 then claims.head? else claims.find? fun d => BitVec.ofNat 8 (d.link.val + 1) == b1

theorem claimNamed_eq_some {claims : List Claim} : claimNamed b1 claims = some c ↔
    (b1 = 0 ∧ claims.head? = some c) ∨ (claims.find? (fun d => BitVec.ofNat 8 (d.link.val + 1) == b1) = some c ∧ b1 ≠ 0) := by
  unfold claimNamed
  by_cases h : b1 = 0
  · rw [if_pos h]
    exact ⟨fun hc => .inl ⟨h, hc⟩, fun hc => hc.elim And.right fun hf => absurd h hf.2⟩
  · rw [if_neg h]
    exact ⟨fun hc => .inr ⟨hc, h⟩, fun hc => hc.elim (fun hz => absurd hz.1 h) And.left⟩

theorem claimNamed_in_range {claims : List Claim} (h : claimNamed b1 claims = some c) : b1.toNat ≤ 2 := by
  rcases claimNamed_eq_some.mp h with ⟨rfl, -⟩ | ⟨hf, -⟩
  · decide
  · have hb : BitVec.ofNat 8 (c.link.val + 1) = b1 := by simpa using List.find?_some hf
    have hk := c.link.isLt
    rw [← hb, BitVec.toNat_ofNat]
    omega

theorem claimLinkOf_none (h : 2 < b1.toNat) : claimLinkOf b1 = none := by
  have hb : ¬ b1 = 0 := by
    rw [byte_eq_zero_iff]
    omega
  rw [claimLinkOf, if_neg hb, linkOf_eq_none (.inr h)]
  rfl

theorem claimLinkOf_named (h : b1.toNat ≤ 2) :
    ∃ o, claimLinkOf b1 = some o ∧ ∀ s n, namedClaim s n o = claimNamed b1 (s.control n).claims := by
  by_cases hb : b1 = 0
  · exact ⟨none, if_pos hb, fun s n => (if_pos hb).symm⟩
  · obtain ⟨k, hk⟩ : ∃ k : LinkId, b1 = BitVec.ofNat 8 (k.val + 1) := by
      have hpos : b1.toNat ≠ 0 := fun h0 => hb (byte_eq_zero_iff.mpr h0)
      refine ⟨⟨b1.toNat - 1, by omega⟩, BitVec.eq_of_toNat_eq ?_⟩
      rw [BitVec.toNat_ofNat]
      show b1.toNat = (b1.toNat - 1 + 1) % 2 ^ 8
      omega
    refine ⟨some k, ?_, fun s n => ?_⟩
    · rw [claimLinkOf, if_neg hb, hk, linkOf_byte]
      rfl
    · rw [claimNamed, if_neg hb, hk]
      refine congrArg (fun p => (s.control n).claims.find? p) (funext fun d => ?_)
      generalize d.link = j
      clear hk
      revert j k
      decide

/-! ### GRANT_CONTROL and REFUSE_CLAIM -/

theorem claimBytes_none (h : b0 = 0 ∨ 8 < b0.toNat ∨ 2 < b1.toNat) : compOf b0 = none ∨ claimLinkOf b1 = none := by
  rcases h with h | h | h
  · exact .inl (compOf_eq_none.mpr (.inl h))
  · exact .inl (compOf_eq_none.mpr (.inr h))
  · exact .inr (claimLinkOf_none h)

theorem judgeGrantControl_none (h : b0 = 0 ∨ 8 < b0.toNat ∨ 2 < b1.toNat) :
    judgeGrantControl [b0, b1] s = refuse .badArg s := by
  rcases claimBytes_none h with h | h
  · simp only [judgeGrantControl, h]
  · cases hn : compOf b0 <;> simp only [judgeGrantControl, hn, h]

theorem judgeRefuseClaim_none (h : b0 = 0 ∨ 8 < b0.toNat ∨ 2 < b1.toNat) :
    judgeRefuseClaim [b0, b1] s = refuse .badArg s := by
  rcases claimBytes_none h with h | h
  · simp only [judgeRefuseClaim, h]
  · cases hn : compOf b0 <;> simp only [judgeRefuseClaim, hn, h]

/-- Both requests go by the claim named. -/
theorem judgeClaim_named (hn : b0.toNat = n.val + 1) (hb : b1.toNat ≤ 2) :
    ∃ o, (∀ s n, namedClaim s n o = claimNamed b1 (s.control n).claims) ∧
      (∀ s, judgeGrantControl [b0, b1] s = grantControl n o s) ∧ ∀ s, judgeRefuseClaim [b0, b1] s = refuseClaim n o s := by
  obtain ⟨o, ho, hnamed⟩ := claimLinkOf_named hb
  exact ⟨o, hnamed, fun s => by simp only [judgeGrantControl, compOf_eq_some hn, ho],
    fun s => by simp only [judgeRefuseClaim, compOf_eq_some hn, ho]⟩

theorem grantControl_none (h : namedClaim s n o = none) : grantControl n o s = refuse .noEntry s := by
  simp only [grantControl, h]

theorem refuseClaim_none (h : namedClaim s n o = none) : refuseClaim n o s = refuse .noEntry s := by
  simp only [refuseClaim, h]

theorem grantControl_named (h : namedClaim s n o = some c) : grantControl n o s =
    if !SharePolicy.grants (s.comp n).policy then refuse .wrongState s
    else if (s.control n).holder = .desk then okay (grantTo n c.link .granted s)
    else accepted (s.modControl n fun r =>
      { r with claims := r.claims.map fun d => if d.link = c.link then { d with approved := true } else d }) := by
  simp only [grantControl, h]

theorem grantControl_closed (h : namedClaim s n o = some c)
    (hp : ¬ ((s.comp n).policy = .ask ∨ (s.comp n).policy = .auto)) : grantControl n o s = refuse .wrongState s := by
  refine (grantControl_named h).trans (if_pos ?_)
  rw [← grants_iff] at hp
  simpa using hp

theorem grantControl_open (h : namedClaim s n o = some c) (hp : (s.comp n).policy = .ask ∨ (s.comp n).policy = .auto) :
    grantControl n o s =
      if (s.control n).holder = .desk then okay (grantTo n c.link .granted s)
      else accepted (s.modControl n fun r =>
        { r with claims := r.claims.map fun d => if d.link = c.link then { d with approved := true } else d }) := by
  refine (grantControl_named h).trans (if_neg ?_)
  rw [grants_iff.mpr hp]
  exact Bool.false_ne_true

/-- The state after a claim is refused (R157). -/
def claimRefused (n : Comp) (k : LinkId) (s : State) : State :=
  ((s.modControl n fun r => { r with claims := dropClaims k r.claims }).modLink k (enqueueFrame (.deny .refused))).modSup
    (queueNotice .share (claimNotice (compByte n) k .refused (dropClaims k (s.control n).claims)))

theorem refuseClaim_named (h : namedClaim s n o = some c) : refuseClaim n o s = okay (claimRefused n c.link s) := by
  have hc : ((s.modControl n fun r => { r with claims := dropClaims c.link r.claims }).control n).claims =
      dropClaims c.link (s.control n).claims := congrArg Control.claims (State.modControl_control_same ..)
  simp only [refuseClaim, h]
  rw [claimRefused, ← hc]
  rfl

/-! ### TAKE_BACK -/

theorem judgeTakeBack_none (h : b0 = 0 ∨ 8 < b0.toNat) : judgeTakeBack [b0] s = refuse .badArg s := by
  simp only [judgeTakeBack, compOf_eq_none.mpr h]

theorem judgeTakeBack_comp (hn : b0.toNat = n.val + 1) : judgeTakeBack [b0] s = takeBack n s := by
  simp only [judgeTakeBack, compOf_eq_some hn]

/-- The state from which a TAKE_BACK returns Cn to the desk: the approvals dropped, REVOKE formed, the quiet timer
restarted (R159). -/
def revoked (n : Comp) (k : LinkId) (s : State) : State :=
  (s.modControl n fun x => { x with
    claims := x.claims.map fun d => { d with approved := false }, lastDesk := some s.now }).modLink k (enqueueFrame .revoke)

theorem takeBack_desk (h : (s.control n).holder = .desk) : takeBack n s = okay s := by
  simp only [takeBack, h]

theorem takeBack_held (h : (s.control n).holder = .link k) :
    takeBack n s = okay (returnToDesk n k .takeBack (revoked n k s)) := by
  have hs : ((s.modControl n fun r => { r with claims := r.claims.map fun c => { c with approved := false } }).modControl n
      fun r => { r with lastDesk := some s.now }) = s.modControl n fun x => { x with
        claims := x.claims.map fun d => { d with approved := false }, lastDesk := some s.now } := modControl_modControl ..
  simp only [takeBack, h]
  rw [revoked, ← hs]
  rfl

theorem revoked_control (n : Comp) (k : LinkId) (s : State) : (revoked n k s).control n = { s.control n with
    claims := (s.control n).claims.map Claim.unapproved, lastDesk := some s.now } := State.modControl_control_same ..

theorem revoked_alike (n : Comp) (k : LinkId) (s : State) : AlikeBut n s (revoked n k s) := by
  obtain ⟨h1, h2, h3, h4, h5, h6⟩ := AlikeBut.modControl (s := s) (n := n) (g := fun x => { x with
    claims := x.claims.map fun d => { d with approved := false }, lastDesk := some s.now }) rfl
  exact ⟨h1, h2, h3, h4, h5, h6⟩

/-- After a TAKE_BACK the oldest claim is granted at once under AUTO with a quiet time of 0. -/
theorem grantedNext_revoked (n : Comp) (k : LinkId) (s : State) :
    grantedNext n (revoked n k s) =
      if (s.comp n).policy = .auto ∧ (s.comp n).quietTime = 0 then (s.control n).claims.head?.map Claim.link else none := by
  have hnone : ((revoked n k s).control n).claims.find? Claim.approved = none := by
    rw [revoked_control]
    refine List.find?_eq_none.mpr fun d hd => ?_
    obtain ⟨e, -, rfl⟩ := List.mem_map.mp hd
    exact Bool.false_ne_true
  have hhead : ((revoked n k s).control n).claims.head?.map Claim.link = (s.control n).claims.head?.map Claim.link := by
    rw [revoked_control]
    cases (s.control n).claims <;> rfl
  have hlast : ((revoked n k s).control n).lastDesk = some s.now := by rw [revoked_control]
  have hzero : (decide (((revoked n k s).comp n).quietTime ≤ (revoked n k s).now - s.now) = true) ↔ (s.comp n).quietTime = 0 := by
    rw [show (revoked n k s).now = s.now from rfl, Nat.sub_self, decide_eq_true_eq, Nat.le_zero]
    rfl
  simp only [grantedNext, hnone, hlast, hhead, hzero]
  rfl

/-- The recipients under the desk as holder do not depend on what the record says of claims and quiet time. -/
theorem revoked_recipients (n : Comp) (k : LinkId) (s : State) (m : Comp) :
    isRecipient (s.modControl n fun c => { c with holder := .desk }) m =
      isRecipient ((revoked n k s).modControl n fun c => { c with holder := .desk }) m := by
  refine isRecipient_congr (t := s.modControl n fun c => { c with holder := .desk })
    (s := (revoked n k s).modControl n fun c => { c with holder := .desk }) rfl rfl rfl rfl (fun _ => rfl) (fun m => ?_) m
  by_cases hm : m = n
  · rw [hm, State.modControl_control_same, State.modControl_control_same]
  · rw [State.modControl_control_ne _ _ _ _ hm, State.modControl_control_ne _ _ _ _ hm, (revoked_alike n k s).controls m hm]

/-- The holder that a return leaves, by the claim granted after it. -/
def holderOf : Option LinkId → Holder
  | some j => .link j
  | none => .desk

/-- The control record after a TAKE_BACK. -/
theorem ReturnTaken.control_revoked {next : Option LinkId} (h : ReturnTaken n next (revoked n k s) u) :
    u.control n =
      { holder := holderOf next
        claims := ((s.control n).claims.map Claim.unapproved).filter fun d => some d.link != next
        lastDesk := some s.now, remoteKeys := ⟨0, []⟩, remoteButtons := 0 } := by
  obtain ⟨hkept, hgranted, hkeys, hbuttons, hlast, -, -, -⟩ := h
  rw [revoked_control] at hkept hgranted
  have hlast' : (u.control n).lastDesk = some s.now := hlast.trans (congrArg Control.lastDesk (revoked_control n k s))
  have hfields : (u.control n).holder = holderOf next ∧ (u.control n).claims =
      ((s.control n).claims.map Claim.unapproved).filter fun d => some d.link != next := by
    cases next with
    | none =>
      obtain ⟨hh, hc⟩ := hkept rfl
      refine ⟨hh, hc.trans ?_⟩
      have hall : ((s.control n).claims.map Claim.unapproved).filter (fun d => some d.link != none) =
          (s.control n).claims.map Claim.unapproved := List.filter_eq_self.mpr fun _ _ => rfl
      rw [hall, List.map_map]
      rfl
    | some j =>
      obtain ⟨hh, hc⟩ := hgranted j rfl
      exact ⟨hh, hc⟩
  rw [← hfields.1, ← hfields.2, ← hkeys, ← hbuttons, ← hlast']

/-- What a TAKE_BACK leaves, in terms of the state in which the request ran. -/
theorem ReturnTaken.of_revoked {next : Option LinkId} (h : ReturnTaken n next (revoked n k s) u) :
    holderChanged n (s.modControl n fun c => { c with holder := .desk }) s u ∧
    (∀ j, u.link j =
      if next = some j then enqueueFrame .grant (if j = k then enqueueFrame .revoke (s.link j) else s.link j)
      else if j = k then enqueueFrame .revoke (s.link j) else s.link j) ∧
    u = { s with
      pointer := { s.pointer with capture := s.pointer.capture && !(next.isSome && s.focus.target == .loc n) }
      controls := u.controls, ports := u.ports, router := u.router, links := u.links, sup := u.sup } := by
  refine ⟨h.input.alike (revoked_recipients n k s) (revoked_alike n k s).symm (.refl n u), fun j => ?_, h.rest⟩
  have hlink : (revoked n k s).link j = if j = k then enqueueFrame .revoke (s.link j) else s.link j := State.modLink_link ..
  rw [← hlink]
  exact h.link j

end Sys2Proof.Machine
end

section
/-! Control by the owner's host (O53). -/

open Sys2Proof Sys2Proof.Machine

/-- Settles O53: the claim named decides the first two requests, and a TAKE_BACK is a return to the desk taken as a whole. -/
theorem ownerControlByRequest : Obligations.OwnerControlByRequest := by
  intro tag b0 b1 s g f b
  refine ⟨fun h => ⟨fun ht => ?_, fun ht => ?_⟩, fun h ht => ?_, fun n hn => ?_⟩
  · exact exec_request g judgeGrantControl s ht _ _ _ (judgeGrantControl_none h)
  · exact exec_request f judgeRefuseClaim s ht _ _ _ (judgeRefuseClaim_none h)
  · exact exec_request b judgeTakeBack s ht _ _ _ (judgeTakeBack_none h)
  · intro names without grantable
    have hnames : ∀ c, names c ↔ claimNamed b1 (s.control n).claims = some c := fun c => claimNamed_eq_some.symm
    refine ⟨fun hb hno => ?_, fun c hc ht => ?_, fun c hc ht => ?_, fun ht => ⟨fun hh => ?_, fun k hh => ?_⟩⟩
    · obtain ⟨o, ho, hg, hf⟩ := judgeClaim_named hn hb
      have hnone : claimNamed b1 (s.control n).claims = none :=
        Option.eq_none_iff_forall_ne_some.mpr fun c hc => hno c ((hnames c).mpr hc)
      exact ⟨fun ht => exec_request g judgeGrantControl s ht _ _ _ ((hg _).trans (grantControl_none ((ho _ n).trans hnone))),
        fun ht => exec_request f judgeRefuseClaim s ht _ _ _ ((hf _).trans (refuseClaim_none ((ho _ n).trans hnone)))⟩
    · have hnamed := (hnames c).mp hc
      obtain ⟨o, ho, hg, -⟩ := judgeClaim_named hn (claimNamed_in_range hnamed)
      have hto : namedClaim (begun g s) n o = some c := (ho _ n).trans hnamed
      refine ⟨fun hp => ?_, fun hp hh => ?_, fun hp hh => ?_⟩
      · exact exec_request g judgeGrantControl s ht _ _ _ ((hg _).trans (grantControl_closed hto hp))
      · exact ⟨_, exec_request g judgeGrantControl s ht _ _ _ ((hg _).trans ((grantControl_open hto hp).trans (if_pos hh))),
          grantTo_made n c.link .granted (begun g s)⟩
      · exact ⟨_, exec_request g judgeGrantControl s ht _ _ _ ((hg _).trans ((grantControl_open hto hp).trans (if_neg hh))),
          State.modControl_control_same .., fun m hm => State.modControl_control_ne _ _ _ _ hm, rfl⟩
    · have hnamed := (hnames c).mp hc
      obtain ⟨o, ho, -, hf⟩ := judgeClaim_named hn (claimNamed_in_range hnamed)
      exact ⟨_, exec_request f judgeRefuseClaim s ht _ _ _ ((hf _).trans (refuseClaim_named ((ho _ n).trans hnamed))),
        State.modControl_control_same .., fun m hm => State.modControl_control_ne _ _ _ _ hm, State.modLink_link_same ..,
        fun j hj => State.modLink_link_ne _ _ _ _ hj, rfl⟩
    · exact exec_request b judgeTakeBack s ht _ _ _ ((judgeTakeBack_comp hn).trans (takeBack_desk hh))
    · intro next
      have hexec := exec_request b judgeTakeBack s ht _ _ _ ((judgeTakeBack_comp hn).trans (takeBack_held (s := begun b s) hh))
      have hret := returnToDesk_made n k .takeBack (revoked n k (begun b s))
      generalize returnToDesk n k .takeBack (revoked n k (begun b s)) = u at hexec hret
      have htaken := hret.taken
      rw [grantedNext_revoked] at htaken
      obtain ⟨hinput, hlinks, hrest⟩ := htaken.of_revoked
      refine ⟨u, hexec, hret, htaken.control_revoked.trans ?_, hinput, hlinks, hrest⟩
      rfl

end

section
/-!
SUPPORT. The ports that CLEAR_COUNTERS names, and the counts that it clears whatever it names (R78).
-/

namespace Sys2Proof.Machine

open Sys2Proof

variable {s : State} {b : Byte}

/-- The ports that CLEAR_COUNTERS names are those of a port number's computer, or all of them for 0 (R78). -/
theorem portsOf_named (h : b.toNat ≤ 8) :
    ∃ ns, portsOf b = some ns ∧ ∀ n : Comp, n ∈ ns ↔ b = 0 ∨ b.toNat = n.val + 1 := by
  unfold portsOf
  by_cases h0 : b = 0
  · exact ⟨allComps, if_pos h0, fun n => ⟨fun _ => .inl h0, fun _ => mem_allComps n⟩⟩
  · have hpos : b.toNat ≠ 0 := fun e => h0 (byte_eq_zero_iff.mpr e)
    have hc : compOf b = some ⟨b.toNat - 1, by omega⟩ := compOf_eq_some (show b.toNat = b.toNat - 1 + 1 by omega)
    refine ⟨[⟨b.toNat - 1, by omega⟩], by rw [if_neg h0, hc]; rfl, fun n => ?_⟩
    simp only [List.mem_singleton, h0, false_or, Fin.ext_iff]
    omega

theorem portsOf_none (h : 8 < b.toNat) : portsOf b = none := by
  unfold portsOf
  rw [if_neg fun e => by rw [byte_eq_zero_iff] at e; omega, compOf_eq_none.mpr (.inr h)]
  rfl

theorem reset_port_counters (n : Comp) : (State.reset.port n).counters = PortCounters.zero :=
  congrArg Port.counters (pick_replicate ..)

theorem reset_link_counters (k : LinkId) : (State.reset.link k).counters = LinkCounters.zero :=
  congrArg Link.counters (pick_replicate ..)

/-- A port with its counters at 0 and its replacement noticed flag clear (R78). -/
def Port.cleared (p : Port) : Port := { p with counters := PortCounters.zero, noticed := false }

/-- Clearing a port twice clears it as once does, so that the order of a list of ports does not count. -/
theorem clearPorts_effect (ns : List Comp) (s : State) :
    (∀ n, (ns.foldl clearPort s).port n = if n ∈ ns then Port.cleared (s.port n) else s.port n) ∧
      ns.foldl clearPort s = { s with ports := (ns.foldl clearPort s).ports } := by
  induction ns generalizing s with
  | nil => exact ⟨fun n => by simp, rfl⟩
  | cons a ns ih =>
    obtain ⟨hport, hrest⟩ := ih (clearPort s a)
    refine ⟨fun n => ?_, hrest⟩
    have ha : (clearPort s a).port n = if n = a then Port.cleared (s.port n) else s.port n := State.modPort_port ..
    rw [List.foldl_cons, hport, ha]
    by_cases hn : n = a
    · subst hn; simp [Port.cleared]
    · simp [hn]

/-- What every accepted CLEAR_COUNTERS clears beside the ports (R47, R96, R136, R187). -/
theorem clearOthers_effect (s : State) :
    (∀ k, (clearOthers s).link k = { s.link k with counters := LinkCounters.zero }) ∧
      clearOthers s = { s with
        links := (clearOthers s).links
        keyboard := { s.keyboard with ignoredPresses := 0, rollovers := 0 }
        matcher := { s.matcher with fired := 0, suppressed := 0, refused := 0 }
        sup := clearSupCounts s.sup } := by
  let x : State := (s.modKeyboard fun k => { k with ignoredPresses := 0, rollovers := 0 }).modMatcher fun m =>
    { m with fired := 0, suppressed := 0, refused := 0 }
  obtain ⟨hlink, hrest⟩ := allLinks_foldl (s := x) (f := clearLink)
    (g := fun _ l => { l with counters := LinkCounters.zero }) fun _ _ _ => rfl
  exact ⟨hlink, congrArg (State.modSup · clearSupCounts) hrest⟩

end Sys2Proof.Machine
end

section
/-! CLEAR_COUNTERS (O34). -/

open Sys2Proof Sys2Proof.Machine

/-- Settles O34: the ports named are cleared one after another, and then the other counts. -/
theorem countersCleared : Obligations.CountersCleared := by
  intro tag b s r ht
  refine ⟨fun hb => ?_, fun hb => ?_⟩
  · have hj : judgeClearCounters r.body (begun r s) = refuse .badArg (begun r s) := by
      simp only [r, judgeClearCounters, portsOf_none hb]
    exact exec_request r judgeClearCounters s ht _ _ _ hj
  · obtain ⟨ns, hns, hmem⟩ := portsOf_named hb
    have hj : judgeClearCounters r.body (begun r s) = okay (clearOthers (ns.foldl clearPort (begun r s))) := by
      simp only [r, judgeClearCounters, hns]
    obtain ⟨hport, hports⟩ := clearPorts_effect ns (begun r s)
    obtain ⟨hlink, hrest⟩ := clearOthers_effect (ns.foldl clearPort (begun r s))
    generalize ns.foldl clearPort (begun r s) = x at *
    generalize clearOthers x = u at *
    refine answered_ok ht hj ⟨fun n => ?_, fun k => ?_, ?_⟩
    · have hu : u.port n = x.port n := by rw [hrest]; rfl
      rw [hu, hport, reset_port_counters]
      exact if_congr (hmem n) rfl rfl
    · have hx : x.link k = s.link k := by rw [hports]; rfl
      exact (hlink k).trans (by rw [hx, reset_link_counters])
    · rw [hports] at hrest
      rw [hrest]
      rfl

end

section
/-!
SUPPORT. The recipients derived afresh at a moment other than a focus change, whatever has made them differ (R49, R53, R55).
-/

namespace Sys2Proof.Machine

open Sys2Proof

variable {s v u : State}

/-- The recipients have been derived afresh in `v`, which has the records of `s` and its links as recipients: who has left is
released, and when someone has joined every held key is masked (R49, R53, R55). -/
structure RederivedFrom (s v u : State) : Prop where
  released : computersReleased v.port s u
  masked : (∃ m, isRecipient u m = true ∧ isRecipient s m = false) → heldMasked s u
  unmasked : (∀ m, isRecipient u m = true → isRecipient s m = true) → u.router.mask = s.router.mask
  recipients : ∀ m, isRecipient u m = isRecipient v m
  rest : u = { v with
    router := { v.router with
      mask := u.router.mask, lastKey := u.router.lastKey, lastPointer := u.router.lastPointer }
    ports := u.ports, controls := u.controls, sup := toldLeavers s u v.sup }

/-- The router as it has been left, in a state that differs from `v` in the router alone. -/
theorem RederivedFrom.written (h : RederivedFrom s v u) {y : State} (hy : y = { v with router := y.router }) :
    u = { y with
      router := u.router, ports := u.ports, controls := u.controls, sup := toldLeavers s u v.sup } := by
  have hr := congrArg State.router h.rest
  conv_lhs => rw [h.rest]
  rw [hy, hr]

theorem rederive_from (hb : BeforeRelease s v) (hl : ∀ k, linkIsRecipient v k = linkIsRecipient s k)
    (hm : v.router.mask = s.router.mask) (hk : v.keyboard = s.keyboard) : RederivedFrom s v (rederive s v) := by
  have hrel := releaseLeavers_effect s v
  obtain ⟨hlinks, hkeys, hptr⟩ := hrel.links_kept hl
  obtain ⟨ha, -⟩ := rederive_alike s v
  obtain ⟨-, hrec⟩ := rederive_sup s v
  have htold := rederive_told (old := s) (s := v) hb.port (fun m => congrArg (pick · m) hb.lastKey)
    fun m => congrArg (pick · m) hb.lastPointer
  have hj := someoneJoined_comps hl
  have hu : rederive s v = { releaseLeavers s v with router := { (releaseLeavers s v).router with
      mask := (rederive s v).router.mask } } := by
    unfold rederive
    dsimp only
    split <;> rfl
  have hmask : someoneJoined s v = true → rederive s v = maskHeld (releaseLeavers s v) := fun h => if_pos h
  have hkept : ¬ someoneJoined s v = true → rederive s v = releaseLeavers s v := fun h => if_neg h
  have hrest := hrel.releases
  have hrouter := hrel.router
  generalize releaseLeavers s v = y at *
  generalize rederive s v = z at *
  have hym : y.router.mask = s.router.mask := by rw [hrouter]; exact hm
  have hyk : y.keyboard = s.keyboard := by rw [hrest]; exact hk
  refine ⟨hb.computersReleased hrel ha (by rw [hu]) (by rw [hu]) (by rw [hu]), fun hm => ?_, fun hm => ?_, hrec, ?_⟩
  · simp only [hrec] at hm
    rw [hmask (hj.mpr hm)]
    exact maskHeld_heldMasked hym hyk
  · simp only [hrec] at hm
    rw [hkept, hym]
    intro h
    obtain ⟨m, h1, h2⟩ := hj.mp h
    rw [hm m h1] at h2
    cases h2
  · rw [← htold]
    rw [hrouter, hkeys, hptr] at hu
    rw [hrest, hlinks] at hu
    rw [hu]

end Sys2Proof.Machine
end

section
/-!
SUPPORT. Broadcast and its member flags (R54), and the recipients after them.
-/

namespace Sys2Proof.Machine

open Sys2Proof

variable {s v u : State} {b0 b1 : Byte}

/-- The flags of a list of computers are written, each from its bit. -/
theorem setMembers_effect (members : Byte) (l : List Comp) (s : State) :
    (∀ n, (l.foldl (setMember members) s).comp n =
      if n ∈ l then { s.comp n with member := members.getLsbD n.val } else s.comp n) ∧
    l.foldl (setMember members) s = { s with comps := (l.foldl (setMember members) s).comps } := by
  induction l generalizing s with
  | nil => exact ⟨fun n => by simp, rfl⟩
  | cons a l ih =>
    obtain ⟨hcomp, hrest⟩ := ih (setMember members s a)
    refine ⟨fun n => ?_, hrest⟩
    have ha : (setMember members s a).comp n =
        if n = a then { s.comp n with member := members.getLsbD a.val } else s.comp n := State.modComp_comp ..
    rw [List.foldl_cons, hcomp, ha]
    by_cases hn : n = a
    · subst hn; simp
    · simp [hn]

/-- A state that differs from `s` in broadcast and in the computer records is derived afresh from the records of `s`. -/
theorem rederive_broadcast (hv : v = { s with comps := v.comps, router := { s.router with broadcast := v.router.broadcast } }) :
    RederivedFrom s v (rederive s v) := by
  refine rederive_from ?_ ?_ ?_ ?_
  · rw [hv]; exact ⟨rfl, fun _ => .inl rfl, rfl, rfl, rfl, rfl, rfl, rfl⟩
  all_goals rw [hv]
  exact fun _ => rfl

theorem judgeSetBroadcast_none (h : 1 < b0.toNat) : judgeSetBroadcast [b0, b1] s = refuse .badArg s := by
  simp only [judgeSetBroadcast, flagOf_eq_none.mpr h]

theorem judgeSetBroadcast_some (h : b0.toNat ≤ 1) : judgeSetBroadcast [b0, b1] s = okay (setBroadcast (b0 == 1) b1 s) := by
  simp only [judgeSetBroadcast, flagOf_eq_some (show ¬ 1 < b0.toNat by omega)]

/-- BROADCAST_TOGGLE turns broadcast over, the member flags kept (R54, R80). -/
theorem runBroadcastToggle_turned (base : State) : (runBroadcastToggle base).code = some .ok ∧
    broadcastTurned base base (runBroadcastToggle base).state := by
  have h := rederive_broadcast (s := base) (v := base.modRouter fun r => { r with broadcast := !r.broadcast }) rfl
  refine ⟨rfl, ?_⟩
  change broadcastTurned base base (rederive base _)
  generalize rederive base _ = u at h
  have hrest := h.rest
  exact ⟨by rw [hrest]; rfl, h.released, by rw [hrest]; rfl, by rw [hrest]; rfl, h.masked, h.unmasked, h.written rfl⟩

end Sys2Proof.Machine
end

section
/-! Broadcast by request (O26). -/

open Sys2Proof Sys2Proof.Machine

/-- Settles O26: the flags are written, and then the recipients are derived afresh. -/
theorem broadcastSetByRequest : Obligations.BroadcastSetByRequest := by
  intro tag b0 b1 s r ht
  refine ⟨fun hb => exec_request r judgeSetBroadcast s ht _ _ _ (judgeSetBroadcast_none hb), fun hb => ?_⟩
  refine answered_ok ht (judgeSetBroadcast_some hb) ?_
  obtain ⟨hcomp, hcomps⟩ := setMembers_effect b1 allComps ((begun r s).modRouter fun x => { x with broadcast := b0 == 1 })
  unfold setBroadcast
  generalize allComps.foldl (setMember b1) _ = v at hcomp hcomps
  have h := rederive_broadcast (s := begun r s) (v := v) (hcomps.trans (by rw [hcomps]; rfl))
  generalize rederive (begun r s) v = u at h
  have hrest := h.rest
  have hport : v.port = s.port := by rw [hcomps]; rfl
  refine ⟨by rw [hrest, hcomps]; rfl, fun n => ?_, hport ▸ h.released, by rw [hrest, hcomps]; rfl, by rw [hrest, hcomps]; rfl, h.masked,
    h.unmasked, ?_⟩
  · have hu : u.comp n = v.comp n := by rw [hrest]; rfl
    exact hu.trans ((hcomp n).trans (if_pos (mem_allComps n)))
  · have hc : u.comps = v.comps := by rw [hrest]
    have hs : v.sup = (begun r s).sup := by rw [hcomps]; rfl
    rw [hc, ← hs]
    exact h.written (y := { begun r s with comps := v.comps, router := v.router }) (by rw [hcomps]; rfl)

end

section
/-!
SUPPORT. The records and frames of a key event for every recipient (R50, step 4).
-/

namespace Sys2Proof.Machine

open Sys2Proof

variable {s t u v : State} {ks : KeyState} {n m : Comp} {k : LinkId} {l : List Comp}

/-! ### The records of the computers -/

theorem keysPass_congr (hp : t.port m = s.port m) (hk : t.lastKey m = s.lastKey m) :
    keysPass m ks t = keysPass m ks s := by
  unfold keysPass; rw [hp, hk]

theorem visibleKeys_congr (hk : t.keyboard = s.keyboard) (hm : t.router.mask = s.router.mask) :
    visibleKeys t = visibleKeys s := by
  unfold visibleKeys; rw [hk, hm]

/-- Whether the held set minus the mask is queued for a computer. -/
def recordDue (s : State) (m : Comp) : Bool := isRecipient s m && keysPass m (visibleKeys s) s

/-- A key-state record has been handed to each computer of a list for which one is due (R50, R52, R75, R151). -/
structure RecordsHanded (l : List Comp) (s v : State) : Prop where
  handed : ∀ m, m ∈ l → recordDue s m = true →
    v.port m = pushKey (shapeKeys (s.port m).keyFormat (visibleKeys s)) (s.port m) ∧
    v.lastKey m = some (shapeKeys (s.port m).keyFormat (visibleKeys s)) ∧
    v.control m = { s.control m with lastDesk := some s.now }
  kept : ∀ m, m ∉ l ∨ recordDue s m = false →
    v.port m = s.port m ∧ v.lastKey m = s.lastKey m ∧ v.control m = s.control m
  rest : v = { s with
    ports := v.ports, controls := v.controls, router := { s.router with lastKey := v.router.lastKey }
    sup := l.foldl (fun u m => if recordDue s m then toldKey m (s.port m) u else u) s.sup }

theorem recordFor_undue (h : recordDue s m = false) : recordFor s m = s := by
  unfold recordFor
  split
  next hr =>
    have hp : keysPass m (visibleKeys s) s = false := by simpa only [recordDue, hr, Bool.true_and] using h
    unfold deliverKeys
    simp only [keysPass, Bool.not_eq_false'] at hp
    simp [hp]
  next => rfl

theorem recordFor_due (h : recordDue s m = true) : recordFor s m = deliverKeys .desk m (visibleKeys s) s := by
  unfold recordFor
  rw [if_pos (Bool.and_eq_true_iff.mp h).1]

/-- The record of one computer. -/
theorem recordFor_handed (s : State) (n : Comp) : RecordsHanded [n] s (recordFor s n) := by
  by_cases hd : recordDue s n = true
  · have hpass := (Bool.and_eq_true_iff.mp hd).2
    have heff := fun m => deliverKeys_effect .desk n m (visibleKeys s) s
    have hsup := deliverKeys_sup .desk n (visibleKeys s) s
    have hdel := deliverKeys_delivers .desk n (visibleKeys s) s
    have hkept := deliverKeys_routerKept .desk n (visibleKeys s) s
    rw [recordFor_due hd]
    generalize deliverKeys .desk n (visibleKeys s) s = v at *
    dsimp only at heff
    have hptr : v.router.lastPointer = s.router.lastPointer := vector_ext fun m => (heff m).2.2
    refine ⟨fun m hm _ => ?_, fun m hm => (heff m).2.1 fun h => ?_, ?_⟩
    · obtain rfl := List.mem_singleton.mp hm
      exact (heff m).1 ⟨rfl, hpass⟩
    · obtain ⟨rfl, -⟩ := h
      rcases hm with hm | hm
      · exact hm (List.mem_singleton.mpr rfl)
      · rw [hd] at hm; cases hm
    · unfold routerKept at hkept
      rw [hptr] at hkept
      unfold Delivers at hdel
      rw [List.foldl_cons, List.foldl_nil, if_pos hd, ← hkept, ← (hsup.trans (if_pos hpass))]
      exact hdel
  · have hf : recordDue s n = false := Bool.not_eq_true _ ▸ hd
    rw [recordFor_undue hf]
    refine ⟨fun m hm h => ?_, fun m _ => ⟨rfl, rfl, rfl⟩, ?_⟩
    · obtain rfl := List.mem_singleton.mp hm
      exact absurd h hd
    · rw [List.foldl_cons, List.foldl_nil, if_neg hd]

theorem RecordsHanded.recipients (h : RecordsHanded l s v) (m : Comp) : isRecipient v m = isRecipient s m := by
  refine isRecipient_congr (by rw [h.rest]) (by rw [h.rest]) (by rw [h.rest]) (by rw [h.rest]) (fun j => ?_) (fun j => ?_) m
  all_goals
    by_cases hj : j ∈ l ∧ recordDue s j = true
    · obtain ⟨h1, -, h3⟩ := h.handed j hj.1 hj.2
      simp [h1, h3]
    · obtain ⟨h1, -, h3⟩ := h.kept j (by simpa only [not_and_or, Bool.not_eq_true] using hj)
      simp [h1, h3]

theorem RecordsHanded.visible (h : RecordsHanded l s v) : visibleKeys v = visibleKeys s :=
  visibleKeys_congr (by rw [h.rest]) (by rw [h.rest])

/-- A computer outside the list is due a record afterwards just as before. -/
theorem RecordsHanded.due (h : RecordsHanded l s v) (hm : m ∉ l) : recordDue v m = recordDue s m := by
  obtain ⟨h1, h2, -⟩ := h.kept m (.inl hm)
  unfold recordDue
  rw [h.recipients, h.visible, keysPass_congr h1 h2]

theorem recordsFor_handed (hl : l.Nodup) (s : State) : RecordsHanded l s (l.foldl recordFor s) := by
  induction l generalizing s with
  | nil => exact ⟨fun m hm => (List.not_mem_nil hm).elim, fun m _ => ⟨rfl, rfl, rfl⟩, rfl⟩
  | cons x l ih =>
    obtain ⟨hx, hl'⟩ := List.nodup_cons.1 hl
    have h1 := recordFor_handed s x
    rw [List.foldl_cons]
    generalize recordFor s x = w at h1
    have h2 := ih hl' w
    generalize l.foldl recordFor w = v at h2
    have hout (m : Comp) (hm : m ≠ x) := h1.kept m (.inl (by simpa using hm))
    have hdue (m : Comp) (hm : m ≠ x) : recordDue w m = recordDue s m := h1.due (by simpa using hm)
    have hnow : w.now = s.now := by rw [h1.rest]
    refine ⟨fun m hm hd => ?_, fun m hm => ?_, ?_⟩
    · rcases List.mem_cons.mp hm with rfl | hm
      · obtain ⟨g1, g2, g3⟩ := h2.kept m (.inl hx)
        rw [g1, g2, g3]
        exact h1.handed m (List.mem_singleton.mpr rfl) hd
      · have hne : m ≠ x := fun e => hx (e ▸ hm)
        have g := h2.handed m hm ((hdue m hne).trans hd)
        rwa [h1.visible, (hout m hne).1, (hout m hne).2.2, hnow] at g
    · by_cases hmx : m = x
      · subst hmx
        have hd : recordDue s m = false := hm.resolve_left fun h => h (List.mem_cons_self ..)
        obtain ⟨g1, g2, g3⟩ := h2.kept m (.inl hx)
        rw [g1, g2, g3]
        exact h1.kept m (.inr hd)
      · obtain ⟨g1, g2, g3⟩ := h2.kept m
          (hm.imp (fun h g => h (List.mem_cons_of_mem _ g)) fun h => (hdue m hmx).trans h)
        rw [g1, g2, g3]
        exact hout m hmx
    · have hfold (y : Supervisor) : l.foldl (fun u m => if recordDue w m then toldKey m (w.port m) u else u) y =
          l.foldl (fun u m => if recordDue s m then toldKey m (s.port m) u else u) y := by
        refine List.foldl_ext _ _ _ fun y m hm => ?_
        have hne : m ≠ x := fun e => hx (e ▸ hm)
        rw [hdue m hne, (hout m hne).1]
      have hsup : w.sup = if recordDue s x then toldKey x (s.port x) s.sup else s.sup := by rw [h1.rest]; rfl
      have g := h2.rest
      rw [hfold, hsup] at g
      rw [List.foldl_cons]
      conv_lhs => rw [g]
      rw [h1.rest]

/-! ### The frames of the links -/

theorem sendKeys_same (h : s.linkKeys k = ks) : sendKeys k ks s = s := if_pos h

theorem sendKeys_new (h : s.linkKeys k ≠ ks) : sendKeys k ks s = setLinkKeys k ks (sendFrame k (.keys ks) s) := if_neg h

/-- Only the link that the focus is on is a recipient. -/
theorem linkIsRecipient_eq (s : State) (k : LinkId) :
    linkIsRecipient s k = (decide (s.blank.state = .clear) && decide (s.focus.target = .rem k) && decide ((s.link k).viewer = .held)) := by
  unfold linkIsRecipient blanked
  congr 1
  congr 1
  rw [bne, Bool.not_not]
  rfl

theorem keysFor_other (h : linkIsRecipient s k = false) : keysFor s k = s := by
  unfold keysFor
  rw [if_neg (by rw [h]; exact Bool.false_ne_true)]

theorem keysFor_recipient (h : linkIsRecipient s k = true) : keysFor s k = sendKeys k (visibleKeys s) s := if_pos h

/-- No link is sent a frame where none is a recipient. -/
theorem keysFor_none (h : ∀ k, linkIsRecipient s k = false) : allLinks.foldl keysFor s = s := by
  simp only [allLinks, List.foldl_cons, List.foldl_nil, keysFor_other (h _)]

theorem linkIsRecipient_focus (h : ∀ k, s.focus.target ≠ .rem k) (k : LinkId) : linkIsRecipient s k = false := by
  simp [linkIsRecipient_eq, h k]

theorem linkIsRecipient_other (h : s.focus.target = .rem k) {j : LinkId} (hj : j ≠ k) : linkIsRecipient s j = false := by
  simp [linkIsRecipient_eq, h, Ne.symm hj]

theorem keysFor_focusKept (s : State) (k : LinkId) : (keysFor s k).focus = s.focus := by
  unfold keysFor sendKeys
  split
  · split <;> rfl
  · rfl

/-- With the focus on a lane, its link alone can be sent a frame. -/
theorem keysFor_focused (h : s.focus.target = .rem k) : allLinks.foldl keysFor s = keysFor s k := by
  have hk (j : LinkId) (hj : j ≠ k) : keysFor s j = s := keysFor_other (linkIsRecipient_other h hj)
  have hv (j : LinkId) (hj : j ≠ k) : keysFor (keysFor s k) j = keysFor s k :=
    keysFor_other (linkIsRecipient_other (by rw [keysFor_focusKept, h]) hj)
  simp only [allLinks, List.foldl_cons, List.foldl_nil]
  rcases LinkId.zero_or_one k with rfl | rfl
  · exact hv 1 (by decide)
  · rw [hk 0 (by decide)]

/-! ### The records and the frames -/

theorem isRecipient_none (h : s.blank.state ≠ .clear ∨ ∀ n, s.focus.target ≠ .loc n) (m : Comp) : isRecipient s m = false := by
  unfold isRecipient
  split
  next n hn =>
    rcases h with h | h
    · simp [blanked, h]
    · exact absurd hn (h n)
  next => rfl

theorem recordDue_none (h : ∀ m, isRecipient s m = false) (m : Comp) : recordDue s m = false := by
  unfold recordDue; rw [h, Bool.false_and]

theorem recordsFor_none (h : ∀ m, recordDue s m = false) (l : List Comp) : l.foldl recordFor s = s := by
  induction l with
  | nil => rfl
  | cons x l ih => rw [List.foldl_cons, recordFor_undue (h x)]; exact ih

/-- Nothing is formed where there is no recipient. -/
theorem sendRecords_none (h : ∀ m, isRecipient s m = false) (hl : ∀ k, linkIsRecipient s k = false) : sendRecords s = s := by
  unfold sendRecords
  rw [recordsFor_none (recordDue_none h), keysFor_none hl]

theorem sendRecords_blanked (h : s.blank.state ≠ .clear ∨ s.focus.target = .none) : sendRecords s = s := by
  refine sendRecords_none (isRecipient_none (h.imp_right fun g n => ?_)) fun k => ?_
  · rw [g]; exact FocusTarget.noConfusion
  · rcases h with h | h <;> simp [linkIsRecipient_eq, h]

theorem sendRecords_rem (h : s.focus.target = .rem k) : sendRecords s = keysFor s k := by
  unfold sendRecords
  rw [recordsFor_none (recordDue_none (isRecipient_none (.inr fun n => ?_))), keysFor_focused h]
  rw [h]; exact FocusTarget.noConfusion

/-- With no link a recipient, the records are those of the computers. -/
theorem sendRecords_handed (h : ∀ k, linkIsRecipient s k = false) : RecordsHanded allComps s (sendRecords s) := by
  have hd := recordsFor_handed (l := allComps) (by decide) s
  have hs : sendRecords s = allComps.foldl recordFor s := by
    refine keysFor_none fun k => ?_
    rw [hd.rest]
    exact h k
  rw [hs]
  exact hd

/-- What the records and the frames of a key event leave (R50, R52, R56). -/
structure KeysFormed (s v : State) : Prop where
  handed : ∀ m, recordDue s m = true →
    v.port m = pushKey (shapeKeys (s.port m).keyFormat (visibleKeys s)) (s.port m) ∧
    v.lastKey m = some (shapeKeys (s.port m).keyFormat (visibleKeys s)) ∧
    v.control m = { s.control m with lastDesk := some s.now }
  kept : ∀ m, recordDue s m = false → v.port m = s.port m ∧ v.lastKey m = s.lastKey m ∧ v.control m = s.control m
  sent : ∀ k, linkIsRecipient s k = true → s.linkKeys k ≠ visibleKeys s →
    v.link k = enqueueFrame (.keys (visibleKeys s)) (s.link k) ∧ v.linkKeys k = visibleKeys s
  unsent : ∀ k, linkIsRecipient s k = false ∨ s.linkKeys k = visibleKeys s →
    v.link k = s.link k ∧ v.linkKeys k = s.linkKeys k
  rest : v = { s with
    ports := v.ports, controls := v.controls, links := v.links
    router := { s.router with lastKey := v.router.lastKey, linkKeys := v.router.linkKeys }
    sup := allComps.foldl (fun u m => if recordDue s m then toldKey m (s.port m) u else u) s.sup }

theorem told_none (h : ∀ m, recordDue s m = false) (l : List Comp) (y : Supervisor) :
    l.foldl (fun u m => if recordDue s m then toldKey m (s.port m) u else u) y = y := by
  simp only [h, Bool.false_eq_true, if_false, List.foldl_fixed]

theorem sendRecords_formed (s : State) : KeysFormed s (sendRecords s) := by
  by_cases hr : ∃ k, linkIsRecipient s k = true
  · obtain ⟨k, hk⟩ := hr
    have hf : s.focus.target = .rem k := by
      simp only [linkIsRecipient_eq, Bool.and_eq_true, decide_eq_true_eq] at hk
      exact hk.1.2
    have hnone := recordDue_none (isRecipient_none (s := s) (.inr fun n => by rw [hf]; exact FocusTarget.noConfusion))
    have hother (j : LinkId) (h : linkIsRecipient s j = true) : j = k := by
      by_contra hj
      rw [linkIsRecipient_other hf hj] at h
      cases h
    rw [sendRecords_rem hf, keysFor_recipient hk]
    by_cases he : s.linkKeys k = visibleKeys s
    · rw [sendKeys_same he]
      refine ⟨fun m h => ?_, fun m _ => ⟨rfl, rfl, rfl⟩, fun j hj hn => ?_, fun j _ => ⟨rfl, rfl⟩, ?_⟩
      · rw [hnone m] at h; cases h
      · rw [hother j hj] at hn; exact absurd he hn
      · rw [told_none hnone]
    · rw [sendKeys_new he]
      refine ⟨fun m h => ?_, fun m _ => ⟨rfl, rfl, rfl⟩, fun j hj _ => ?_, fun j hj => ?_, ?_⟩
      · rw [hnone m] at h; cases h
      · obtain rfl := hother j hj
        simp [setLinkKeys_linkKeys, sendFrame]
      · have hjk : j ≠ k := by
          rintro rfl
          rcases hj with hj | hj
          · rw [hk] at hj; cases hj
          · exact he hj
        refine ⟨by simp [sendFrame, State.modLink_link, hjk], ?_⟩
        rw [setLinkKeys_linkKeys, if_neg hjk, sendFrame_linkKeys]
      · rw [told_none hnone]; rfl
  · have hl (k : LinkId) : linkIsRecipient s k = false := by
      by_contra h
      exact hr ⟨k, by simpa using h⟩
    have h := sendRecords_handed hl
    generalize sendRecords s = v at h
    have hrest := h.rest
    refine ⟨fun m hd => h.handed m (mem_allComps m) hd, fun m hd => h.kept m (.inr hd), fun k hk => ?_, fun k _ => ?_, ?_⟩
    · rw [hl k] at hk; cases hk
    · exact ⟨by rw [hrest]; rfl, by rw [hrest]; rfl⟩
    · have hlinks : v.links = s.links := by rw [hrest]
      have hkeys : v.router.linkKeys = s.router.linkKeys := by rw [hrest]
      rw [hlinks, hkeys]
      exact hrest

end Sys2Proof.Machine
end

section
/-! The keyboard's attach and detach (O29). -/

open Sys2Proof Sys2Proof.Machine

/-- Settles O29: the attach sends the wanted lights, and the detach forms the records and the frame of the empty key state. -/
theorem keyboardAttachAndDetach : Obligations.KeyboardAttachAndDetach := by
  intro s
  refine ⟨?_, ?_⟩
  · obtain ⟨hk, hr⟩ := checkLights_effect (s.modKeyboard fun p => { p with attached := true, held := KeyState.empty })
    change done (keyboardAttach s) = _
    unfold keyboardAttach
    rw [hr, hk]
    rfl
  let x : State := { s with
    keyboard := { s.keyboard with attached := false, held := ⟨0, []⟩, lightsSent := none }
    matcher := { s.matcher with state := .idle }
    router := { s.router with mask := ⟨0, []⟩ } }
  have hf := sendRecords_formed x
  refine ⟨handedOn (sendRecords x), rfl, ?_⟩
  generalize sendRecords x = v at hf
  have hrest := hf.rest
  have hx : visibleKeys x = KeyState.empty := by simp [visibleKeys, KeyState.empty, x]
  have hdue (m : Comp) : recordDue x m = (isRecipient s m && keysPass m KeyState.empty s) := by
    rw [recordDue, hx]; rfl
  have hlink (k : LinkId) : linkIsRecipient x k = linkIsRecipient s k := rfl
  have hhanded (m : Comp) : (if isRecipient s m then emptyRecordDue s m else none) =
      if recordDue x m then some (shapeKeys (s.port m).keyFormat KeyState.empty) else none := by
    rw [hdue, emptyRecordDue_eq]
    cases isRecipient s m <;> simp
  refine ⟨by rw [hrest]; rfl, by rw [hrest]; rfl, by rw [hrest]; rfl, fun m r hm => ?_, fun m hm => ?_, fun k => ?_, ?_⟩
  · have hm := (hhanded m).symm.trans hm
    split at hm
    next hd =>
      obtain rfl := Option.some.inj hm
      rw [← hx]
      exact hf.handed m hd
    next => cases hm
  · have hm := (hhanded m).symm.trans hm
    split at hm
    next => cases hm
    next hd => exact hf.kept m (Bool.not_eq_true _ ▸ hd)
  · intro sent
    have hsent : sent ↔ linkIsRecipient x k = true ∧ x.linkKeys k ≠ visibleKeys x := by
      rw [hlink, linkIsRecipient_eq, hx]
      simp only [sent, Bool.and_eq_true, decide_eq_true_eq, KeyState.empty]
      tauto
    refine ⟨fun h => ?_, fun h => ?_⟩
    · obtain ⟨h1, h2⟩ := hsent.mp h
      have := hf.sent k h1 h2
      rwa [hx] at this
    · refine hf.unsent k ?_
      by_cases h1 : linkIsRecipient x k = true
      · exact .inr (by_contra fun h2 => h (hsent.mpr ⟨h1, h2⟩))
      · exact .inl (Bool.not_eq_true _ ▸ h1)
  · have hfold (y : Supervisor) :
        allComps.foldl (fun u m => if recordDue x m then toldKey m (x.port m) u else u) y =
          allComps.foldl (fun u m => if (if isRecipient s m then emptyRecordDue s m else none) = none then u
            else toldKey m (s.port m) u) y := by
      refine List.foldl_ext _ _ _ fun y m _ => ?_
      rw [hhanded]
      cases recordDue x m <;> rfl
    rw [hfold] at hrest
    conv_lhs => rw [hrest]
    rw [hrest]
    rfl

end

section
/-!
SUPPORT. Steps 3 to 5 of R50: what a key event hands on from the state that its matcher step has left.
-/

namespace Sys2Proof.Machine

open Sys2Proof

variable {s x : State} {n m : Comp} {k : LinkId} {press : Bool}

/-! ### The view-only drop and the wake trigger -/

theorem countAndWake_other (h : x.blank.state ≠ .clear ∨ ∀ n, x.focus.target ≠ .loc n) : countAndWake press x = x := by
  unfold countAndWake
  split
  next n hn =>
    rcases h with h | h
    · rw [if_neg (by simp [blanked, h])]
    · exact absurd hn (h n)
  next => rfl

theorem countAndWake_detached (hf : x.focus.target = .loc n) (hb : (x.port n).bus = .detached) :
    countAndWake press x = x := by
  unfold countAndWake
  simp [hf, hb, BusState.present]

theorem countAndWake_held (hc : x.blank.state = .clear) (hf : x.focus.target = .loc n) (hb : (x.port n).bus ≠ .detached)
    (hh : (x.control n).holder = .link k) : countAndWake press x = countViewOnly n x := by
  unfold countAndWake
  simp [hf, hb, BusState.present, blanked, hc, hh]

theorem countAndWake_desk (hc : x.blank.state = .clear) (hf : x.focus.target = .loc n) (hb : (x.port n).bus ≠ .detached)
    (hh : (x.control n).holder = .desk) : countAndWake press x = woken n press x := by
  unfold countAndWake
  simp [hf, hb, BusState.present, blanked, hc, hh, wakeIfSuspended_eq]

/-! ### Who a key event reaches -/

/-- The computers that a key event reaches under a focus computer that the desk holds (R53). -/
theorem isRecipient_desk (hc : x.blank.state = .clear) (hf : x.focus.target = .loc n) (hb : (x.port n).bus ≠ .detached)
    (hh : (x.control n).holder = .desk) (m : Comp) :
    isRecipient x m = (m == n || (x.router.broadcast && (x.comp n).member && (x.comp m).member &&
      (x.comp m).zone == (x.comp n).zone && (x.port m).bus != .detached && (x.control m).holder == .desk)) := by
  unfold isRecipient
  simp only [hf, blanked, hc, BusState.present, hh]
  simp [hb]

theorem isRecipient_away (hf : x.focus.target = .loc n) (h : (x.port n).bus = .detached ∨ (x.control n).holder ≠ .desk) :
    isRecipient x m = false := by
  unfold isRecipient
  simp only [hf, BusState.present]
  rcases h with h | h <;> simp [h]

/-- A recipient under a focus computer that the desk holds is not DETACHED. -/
theorem isRecipient_present (h : isRecipient x m = true) : (x.port m).bus ≠ .detached := by
  intro hb
  unfold isRecipient at h
  split at h
  next n _ =>
    simp only [BusState.present, Bool.and_eq_true, Bool.or_eq_true, bne_iff_ne, beq_iff_eq] at h
    rcases h with ⟨⟨⟨-, hn⟩, -⟩, rfl | ⟨⟨-, hm⟩, -⟩⟩
    · exact hn hb
    · exact hm hb
  next => cases h

theorem sendRecords_away (hf : x.focus.target = .loc n) (h : (x.port n).bus = .detached ∨ (x.control n).holder ≠ .desk) :
    sendRecords x = x :=
  sendRecords_none (fun _ => isRecipient_away hf h)
    (linkIsRecipient_focus fun k => by rw [hf]; exact FocusTarget.noConfusion)

/-- Whether a record is due under a focus computer that the desk holds: to it and to the members of its zone, unless it equals
the last one queued (R52, R53). -/
theorem recordDue_desk (hc : x.blank.state = .clear) (hf : x.focus.target = .loc n) (hb : (x.port n).bus ≠ .detached)
    (hh : (x.control n).holder = .desk) (m : Comp) :
    ((m == n || (x.router.broadcast && (x.comp n).member && (x.comp m).member && (x.comp m).zone == (x.comp n).zone &&
        (x.port m).bus != .detached && (x.control m).holder == .desk)) &&
      !(match x.lastKey m with
        | some q => q.mods == (shapeKeys (x.port m).keyFormat (visibleKeys x)).mods &&
            q.keys == (shapeKeys (x.port m).keyFormat (visibleKeys x)).keys
        | none => (shapeKeys (x.port m).keyFormat (visibleKeys x)).mods == 0 &&
            (shapeKeys (x.port m).keyFormat (visibleKeys x)).keys == [])) = recordDue x m := by
  have hr := isRecipient_desk hc hf hb hh m
  unfold recordDue
  rw [← hr]
  by_cases hr : isRecipient x m = true
  · rw [keysPass_eq, hr]
    have hm : ((x.port m).bus != .detached) = true := bne_iff_ne.mpr (isRecipient_present hr)
    rw [hm]
    cases x.lastKey m <;> rfl
  · have hf : isRecipient x m = false := Bool.not_eq_true _ ▸ hr
    rw [hf]; rfl

theorem KeysFormed.bus (h : KeysFormed x s) (m : Comp) : (s.port m).bus = (x.port m).bus := by
  by_cases hd : recordDue x m = true
  · rw [(h.handed m hd).1, pushKey_bus]
  · rw [(h.kept m (Bool.not_eq_true _ ▸ hd)).1]

theorem KeysFormed.holder (h : KeysFormed x s) (m : Comp) : (s.control m).holder = (x.control m).holder := by
  by_cases hd : recordDue x m = true
  · rw [(h.handed m hd).2.2]
  · rw [(h.kept m (Bool.not_eq_true _ ▸ hd)).2.2]

theorem KeysFormed.links_kept (h : KeysFormed x s) (hl : ∀ k, linkIsRecipient x k = false) :
    s = { x with
      ports := s.ports, controls := s.controls, router := { x.router with lastKey := s.router.lastKey }
      sup := allComps.foldl (fun u m => if recordDue x m then toldKey m (x.port m) u else u) x.sup } := by
  have hlinks : s.links = x.links := vector_ext fun k => (h.unsent k (.inl (hl k))).1
  have hkeys : s.router.linkKeys = x.router.linkKeys := vector_ext fun k => (h.unsent k (.inl (hl k))).2
  have hrest := h.rest
  rw [hlinks, hkeys] at hrest
  exact hrest

/-- Steps 3 to 5 of R50 from the state that the matcher step has left. -/
theorem keysHandedOn (press : Bool) (x : State) :
    handsKeysOn press x (.next (handedOn (countAndWake press (sendRecords x)))) := by
  refine ⟨fun h => ?_, fun n hc hf => ⟨fun hb => ?_, fun k hb hh => ?_, fun hb hh => ?_⟩, fun k hc hf => ⟨fun h => ?_, fun hv hn => ?_⟩⟩
  · rw [sendRecords_blanked h, countAndWake_other (h.imp_right fun g n => by rw [g]; exact FocusTarget.noConfusion)]
  · rw [sendRecords_away hf (.inl hb), countAndWake_detached hf hb]
  · rw [sendRecords_away hf (.inr (by rw [hh]; exact Holder.noConfusion)), countAndWake_held hc hf hb hh]
    refine ⟨_, rfl, ?_, fun m hm => ?_, rfl⟩
    · simp only [countViewOnly, handedOn_port, State.modPort_port, if_true, count, countBy, Config.countMax]
    · simp [countViewOnly, handedOn, State.modPort_port, hm]
  · intro shaped same member gets
    have h := sendRecords_formed x
    generalize sendRecords x = v at h
    have hrest := h.rest
    have hshaped (m : Comp) : shaped m = shapeKeys (x.port m).keyFormat (visibleKeys x) :=
      (shapeKeys_eq (x.port m).keyFormat (visibleKeys x)).symm
    have hgets (m : Comp) : gets m = recordDue x m := by
      have hdue := recordDue_desk hc hf hb hh m
      rw [← hshaped m] at hdue
      exact hdue
    have hl := linkIsRecipient_focus (s := x) fun k => by rw [hf]; exact FocusTarget.noConfusion
    refine ⟨v, ?_, fun m hm => ?_, fun m hm => h.kept m ((hgets m).symm.trans hm), ?_⟩
    · have hbus : (v.port n).bus = (x.port n).bus := h.bus n
      rw [countAndWake_desk (by rw [hrest]; exact hc) (by rw [hrest]; exact hf) (by rw [hbus]; exact hb) (by rw [h.holder]; exact hh)]
    · rw [hshaped]
      exact h.handed m ((hgets m).symm.trans hm)
    · simp only [hgets]
      exact h.links_kept hl
  · have hnone : countAndWake press x = x := countAndWake_other (.inr fun n => by rw [hf]; exact FocusTarget.noConfusion)
    have hsame : sendRecords x = x := by
      rw [sendRecords_rem hf]
      by_cases hr : linkIsRecipient x k = true
      · have hv : (x.link k).viewer = .held := by
          simp only [linkIsRecipient_eq, Bool.and_eq_true, decide_eq_true_eq] at hr
          exact hr.2
        rw [keysFor_recipient hr, sendKeys_same (ks := visibleKeys x) (h.resolve_left fun g => g hv)]
      · exact keysFor_other (Bool.not_eq_true _ ▸ hr)
    rw [hsame, hnone]
  · have hr : linkIsRecipient x k = true := by simp [linkIsRecipient_eq, hc, hf, hv]
    have hs : sendRecords x = setLinkKeys k (visibleKeys x) (sendFrame k (.keys (visibleKeys x)) x) := by
      rw [sendRecords_rem hf, keysFor_recipient hr, sendKeys_new (ks := visibleKeys x) hn]
    rw [hs, countAndWake_other (.inr fun n => by exact fun g => FocusTarget.noConfusion (hf.symm.trans g))]
    refine ⟨_, rfl, ?_, fun j hj => ?_, ?_, fun j hj => ?_, rfl⟩
    · exact (State.modLink_link ..).trans (if_pos rfl)
    · exact (State.modLink_link ..).trans (if_neg hj)
    · exact (setLinkKeys_linkKeys ..).trans (if_pos rfl)
    · exact (setLinkKeys_linkKeys ..).trans (if_neg hj)

end Sys2Proof.Machine
end

section
/-!
SUPPORT. What an action leaves of the desk keyboard and the matcher, when it is refused, and the computer that a step of the focus
selects (R42, R80 to R82, R96).
-/

namespace Sys2Proof.Machine

open Sys2Proof

variable {s t u : State}

/-! ### The desk keyboard -/

/-- Nothing of the desk keyboard has changed but the lights it has been sent. -/
def keyboardLit (s u : State) : Prop := u.keyboard = { s.keyboard with lightsSent := u.keyboard.lightsSent }

theorem keyboardLit.of_eq (h : u.keyboard = s.keyboard) : keyboardLit s u := by
  unfold keyboardLit; rw [h]

theorem keyboardLit.refl (s : State) : keyboardLit s s := .of_eq rfl

theorem keyboardLit.trans (h : keyboardLit s t) (g : keyboardLit t u) : keyboardLit s u := by
  unfold keyboardLit at *
  rw [g, h]

theorem keyboardLit.held (h : keyboardLit s u) : u.keyboard.held = s.keyboard.held := by
  unfold keyboardLit at h; rw [h]

theorem keyboardLit.attached (h : keyboardLit s u) : u.keyboard.attached = s.keyboard.attached := by
  unfold keyboardLit at h; rw [h]

theorem keyboardLit.rollovers (h : keyboardLit s u) : u.keyboard.rollovers = s.keyboard.rollovers := by
  unfold keyboardLit at h; rw [h]

theorem keyboardLit.ignoredPresses (h : keyboardLit s u) : u.keyboard.ignoredPresses = s.keyboard.ignoredPresses := by
  unfold keyboardLit at h; rw [h]

/-! ### The matcher and the keyboard after an action -/

/-- An action leaves the matcher but for its state, and the desk keyboard but for its lights. -/
structure InputKept (s u : State) : Prop where
  matcher : u.matcher = { s.matcher with state := u.matcher.state }
  keyboard : keyboardLit s u

theorem InputKept.of_eq (hm : u.matcher = s.matcher) (hk : keyboardLit s u) : InputKept s u := ⟨by rw [hm], hk⟩

theorem InputKept.same (hm : u.matcher = s.matcher) (hk : u.keyboard = s.keyboard) : InputKept s u := .of_eq hm (.of_eq hk)

theorem InputKept.refl (s : State) : InputKept s s := .same rfl rfl

theorem InputKept.trans (h : InputKept s t) (g : InputKept t u) : InputKept s u := by
  refine ⟨?_, h.keyboard.trans g.keyboard⟩
  rw [g.matcher, h.matcher]

theorem InputKept.foldl {α : Type} {f : State → α → State} (h : ∀ s x, InputKept s (f s x)) (l : List α) (s : State) :
    InputKept s (l.foldl f s) := by
  induction l generalizing s with
  | nil => exact .refl s
  | cons x l ih => exact (h s x).trans (ih _)

theorem Governs.inputKept (h : Governs s u) : InputKept s u := by
  unfold Governs at h; exact .same (by rw [h]) (by rw [h])

theorem Wakes.inputKept (h : Wakes s u) : InputKept s u := by
  unfold Wakes at h; exact .same (by rw [h]) (by rw [h])

theorem writePlaced_inputKept (f : FocusTarget) (o : Origin) (m : Option Monitor) (s : State) :
    InputKept s (writePlaced f o m s) := by
  have h := writePlaced_written f o m s
  generalize writePlaced f o m s = u at h
  refine .of_eq (by rw [h.rest]) ?_
  by_cases ht : f = s.focus.target
  · obtain ⟨⟨-, -, -, -, hk, -⟩, -⟩ := h.same ht
    exact .of_eq hk
  · obtain ⟨-, -, -, -, hk, -⟩ := h.changed ht
    unfold keyboardLit
    rw [hk]
    split <;> rfl

theorem focusBy_inputKept (f : FocusTarget) (o : Origin) (s : State) : InputKept s (focusBy f o s) :=
  writePlaced_inputKept ..

theorem focusBlank_inputKept (old s : State) : InputKept s (focusBlank old s) := by
  have h1 : InputKept s ((maskHeld s).setFocus ⟨s.focus.target, .blank, s.focus.tile⟩) := .same rfl rfl
  have h2 := (clearCapture_governs ((maskHeld s).setFocus ⟨s.focus.target, .blank, s.focus.tile⟩)).inputKept
  have h3 := (releaseLeavers_releases old
    (clearCapture ((maskHeld s).setFocus ⟨s.focus.target, .blank, s.focus.tile⟩))).toGoverns.inputKept
  refine ((h1.trans h2).trans h3).trans ?_
  unfold focusBlank
  rw [noticeFocus_eq]
  exact .same rfl rfl

theorem engageBy_inputKept (src : Sources) (c : BlankCause) (s : State) : InputKept s (engageBy src c s) := by
  unfold engageBy
  split
  · have h : InputKept s (focusBlank s (s.modBlank fun u => { u with state := .engaged src })) :=
      InputKept.trans (t := s.modBlank fun u => { u with state := .engaged src }) (.same rfl rfl) (focusBlank_inputKept s _)
    exact h.trans (.same rfl rfl)
  · split
    · exact .refl s
    · exact .same rfl rfl
  · exact .same rfl rfl

theorem switchTo_inputKept (o : OutputId) (x : Target) (s : State) : InputKept s (switchTo o x s).state := by
  unfold switchTo
  extract_lets
  split
  · exact .refl s
  split
  · exact .refl s
  split <;> exact .same rfl rfl

theorem recallSlot_inputKept (i : Fin 16) (s : State) : InputKept s (recallSlot i s).state := by
  unfold recallSlot
  split
  next c _ =>
    have h : InputKept s ((c.entries.filter fun e => !entrySkipped s e).foldl (fun s e => takeTarget (monitorOut e.1) e.2 s) s) :=
      InputKept.foldl (fun y (e : Monitor × Target) => InputKept.same (u := takeTarget (monitorOut e.1) e.2 y) rfl rfl) _ _
    unfold recallScene
    dsimp only
    split
    · exact h.trans (writePlaced_inputKept ..)
    · exact h
  next => exact .refl s

theorem runStep_inputKept (next : Bool) (src : FireSource) (s : State) : InputKept s (runStep next src s).state := by
  unfold runStep
  split
  · exact focusBy_inputKept ..
  · exact .refl s

theorem wakeTrigger_inputKept (n : Comp) (s : State) : InputKept s (wakeTrigger n s).state := (wakeTrigger_wakes n s).inputKept

theorem runAction_inputKept (a : Action) (src : FireSource) (s : State) : InputKept s (runAction a src s).state := by
  cases a with
  | lead => exact ⟨rfl, .refl s⟩
  | focus n => exact focusBy_inputKept ..
  | focusNext => exact runStep_inputKept ..
  | focusPrev => exact runStep_inputKept ..
  | switch o x => exact switchTo_inputKept o x s
  | recallSlot i => exact recallSlot_inputKept i s
  | broadcastToggle =>
    have h := (rederive_releases s (s.modRouter fun r => { r with broadcast := !r.broadcast })).toGoverns.inputKept
    exact InputKept.trans (t := s.modRouter fun r => { r with broadcast := !r.broadcast }) (.same rfl rfl) h
  | blank =>
    change InputKept s (runBlank src s).state
    unfold runBlank
    split <;> exact engageBy_inputKept ..
  | resumeBlank =>
    change InputKept s (runResumeBlank s).state
    unfold runResumeBlank resumeEffect
    split
    · exact .refl s
    · change InputKept s (match s.blank.state with | .clear => s | _ => goClear .resume s)
      split
      · exact .refl s
      · exact .same rfl rfl
  | wake n =>
    change InputKept s (runWake n src s).state
    unfold runWake
    split
    · exact (focusBy_inputKept ..).trans (wakeTrigger_inputKept ..)
    · split
      · exact wakeTrigger_inputKept ..
      · exact .refl s
  | takeBack =>
    change InputKept s (runTakeBack s).state
    unfold runTakeBack
    split
    · exact (takeBack_governs ..).inputKept
    · exact .refl s
  | grant =>
    change InputKept s (runGrant s).state
    unfold runGrant
    split
    · split
      · exact .refl s
      · exact (grantControl_governs ..).inputKept
    · exact .refl s
  | claim =>
    change InputKept s (runClaim s).state
    unfold runClaim
    split
    · split
      · exact (claimControl_governs ..).inputKept
      · exact .refl s
    · exact .refl s
  | release =>
    change InputKept s (runRelease s).state
    unfold runRelease
    split
    · split
      · exact .refl s
      · exact (releaseControl_governs ..).inputKept
    · exact .refl s
  | notify => exact .same rfl rfl

/-- An entry that fires leaves the desk keyboard but for its lights. -/
theorem fire_keyboardLit (a : Action) (src : FireSource) (s : State) : keyboardLit s (fire a src s) := by
  unfold fire
  dsimp only
  split
  · exact .of_eq rfl
  · have h : keyboardLit s (runAction a src (countFired s)).state :=
      keyboardLit.trans (.of_eq rfl) (runAction_inputKept a src (countFired s)).keyboard
    split
    · exact h
    · exact h.trans (.of_eq rfl)

/-! ### What is answered -/

/-- A judgement that is carried out, or changes nothing. -/
def Judged.settled (j : Judged) (s : State) : Prop := (j.code = .ok ∨ j.code = .accepted) ∨ j.state = s

theorem switchTo_settled (o : OutputId) (x : Target) (s : State) : Judged.settled (switchTo o x s) s := by
  unfold switchTo
  extract_lets
  split
  · exact .inr rfl
  split
  · exact .inr rfl
  split
  · exact .inl (.inl rfl)
  · exact .inl (.inr rfl)

theorem recallSlot_settled (i : Fin 16) (s : State) : Judged.settled (recallSlot i s) s := by
  unfold recallSlot
  split
  · exact .inl (.inr rfl)
  · exact .inr rfl

theorem grantControl_settled (n : Comp) (k : Option LinkId) (s : State) : Judged.settled (grantControl n k s) s := by
  unfold grantControl
  split
  · exact .inr rfl
  split
  · exact .inr rfl
  split
  · exact .inl (.inl rfl)
  · exact .inl (.inr rfl)

theorem claimControl_settled (k : LinkId) (kind : ClaimKind) (s : State) : Judged.settled (claimControl k kind s) s := by
  unfold claimControl
  split
  · exact .inr rfl
  split
  · exact .inr rfl
  split
  · exact .inl (.inr rfl)
  · exact .inr rfl

theorem releaseControl_settled (k : LinkId) (s : State) : Judged.settled (releaseControl k s) s := by
  unfold releaseControl
  split
  · exact .inr rfl
  split
  · exact .inr rfl
  · exact .inl (.inl rfl)

/-- A wake trigger is never refused (R167). -/
theorem wakeTrigger_carriedOut (n : Comp) (s : State) : (wakeTrigger n s).code = .ok ∨ (wakeTrigger n s).code = .accepted := by
  unfold wakeTrigger
  split
  · exact .inl rfl
  split
  · exact .inl rfl
  · exact .inr rfl

/-- TAKE_BACK is never refused (R159). -/
theorem takeBack_code (n : Comp) (s : State) : (takeBack n s).code = .ok := by
  unfold takeBack
  split <;> rfl

/-! ### Stepping the focus -/

/-- The computers in the order FOCUS_NEXT examines them (R42). -/
def nextOrder (s : State) (i : Fin 8) : Comp :=
  match s.focus.target with
  | .loc n => Fin.ofNat 8 (n.val + 1 + i.val)
  | _ => i

/-- The computers in the order FOCUS_PREV examines them (R42). -/
def prevOrder (s : State) (i : Fin 8) : Comp :=
  match s.focus.target with
  | .loc n => Fin.ofNat 8 (n.val + 7 - i.val)
  | _ => Fin.ofNat 8 (8 - i.val)

theorem upFrom_eq (n : Nat) : upFrom n = (List.finRange 8).map fun i => Fin.ofNat 8 (n + 1 + i.val) := rfl

theorem downFrom_eq (n : Nat) : downFrom n = (List.finRange 8).map fun i => Fin.ofNat 8 (n + 7 * (i.val + 1)) := rfl

/-- The computers that a step of the focus examines, in their order. -/
theorem steppedFocus_eq (s : State) (next : Bool) :
    steppedFocus s next =
      ((List.finRange 8).map (if next then nextOrder s else prevOrder s)).find? fun n => (s.port n).bus != .detached := by
  have hup : upFrom 7 = (List.finRange 8).map id := by decide
  have hdown : downFrom 1 = (List.finRange 8).map fun i => Fin.ofNat 8 (8 - i.val) := by decide
  have hprev (n : Nat) : downFrom n = (List.finRange 8).map fun i => Fin.ofNat 8 (n + 7 - i.val) := by
    rw [downFrom_eq]
    refine List.map_congr_left fun i _ => Fin.ext ?_
    simp only [Fin.ofNat]
    omega
  unfold steppedFocus
  refine congrArg (List.find? _) ?_
  cases hf : s.focus.target <;> cases next <;> simp only [hup, hdown, hprev, upFrom_eq, Bool.false_eq_true, if_true, if_false] <;>
    refine List.map_congr_left fun i _ => ?_
  all_goals simp [nextOrder, prevOrder, hf]

/-- The first computer that is not DETACHED is selected. -/
theorem find?_order {f : Fin 8 → Comp} {i : Fin 8} (hi : (s.port (f i)).bus ≠ .detached)
    (h : ∀ j, j < i → (s.port (f j)).bus = .detached) :
    ((List.finRange 8).map f).find? (fun n => (s.port n).bus != .detached) = some (f i) := by
  have hleast : (List.finRange 8).find? ((fun n => (s.port n).bus != .detached) ∘ f) = some i :=
    find?_of_least (by decide) (List.mem_finRange i) (bne_iff_ne.mpr hi) fun j hj => by simp [h j hj]
  rw [List.find?_map, hleast]
  rfl

theorem steppedFocus_none (next : Bool) (h : ∀ n, (s.port n).bus = .detached) : steppedFocus s next = none := by
  rw [steppedFocus_eq]
  exact List.find?_eq_none.mpr fun n _ => by simp [h n]

end Sys2Proof.Machine
end

section
/-!
SUPPORT. How each action ends, for TRIGGER and for an entry that fires alike (R80 to R82, R96 to R98).
-/

namespace Sys2Proof.Machine

open Sys2Proof

variable {s u : State} {a : Action} {src : FireSource} {n : Comp} {k : LinkId} {i : Fin 8} {x y b : Byte}

/-! ### An action that finds what it acts on, or does not -/

theorem focusBy_focus (f : FocusTarget) (o : Origin) (s : State) :
    (focusBy f o s).focus = ⟨f, o, placement s (assignmentOf s) f⟩ := (writePlaced_written ..).focus

theorem runStep_next (hi : (s.port (nextOrder s i)).bus ≠ .detached)
    (h : ∀ j, j < i → (s.port (nextOrder s j)).bus = .detached) :
    runAction .focusNext src s = ranOk (focusBy (.loc (nextOrder s i)) (FireSource.origin src) s) := by
  have hs : steppedFocus s true = some (nextOrder s i) := (steppedFocus_eq s true).trans (find?_order hi h)
  simp only [runAction, runStep, hs]

theorem runStep_prev (hi : (s.port (prevOrder s i)).bus ≠ .detached)
    (h : ∀ j, j < i → (s.port (prevOrder s j)).bus = .detached) :
    runAction .focusPrev src s = ranOk (focusBy (.loc (prevOrder s i)) (FireSource.origin src) s) := by
  have hs : steppedFocus s false = some (prevOrder s i) := (steppedFocus_eq s false).trans (find?_order hi h)
  simp only [runAction, runStep, hs]

theorem runStep_detached (ha : a = .focusNext ∨ a = .focusPrev) (h : ∀ n, (s.port n).bus = .detached) :
    runAction a src s = ranNothing s := by
  rcases ha with rfl | rfl <;> simp only [runAction, runStep, steppedFocus_none _ h]

theorem runWake_focused (h : s.focus.target = .loc n) : runAction (.wake none) src s = Judged.ran (wakeTrigger n s) := by
  simp only [runAction, runWake, h]

theorem runTakeBack_focused (h : s.focus.target = .loc n) : runAction .takeBack src s = Judged.ran (takeBack n s) := by
  simp only [runAction, runTakeBack, h]

theorem runGrant_unclaimed (h : s.focus.target = .loc n) (hc : (s.control n).claims = []) :
    runAction .grant src s = ranNothing s := by
  simp only [runAction, runGrant, h, hc, List.isEmpty_nil, if_true]

theorem runGrant_claimed (h : s.focus.target = .loc n) (hc : (s.control n).claims ≠ []) :
    runAction .grant src s = Judged.ran (grantControl n none s) := by
  have he : ¬ (s.control n).claims.isEmpty = true := fun g => hc (List.isEmpty_iff.mp g)
  simp only [runAction, runGrant, h, if_neg he]

theorem runClaim_engaged (h : s.focus.target = .rem k) (hv : (s.link k).viewer ≠ .none) :
    runAction .claim src s = ranNothing s := by
  simp only [runAction, runClaim, h, if_neg hv]

theorem runClaim_free (h : s.focus.target = .rem k) (hv : (s.link k).viewer = .none) :
    runAction .claim src s = Judged.ran (claimControl k .queued s) := by
  simp only [runAction, runClaim, h, if_pos hv]

theorem runRelease_free (h : s.focus.target = .rem k) (hv : (s.link k).viewer = .none) :
    runAction .release src s = ranNothing s := by
  simp only [runAction, runRelease, h, if_pos hv]

theorem runRelease_engaged (h : s.focus.target = .rem k) (hv : (s.link k).viewer ≠ .none) :
    runAction .release src s = Judged.ran (releaseControl k s) := by
  simp only [runAction, runRelease, h, if_neg hv]

/-- The actions on the focus computer find nothing to act on with the focus elsewhere (R82). -/
theorem runAction_no_computer (ha : a = .takeBack ∨ a = .grant ∨ a = .wake none) (h : ∀ n, s.focus.target ≠ .loc n) :
    runAction a src s = ranNothing s := by
  cases hf : s.focus.target with
  | loc n => exact absurd hf (h n)
  | rem k => rcases ha with rfl | rfl | rfl <;> simp only [runAction, runTakeBack, runGrant, runWake, hf]
  | none => rcases ha with rfl | rfl | rfl <;> simp only [runAction, runTakeBack, runGrant, runWake, hf]

/-- The actions on the focus link find nothing to act on with the focus elsewhere (R82). -/
theorem runAction_no_link (ha : a = .claim ∨ a = .release) (h : ∀ k, s.focus.target ≠ .rem k) :
    runAction a src s = ranNothing s := by
  cases hf : s.focus.target with
  | rem k => exact absurd hf (h k)
  | loc n => rcases ha with rfl | rfl <;> simp only [runAction, runClaim, runRelease, hf]
  | none => rcases ha with rfl | rfl <;> simp only [runAction, runClaim, runRelease, hf]

theorem runResume_held (h : s.blank.hotkeyResume = false ∨ s.blank.asserted ≠ []) :
    runAction .resumeBlank src s = ranNothing s := by
  have hc : (!s.blank.hotkeyResume || lineHeld s) = true := by
    rcases h with h | h
    · rw [h]; rfl
    · simp [lineHeld, h]
  simp only [runAction, runResumeBlank, if_pos hc]

theorem resumeEffect_clear (h : s.blank.state = .clear) : resumeEffect s = s := by
  simp only [resumeEffect, h]

theorem resumeEffect_lifts (h : s.blank.state ≠ .clear) : resumeEffect s = blankLifted .resume s := by
  unfold resumeEffect
  split
  next hc => exact absurd hc h
  next => rfl

theorem runResume_free (hr : s.blank.hotkeyResume = true) (h : s.blank.asserted = []) :
    runAction .resumeBlank src s = ranOk (resumeEffect s) := by
  simp [runAction, runResumeBlank, lineHeld, hr, h]

/-! ### TRIGGER -/

theorem judgeTrigger_none (h : actionOf b x y = none) : judgeTrigger [b, x, y] s = refuse .badArg s := by
  simp only [judgeTrigger, h]

theorem judgeTrigger_some (h : actionOf b x y = some a) :
    judgeTrigger [b, x, y] s = ⟨Ran.triggerCode (runAction a .request s), [], (runAction a .request s).state⟩ := by
  simp only [judgeTrigger, h]

theorem triggered_ok (h : runAction a .request s = ranOk u) :
    Ran.triggerCode (runAction a .request s) = .ok ∧ (runAction a .request s).state = u := by
  rw [h]; exact ⟨rfl, rfl⟩

theorem triggered_judged {j : Judged} (h : runAction a .request s = Judged.ran j) :
    Ran.triggerCode (runAction a .request s) = j.code ∧ (runAction a .request s).state = j.state := by
  rw [h]; exact ⟨rfl, rfl⟩

theorem triggered_nothing (h : runAction a .request s = ranNothing s) :
    Ran.triggerCode (runAction a .request s) = .wrongState ∧ (runAction a .request s).state = s := by
  rw [h]; exact ⟨rfl, rfl⟩

/-! ### An entry that fires -/

/-- The entry is not held back by privacy blank, and its action runs from the counted state (R96, R97). -/
theorem fire_runs (h : s.blank.state = .clear ∨ a = .resumeBlank) :
    fire a src s = if Ran.carriedOut (runAction a src (countFired s)) then (runAction a src (countFired s)).state
      else countRefused (runAction a src (countFired s)).state := by
  have hs : ¬ suppressed a s = true := by
    rcases h with h | rfl
    · simp [suppressed, blanked, h]
    · simp [suppressed]
  unfold fire
  rw [if_neg hs]

theorem fire_suppressed (hb : s.blank.state ≠ .clear) (ha : a ≠ .resumeBlank) :
    fire a src s = countSuppressed (countFired s) := by
  have hs : suppressed a s = true := by simp [suppressed, blanked, hb, ha]
  unfold fire
  rw [if_pos hs]

section
variable (hf : s.blank.state = .clear ∨ a = .resumeBlank)
include hf

theorem fire_ok (h : runAction a src (countFired s) = ranOk u) : fire a src s = u := by
  rw [fire_runs hf, h]; rfl

theorem fire_nothing (h : runAction a src (countFired s) = ranNothing (countFired s)) :
    fire a src s = countRefused (countFired s) := by
  rw [fire_runs hf, h]; rfl

theorem fire_carriedOut {j : Judged} (h : runAction a src (countFired s) = Judged.ran j) (hc : j.code = .ok ∨ j.code = .accepted) :
    fire a src s = j.state := by
  have hr : Ran.carriedOut (Judged.ran j) = true := by
    unfold Ran.carriedOut Judged.ran
    rcases hc with hc | hc <;> rw [hc] <;> rfl
  rw [fire_runs hf, h, if_pos hr]
  rfl

theorem fire_judged {j : Judged} (h : runAction a src (countFired s) = Judged.ran j) (hj : Judged.settled j (countFired s)) :
    (j.code = .ok ∨ j.code = .accepted → fire a src s = j.state) ∧
      (j.code ≠ .ok → j.code ≠ .accepted → fire a src s = countRefused (countFired s)) := by
  refine ⟨fun hc => fire_carriedOut hf h hc, fun h1 h2 => ?_⟩
  have hr : ¬ Ran.carriedOut (Judged.ran j) = true := by
    simp [Ran.carriedOut, Judged.ran, h1, h2]
  rw [fire_runs hf, h, if_neg hr]
  exact congrArg countRefused (hj.resolve_left fun g => g.elim h1 h2)

end

end Sys2Proof.Machine
end

section
/-! TRIGGER (O37). -/

open Sys2Proof Sys2Proof.Machine

/-- Settles O37: the request runs its action from the state in which it runs, and answers how the action ended. -/
theorem triggerRunsItsAction : Obligations.TriggerRunsItsAction := by
  intro tag a x y s r focused up down ht
  refine ⟨fun h => exec_request r judgeTrigger s ht _ _ _ (judgeTrigger_none h), fun h => actionOf_eq_none (.inl h), fun act hact => ?_⟩
  have hkept := (runAction_inputKept act .request (begun r s)).matcher
  have hacts := runAction_acts act .request (begun r s)
  have hfocused (n : Comp) : focused n (focusBy (.loc n) .request (begun r s)) := ⟨focusBy_focus (.loc n) .request (begun r s), rfl⟩
  have hstep {n : Comp} (h : runAction act .request (begun r s) = ranOk (focusBy (.loc n) .request (begun r s))) :
      Ran.triggerCode (runAction act .request (begun r s)) = .ok ∧ focused n (runAction act .request (begun r s)).state := by
    rw [h]; exact ⟨rfl, hfocused n⟩
  refine ⟨_, _, exec_request r judgeTrigger s ht _ _ _ (judgeTrigger_some hact), ?_⟩
  refine ⟨by rw [hkept]; rfl, by rw [hkept]; rfl, by rw [hkept]; rfl, by rw [hacts]; rfl, by rw [hacts]; rfl, by rw [hacts]; rfl,
    by rw [hacts]; rfl, by rw [hacts]; rfl, by rw [hacts]; rfl, by rw [hacts]; rfl, ?_⟩
  refine ⟨?_, ?_, ?_, ?_, ?_, ?_, ?_, ?_, ?_, ?_, ?_, ?_, ?_, ?_, ?_, ?_, ?_, ?_, ?_, ?_⟩
  · rintro rfl; exact ⟨rfl, rfl⟩
  · rintro n rfl; exact hstep rfl
  · rintro rfl i hi hj; exact hstep (runStep_next (s := begun r s) hi hj)
  · rintro rfl i hi hj; exact hstep (runStep_prev (s := begun r s) hi hj)
  · rintro rfl
    obtain ⟨-, h⟩ := runBroadcastToggle_turned (begun r s)
    exact ⟨rfl, h⟩
  · rintro rfl; exact ⟨rfl, rfl⟩
  · rintro o t rfl; exact triggered_judged rfl
  · rintro i rfl; exact triggered_judged rfl
  · rintro rfl; exact ⟨rfl, rfl⟩
  · rintro rfl hr h
    obtain ⟨hc, hu⟩ := triggered_ok (runResume_free (src := .request) (s := begun r s) hr h)
    exact ⟨hc, fun hs => hu.trans (resumeEffect_clear hs), fun hs => hu.trans (resumeEffect_lifts hs)⟩
  · rintro n rfl; exact triggered_judged rfl
  · rintro n rfl hf; exact triggered_judged (runWake_focused hf)
  · rintro n rfl hf
    exact ⟨fun hc => triggered_nothing (runGrant_unclaimed hf hc), fun hc => triggered_judged (runGrant_claimed hf hc)⟩
  · rintro k rfl hf
    exact ⟨fun hv => triggered_nothing (runClaim_engaged hf hv), fun hv => triggered_judged (runClaim_free hf hv)⟩
  · rintro k rfl hf
    exact ⟨fun hv => triggered_nothing (runRelease_free hf hv), fun hv => triggered_judged (runRelease_engaged hf hv)⟩
  · rintro n rfl hf; exact triggered_judged (runTakeBack_focused hf)
  · exact fun ha hf => triggered_nothing (runAction_no_computer ha hf)
  · exact fun ha hf => triggered_nothing (runAction_no_link ha hf)
  · exact fun ha hf => triggered_nothing (runStep_detached ha hf)
  · rintro rfl h; exact triggered_nothing (runResume_held h)

end

section
/-!
SUPPORT. The entry of the hotkey table that a trigger selects, where no two entries exclude one another (R79, R83).
-/

namespace Sys2Proof.Machine

open Sys2Proof

variable {s : State} {p : Trigger → Bool} {i : Fin 32} {e : HotkeyEntry} {l j : LineId} {c : Nat}

theorem findEntry_eq_none (h : ∀ i e, s.hotkey i = some e → p e.trigger = false) : findEntry s p = none := by
  unfold findEntry
  refine List.find?_eq_none.mpr fun i _ => ?_
  cases hi : s.hotkey i with
  | none => exact Bool.false_ne_true
  | some e => simp [h i e hi]

/-- The only entry that a condition can hold for is found, when the triggers it holds for exclude one another. -/
theorem findEntry_eq_some (ha : hotkeysApart s) (hi : s.hotkey i = some e) (hp : p e.trigger = true)
    (hc : ∀ d, p d = true → clash d e.trigger = true) : findEntry s p = some i := by
  unfold findEntry
  have hsome : (allHotkeys.find? fun i => match s.hotkey i with | some e => p e.trigger | none => false).isSome = true :=
    List.find?_isSome.mpr ⟨i, mem_allHotkeys i, by simp [hi, hp]⟩
  obtain ⟨j, hj⟩ := Option.isSome_iff_exists.mp hsome
  have hpj := List.find?_some hj
  suffices h : j = i by exact hj.trans (congrArg some h)
  by_contra hne
  cases hd : s.hotkey j with
  | none => simp [hd] at hpj
  | some d =>
    simp only [hd] at hpj
    have h1 := ha j i d e hne hd hi
    rw [hc _ hpj] at h1
    cases h1

theorem isLine_iff (l : LineId) (d : Trigger) : isLine l d = true ↔ ∃ c, d = .line l c := by
  cases d <;> simp [isLine]

theorem isCommand_iff (k : Nat) (d : Trigger) : isCommand k d = true ↔ d = .command k := by
  cases d <;> simp [isCommand]

theorem findEntry_line (ha : hotkeysApart s) {a : Action} (hi : s.hotkey i = some ⟨.line l c, a⟩) :
    findEntry s (isLine l) = some i := by
  refine findEntry_eq_some ha hi ((isLine_iff ..).mpr ⟨c, rfl⟩) fun d hd => ?_
  obtain ⟨c', rfl⟩ := (isLine_iff ..).mp hd
  simp [clash]

theorem findEntry_command (ha : hotkeysApart s) {a : Action} {k : Nat} (hi : s.hotkey i = some ⟨.command k, a⟩) :
    findEntry s (isCommand k) = some i := by
  refine findEntry_eq_some ha hi ((isCommand_iff ..).mpr rfl) fun d hd => ?_
  obtain rfl := (isCommand_iff ..).mp hd
  simp [clash]

/-! ### The lines' counters -/

theorem lineEntry_none (h : ∀ i e c, s.hotkey i = some e → e.trigger ≠ .line l c) : lineEntry s l = none := by
  have hf : findEntry s (isLine l) = none := findEntry_eq_none fun i e hi => by
    by_contra g
    obtain ⟨c, hc⟩ := (isLine_iff ..).mp (Bool.not_eq_false _ ▸ g)
    exact h i e c hi hc
  simp only [lineEntry, hf]

theorem lineEntry_some (ha : hotkeysApart s) {a : Action} (hi : s.hotkey i = some ⟨.line l c, a⟩) :
    lineEntry s l = some (i, ⟨.line l c, a⟩) := by
  simp only [lineEntry, findEntry_line ha hi, hi, Option.map_some]

theorem setLineTrigger_lineTrigger (s : State) (l j : LineId) (t : LineTrigger) :
    (s.setLineTrigger l t).lineTrigger j = if j = l then t else s.lineTrigger j := by
  simp [State.setLineTrigger, State.lineTrigger, pick_upd]

/-- A line's counter and window are written, and nothing else (R94, R95). -/
theorem setLineTrigger_written (s : State) (l : LineId) (t : LineTrigger) :
    (s.setLineTrigger l t).lineTrigger l = t ∧ (∀ j, j ≠ l → (s.setLineTrigger l t).lineTrigger j = s.lineTrigger j) ∧
      s.setLineTrigger l t = { s with lineTriggers := (s.setLineTrigger l t).lineTriggers } :=
  ⟨(setLineTrigger_lineTrigger ..).trans (if_pos rfl), fun _ hj => (setLineTrigger_lineTrigger ..).trans (if_neg hj), rfl⟩

theorem qualifyingEdge_unnamed (h : lineEntry s l = none) : qualifyingEdge l s = s := by
  simp only [qualifyingEdge, h]

theorem qualifyingEdge_fires {a : Action} (h : lineEntry s l = some (i, ⟨.line l c, a⟩)) (hc : c ≤ (s.lineTrigger l).count + 1) :
    qualifyingEdge l s = fire a (.line i) (resetTrigger l s) := by
  simp only [qualifyingEdge, h, Trigger.count]
  exact if_pos hc

theorem qualifyingEdge_counts {a : Action} (h : lineEntry s l = some (i, ⟨.line l c, a⟩)) (hc : (s.lineTrigger l).count + 1 < c) :
    qualifyingEdge l s = s.setLineTrigger l ⟨(s.lineTrigger l).count + 1, some (s.now + s.matcher.tapWindow)⟩ := by
  simp only [qualifyingEdge, h, Trigger.count]
  exact if_neg (Nat.not_le.mpr hc)

/-! ### The windows that expire -/

theorem lineWindowExpiry_idle (h : (s.lineTrigger l).deadline = none) : exec (.lineWindowExpiry l) s = .next (handedOn s) := by
  change execLineWindowExpiry l s = _
  unfold execLineWindowExpiry
  rw [h]; rfl

theorem lineWindowExpiry_runs {d : Nat} (h : (s.lineTrigger l).deadline = some d) :
    exec (.lineWindowExpiry l) s = .next (handedOn ((reach d s).setLineTrigger l ⟨0, none⟩)) := by
  change execLineWindowExpiry l s = _
  unfold execLineWindowExpiry
  rw [h]; rfl

theorem tapWindowExpiry_runs {k n d : Nat} (h : s.matcher.state = .tapping k n false (some d)) :
    exec .tapWindowExpiry s = .next (handedOn { s with now := max s.now d, matcher := { s.matcher with state := .idle } }) := by
  change execTapWindowExpiry s = _
  unfold execTapWindowExpiry
  rw [h]; rfl

theorem tapWindowExpiry_idle (h : ∀ k n d, s.matcher.state ≠ .tapping k n false (some d)) :
    exec .tapWindowExpiry s = .next (handedOn s) := by
  change execTapWindowExpiry s = _
  unfold execTapWindowExpiry
  split
  next k n d hm => exact absurd hm (h k n d)
  next => rfl

/-! ### The counted state -/

theorem fire_fired (a : Action) (src : FireSource) (s : State) :
    (fire a src s).matcher.fired = min (s.matcher.fired + 1) 4294967295 := by
  have h := (runAction_inputKept a src (countFired s)).matcher
  have hr : (runAction a src (countFired s)).state.matcher.fired = min (s.matcher.fired + 1) 4294967295 := by rw [h]; rfl
  unfold fire
  dsimp only
  split
  · rfl
  · split
    · exact hr
    · exact hr

theorem FireSource.origin_hotkey {src : FireSource} (h : src ≠ .request) : FireSource.origin src = .hotkey := by
  cases src with
  | request => exact absurd rfl h
  | keys i => rfl
  | line l => rfl

theorem runBlank_hotkey {src : FireSource} (h : src ≠ .request) (s : State) :
    runAction .blank src s = ranOk (engageBy ⟨false, true, false⟩ .hotkey s) := by
  cases src with
  | request => exact absurd rfl h
  | keys i => rfl
  | line l => rfl

theorem hotkeyNotice_eq (src : FireSource) :
    hotkeyNotice src = ⟨0xF4, 0,
      (match src with
        | .keys i => [0, 1, BitVec.ofNat 8 i.val]
        | .line i => [1, 1, BitVec.ofNat 8 i.val]
        | .request => [2, 0, 0])⟩ := by
  cases src <;> rfl

end Sys2Proof.Machine
end

section
/-! The line triggers, and an entry that fires (O40). -/

open Sys2Proof Sys2Proof.Machine

/-- Settles O40: what a line's edge counts and fires, how each action ends, and the expiry of the two windows. -/
theorem lineTriggersAndFiring : Obligations.LineTriggersAndFiring := by
  refine ⟨fun l s ha => ⟨fun h => qualifyingEdge_unnamed (lineEntry_none h), fun i a c hi => ⟨?_, fun hc => ?_⟩⟩,
    fun a src s => ⟨fire_fired a src s, fire_suppressed⟩, fun a src s hsrc hb => ?_,
    fun l s => ⟨lineWindowExpiry_idle, fun d hd => ?_⟩, fun s => ⟨fun _ _ _ => tapWindowExpiry_runs, tapWindowExpiry_idle⟩⟩
  · obtain ⟨h1, h2, h3⟩ := setLineTrigger_written s l ⟨0, none⟩
    exact ⟨_, h1, h2, h3, fun hc => qualifyingEdge_fires (lineEntry_some ha hi) hc⟩
  · rw [qualifyingEdge_counts (lineEntry_some ha hi) hc]
    exact setLineTrigger_written ..
  · have ho := FireSource.origin_hotkey hsrc
    intro base t refused judged focused up down
    have hnothing (h : runAction a src base = ranNothing base) : refused := fire_nothing hb h
    have hjudged {j : Judged} (h : runAction a src base = Judged.ran j) (hj : Judged.settled j base) : judged j := fire_judged hb h hj
    have hfocused {n : Comp} (h : runAction a src base = ranOk (focusBy (.loc n) (FireSource.origin src) base)) : focused n := by
      rw [ho] at h
      have ht : t = focusBy (.loc n) .hotkey base := fire_ok hb h
      exact ⟨ht, by rw [ht]; exact focusBy_focus (.loc n) .hotkey base⟩
    refine ⟨?_, ?_, ?_, ?_, ?_, ?_, ?_, ?_, ?_, ?_, ?_, ?_, ?_, ?_, ?_, ?_, ?_, ?_, ?_⟩
    · rintro rfl; exact fire_ok hb rfl
    · rintro n rfl; exact hfocused rfl
    · rintro rfl i hi hj; exact hfocused (runStep_next (s := base) hi hj)
    · rintro rfl i hi hj; exact hfocused (runStep_prev (s := base) hi hj)
    · rintro rfl
      have ht : t = (runBroadcastToggle base).state := fire_ok hb rfl
      rw [ht]
      exact (runBroadcastToggle_turned base).2
    · rintro rfl
      have ht : t = notify .hotkey (hotkeyNotice src) base := fire_ok hb rfl
      exact ht.trans (congrArg (fun f => base.modSup (queueNotice .hotkey f)) (hotkeyNotice_eq src))
    · rintro o x rfl; exact hjudged rfl (switchTo_settled ..)
    · rintro i rfl; exact hjudged rfl (recallSlot_settled ..)
    · rintro rfl; exact fire_ok hb (runBlank_hotkey hsrc _)
    · rintro rfl
      refine ⟨fun hr h => ?_, fun h => hnothing (runResume_held h)⟩
      have ht : t = resumeEffect base := fire_ok hb (runResume_free hr h)
      exact ⟨fun hs => ht.trans (resumeEffect_clear hs), fun hs => ht.trans (resumeEffect_lifts hs)⟩
    · rintro n rfl
      have ht := fire_carriedOut (src := src) (s := s) hb rfl (wakeTrigger_carriedOut n (focusBy (.loc n) (FireSource.origin src) base))
      rwa [ho] at ht
    · rintro n rfl hf; exact fire_carriedOut hb (runWake_focused hf) (wakeTrigger_carriedOut n base)
    · rintro n rfl hf; exact fire_carriedOut hb (runTakeBack_focused hf) (.inl (takeBack_code n base))
    · rintro n rfl hf
      exact ⟨fun hc => hnothing (runGrant_unclaimed hf hc), fun hc => hjudged (runGrant_claimed hf hc) (grantControl_settled ..)⟩
    · rintro k rfl hf
      exact ⟨fun hv => hnothing (runClaim_engaged hf hv), fun hv => hjudged (runClaim_free hf hv) (claimControl_settled ..)⟩
    · rintro k rfl hf
      exact ⟨fun hv => hnothing (runRelease_free hf hv), fun hv => hjudged (runRelease_engaged hf hv) (releaseControl_settled ..)⟩
    · exact fun ha hf => hnothing (runAction_no_computer ha hf)
    · exact fun ha hf => hnothing (runAction_no_link ha hf)
    · exact fun ha hf => hnothing (runStep_detached ha hf)
  · obtain ⟨h1, h2, h3⟩ := setLineTrigger_written (reach d s) l ⟨0, none⟩
    exact ⟨_, lineWindowExpiry_runs hd, h1, h2, rfl⟩

end

section
/-!
SUPPORT. The held set through the events of a report, and the report that raises one event (R46, R47, R50).
-/

namespace Sys2Proof.Machine

open Sys2Proof

variable {s : State} {k h : KeyState} {c d : Nat} {mods : Mods} {keys : List Nat} {codes : List Byte}

/-! ### One event on the held set -/

theorem handleKey_keyboardLit (e : KeyEvent) (s : State) : keyboardLit s (handleKey e s) := by
  have hmatch : keyboardLit s (matchKey e s) := by
    have hm (t : State) : keyboardLit t (if e.press then (if (judgeKey s e).withheld then maskCode e.code t else t)
        else modMask (KeyState.drop · e.code) t) := by
      unfold maskCode
      split
      · split
        · split <;> exact .of_eq rfl
        · exact .refl t
      · exact .of_eq rfl
    have h1 := keyboardLit.trans (t := s.modMatcher fun m => { m with state := (judgeKey s e).state }) (.of_eq rfl) (hm _)
    unfold matchKey
    dsimp only
    split
    · split
      · exact h1.trans (fire_keyboardLit ..)
      · exact h1
    · exact h1
  have hsend : keyboardLit (matchKey e s) (sendRecords (matchKey e s)) :=
    .of_eq (by rw [(sendRecords_formed (matchKey e s)).rest])
  have hcount (b : Bool) (t : State) : keyboardLit t (countAndWake b t) := by
    unfold countAndWake
    split
    · split
      · split
        · exact (wakeIfSuspended_wakes ..).inputKept.keyboard
        · exact .of_eq rfl
      · exact .refl t
    · exact .refl t
  exact (hmatch.trans hsend).trans (hcount _ _)

/-- What an event makes of the held set and the ignored press count (R47). -/
def typed (p : KeyState × Nat) (e : KeyEvent) : KeyState × Nat :=
  if e.press then
    if KeyState.has p.1 e.code then p
    else if !isModifier e.code && decide (Config.heldKeys ≤ p.1.keys.length) then (p.1, count p.2)
    else (KeyState.add p.1 e.code, p.2)
  else (KeyState.drop p.1 e.code, p.2)

theorem modBit_getLsbD (c i : Nat) : (modBit c).getLsbD i = (decide (c - 224 < 8) && decide (c - 224 = i)) :=
  BitVec.getLsbD_twoPow (c - 224) i

theorem modBit_off (h : mods.getLsbD (c - 224) = false) : mods &&& ~~~modBit c = mods := by
  refine BitVec.eq_of_getLsbD_eq fun i hi => ?_
  simp only [BitVec.getLsbD_and, BitVec.getLsbD_not, hi, decide_true, Bool.true_and, modBit_getLsbD]
  by_cases hic : c - 224 = i
  · rw [← hic, h, Bool.false_and]
  · simp [hic]

theorem KeyState.drop_absent (h : KeyState.has k c = false) : KeyState.drop k c = k := by
  unfold KeyState.has at h
  unfold KeyState.drop
  split
  next hm => rw [if_pos hm] at h; rw [modBit_off h]
  next hm =>
    rw [if_neg hm] at h
    have hc : c ∉ k.keys := by simpa using h
    have hf : k.keys.filter (· != c) = k.keys := List.filter_eq_self.mpr fun a ha => by
      rw [bne_iff_ne]; rintro rfl; exact hc ha
    rw [hf]

theorem raiseKey_typed (s : State) (e : KeyEvent) :
    ((raiseKey s e).keyboard.held, (raiseKey s e).keyboard.ignoredPresses) = typed (s.keyboard.held, s.keyboard.ignoredPresses) e := by
  have hh (k : KeyState) : ((handleKey e (setHeld k s)).keyboard.held, (handleKey e (setHeld k s)).keyboard.ignoredPresses) =
      (k, s.keyboard.ignoredPresses) := by
    have h := handleKey_keyboardLit e (setHeld k s)
    rw [h.held, h.ignoredPresses]; rfl
  unfold raiseKey typed
  dsimp only
  by_cases hp : e.press = true
  · rw [if_pos hp, if_pos hp]
    by_cases hk : KeyState.has s.keyboard.held e.code = true
    · rw [if_pos hk, if_pos hk]
    · rw [if_neg hk, if_neg hk]
      by_cases hf : (!isModifier e.code && decide (Config.heldKeys ≤ s.keyboard.held.keys.length)) = true
      · rw [if_pos hf, if_pos hf]; rfl
      · rw [if_neg hf, if_neg hf, hh]
  · rw [if_neg hp, if_neg hp]
    by_cases hk : KeyState.has s.keyboard.held e.code = true
    · rw [if_pos hk, hh]
    · rw [if_neg hk, KeyState.drop_absent (Bool.not_eq_true _ ▸ hk)]

theorem raiseKey_port (s : State) (e : KeyEvent) :
    (raiseKey s e).keyboard.attached = s.keyboard.attached ∧ (raiseKey s e).keyboard.rollovers = s.keyboard.rollovers := by
  have hh (k : KeyState) := handleKey_keyboardLit e (setHeld k s)
  unfold raiseKey
  dsimp only
  split
  · split
    · exact ⟨rfl, rfl⟩
    · split
      · exact ⟨rfl, rfl⟩
      · exact ⟨(hh _).attached, (hh _).rollovers⟩
  · split
    · exact ⟨(hh _).attached, (hh _).rollovers⟩
    · exact ⟨rfl, rfl⟩

theorem raiseKeys_typed (es : List KeyEvent) (s : State) :
    ((es.foldl raiseKey s).keyboard.held, (es.foldl raiseKey s).keyboard.ignoredPresses) =
      es.foldl typed (s.keyboard.held, s.keyboard.ignoredPresses) ∧
    (es.foldl raiseKey s).keyboard.attached = s.keyboard.attached ∧ (es.foldl raiseKey s).keyboard.rollovers = s.keyboard.rollovers := by
  induction es generalizing s with
  | nil => exact ⟨rfl, rfl, rfl⟩
  | cons e es ih =>
    obtain ⟨h1, h2, h3⟩ := ih (raiseKey s e)
    obtain ⟨g2, g3⟩ := raiseKey_port s e
    rw [raiseKey_typed] at h1
    exact ⟨h1, h2.trans g2, h3.trans g3⟩

/-! ### The events of a report -/

/-- Releases of keys take them out of the held list (R47). -/
theorem typed_releases {L : List Nat} (hL : ∀ c ∈ L, isModifier c = false) (k : KeyState) (n : Nat) :
    (L.map fun c => (⟨false, c⟩ : KeyEvent)).foldl typed (k, n) = ({ k with keys := k.keys.filter fun d => !L.contains d }, n) := by
  induction L generalizing k with
  | nil => simp
  | cons c L ih =>
    obtain ⟨hc, hL⟩ := List.forall_mem_cons.mp hL
    have h1 : typed (k, n) ⟨false, c⟩ = ({ k with keys := k.keys.filter (· != c) }, n) := by
      simp [typed, KeyState.drop, hc]
    rw [List.map_cons, List.foldl_cons, h1, ih hL, List.filter_filter]
    congr 3
    funext d
    rw [List.contains_cons, Bool.not_or, Bool.and_comm, bne]

/-- Releases of modifiers take their bits out of the held set (R47). -/
theorem typed_modReleases {L : List Nat} (hL : ∀ c ∈ L, isModifier c = true) (k : KeyState) (n : Nat) :
    ∃ m : Mods, (L.map fun c => (⟨false, c⟩ : KeyEvent)).foldl typed (k, n) = (⟨m, k.keys⟩, n) ∧
      ∀ i < 8, m.getLsbD i = (k.mods.getLsbD i && !L.contains (i + 224)) := by
  induction L generalizing k with
  | nil => exact ⟨k.mods, rfl, fun i _ => by simp⟩
  | cons c L ih =>
    obtain ⟨hc, hL⟩ := List.forall_mem_cons.mp hL
    have hr : 224 ≤ c ∧ c ≤ 231 := of_decide_eq_true hc
    obtain ⟨m, hm, hbits⟩ := ih hL ⟨k.mods &&& ~~~modBit c, k.keys⟩
    have h1 : typed (k, n) ⟨false, c⟩ = (⟨k.mods &&& ~~~modBit c, k.keys⟩, n) := by
      simp [typed, KeyState.drop, hc]
    refine ⟨m, by rw [List.map_cons, List.foldl_cons, h1, hm], fun i hi => ?_⟩
    rw [hbits i hi, BitVec.getLsbD_and, BitVec.getLsbD_not, modBit_getLsbD, List.contains_cons]
    have he : (i + 224 == c) = decide (c - 224 = i) := by
      rw [Bool.eq_iff_iff]; simp; omega
    have h8 : decide (c - 224 < 8) = true := by simp; omega
    rw [he, h8, decide_eq_true hi]
    simp [Bool.and_assoc]

/-- Presses of modifiers put their bits into the held set (R47). -/
theorem typed_modPresses {L : List Nat} (hL : ∀ c ∈ L, isModifier c = true) (k : KeyState) (n : Nat) :
    ∃ m : Mods, (L.map fun c => (⟨true, c⟩ : KeyEvent)).foldl typed (k, n) = (⟨m, k.keys⟩, n) ∧
      ∀ i < 8, m.getLsbD i = (k.mods.getLsbD i || L.contains (i + 224)) := by
  induction L generalizing k with
  | nil => exact ⟨k.mods, rfl, fun i _ => by simp⟩
  | cons c L ih =>
    obtain ⟨hc, hL⟩ := List.forall_mem_cons.mp hL
    have hr : 224 ≤ c ∧ c ≤ 231 := of_decide_eq_true hc
    have he (i : Nat) : (i + 224 == c) = decide (c - 224 = i) := by
      rw [Bool.eq_iff_iff]; simp; omega
    have h8 : decide (c - 224 < 8) = true := by simp; omega
    by_cases hk : KeyState.has k c = true
    · obtain ⟨m, hm, hbits⟩ := ih hL k
      have h1 : typed (k, n) ⟨true, c⟩ = (k, n) := by simp [typed, hk]
      refine ⟨m, by rw [List.map_cons, List.foldl_cons, h1, hm], fun i hi => ?_⟩
      have hbit : k.mods.getLsbD (c - 224) = true := by simpa [KeyState.has, hc] using hk
      rw [hbits i hi, List.contains_cons, he]
      by_cases hic : c - 224 = i
      · rw [← hic, hbit]; simp
      · simp [hic]
    · obtain ⟨m, hm, hbits⟩ := ih hL ⟨k.mods ||| modBit c, k.keys⟩
      have h1 : typed (k, n) ⟨true, c⟩ = (⟨k.mods ||| modBit c, k.keys⟩, n) := by
        simp [typed, KeyState.add, hc, hk]
      refine ⟨m, by rw [List.map_cons, List.foldl_cons, h1, hm], fun i hi => ?_⟩
      rw [hbits i hi, BitVec.getLsbD_or, modBit_getLsbD, List.contains_cons, he, h8, Bool.true_and, Bool.or_assoc]

/-- An ignored press count raised `m` times. -/
def countedTimes (m n : Nat) : Nat := if m = 0 then n else min (n + m) 4294967295

theorem countedTimes_count (m n : Nat) : countedTimes m (count n) = countedTimes (m + 1) n := by
  have hc : count n = min (n + 1) 4294967295 := rfl
  unfold countedTimes
  rw [hc, if_neg (Nat.succ_ne_zero m)]
  split <;> omega

theorem mem_take_append {l r : List Nat} (hc : c ∈ l) (hl : l.length ≤ 32) : c ∈ (l ++ r).take 32 := by
  rw [List.take_append, List.take_of_length_le hl]
  exact List.mem_append_left _ hc

/-- Presses of keys append those not held while there is room, and each that finds the list full is counted (R47). -/
theorem typed_presses {L : List Nat} (hL : ∀ c ∈ L, isModifier c = false) (k : KeyState) (hk : k.keys.length ≤ 32) (n : Nat) :
    ∃ keys : List Nat, (L.map fun c => (⟨true, c⟩ : KeyEvent)).foldl typed (k, n) =
        (⟨k.mods, keys⟩, countedTimes (L.filter fun c => !keys.contains c).length n) ∧
      keys = (k.keys ++ (L.filter fun c => !k.keys.contains c).eraseDups).take 32 := by
  induction L generalizing k n with
  | nil => exact ⟨k.keys, rfl, by simp [List.take_of_length_le hk]⟩
  | cons c L ih =>
    obtain ⟨hc, hL⟩ := List.forall_mem_cons.mp hL
    rw [List.map_cons, List.foldl_cons]
    by_cases hmem : c ∈ k.keys
    · have h1 : typed (k, n) ⟨true, c⟩ = (k, n) := by simp [typed, KeyState.has, hc, hmem]
      obtain ⟨keys, hkeys, heq⟩ := ih hL k hk n
      have hin : c ∈ keys := heq ▸ mem_take_append hmem hk
      refine ⟨keys, ?_, ?_⟩
      · rw [h1, hkeys, List.filter_cons_of_neg (by simpa using hin)]
      · rw [heq, List.filter_cons_of_neg (by simpa using hmem)]
    · by_cases hfull : k.keys.length = 32
      · have h1 : typed (k, n) ⟨true, c⟩ = (k, count n) := by simp [typed, KeyState.has, hc, hmem, Config.heldKeys, hfull]
        obtain ⟨keys, hkeys, heq⟩ := ih hL k hk (count n)
        have hsame (l : List Nat) : (k.keys ++ l).take 32 = k.keys := by rw [← hfull, List.take_left]
        rw [hsame] at heq
        refine ⟨keys, ?_, by rw [hsame, heq]⟩
        rw [h1, hkeys, countedTimes_count, List.filter_cons_of_pos (by simpa [heq] using hmem)]
        rfl
      · have hlt : k.keys.length < 32 := by omega
        have h1 : typed (k, n) ⟨true, c⟩ = (⟨k.mods, k.keys ++ [c]⟩, n) := by
          simp [typed, KeyState.has, KeyState.add, hc, hmem, Config.heldKeys, Nat.not_le.mpr hlt]
        obtain ⟨keys, hkeys, heq⟩ := ih hL ⟨k.mods, k.keys ++ [c]⟩ (by simp; omega) n
        have hdups : ((c :: L).filter fun d => !k.keys.contains d).eraseDups =
            c :: (L.filter fun d => !(k.keys ++ [c]).contains d).eraseDups := by
          rw [List.filter_cons_of_pos (by simpa using hmem), List.eraseDups_cons, List.filter_filter]
          congr 3
          funext d
          rw [Bool.eq_iff_iff]
          simp [and_comm]
        have hin : c ∈ keys := heq ▸ mem_take_append (List.mem_append_right _ (List.mem_singleton.mpr rfl)) (by simp; omega)
        refine ⟨keys, ?_, ?_⟩
        · rw [h1, hkeys, List.filter_cons_of_neg (by simpa using hin)]
        · rw [heq, hdups, List.append_assoc]; rfl

theorem isModifier_key (h : 4 ≤ c ∧ c ≤ 223) : isModifier c = false := decide_eq_false fun g => by omega

theorem mem_modCodes {c : Nat} : c ∈ modCodes ↔ 224 ≤ c ∧ c ≤ 231 := by
  simp only [modCodes, List.mem_cons, List.not_mem_nil, or_false]
  omega

theorem isModifier_filter {p : Nat → Bool} : ∀ c ∈ modCodes.filter p, isModifier c = true := fun _ hc =>
  decide_eq_true (mem_modCodes.mp (List.mem_filter.mp hc).1)

theorem contains_modCodes {p : Nat → Bool} {i : Nat} (hi : i < 8) : (modCodes.filter p).contains (i + 224) = p (i + 224) := by
  rw [Bool.eq_iff_iff, List.contains_iff_mem, List.mem_filter, mem_modCodes]
  exact ⟨And.right, fun h => ⟨⟨by omega, by omega⟩, h⟩⟩

/-- The held set and the ignored press count through the events of a report (R46, R47). -/
theorem reportEvents_typed (hk : ∀ c ∈ k.keys, 4 ≤ c ∧ c ≤ 223) (hlen : k.keys.length ≤ 32) (hkeys : ∀ c ∈ keys, 4 ≤ c ∧ c ≤ 223)
    (n : Nat) :
    ∃ held : List Nat, (reportEvents k mods keys).foldl typed (k, n) =
        (⟨mods, held⟩, countedTimes (keys.filter fun c => !held.contains c).length n) ∧
      held = ((k.keys.filter fun c => keys.contains c) ++ (keys.filter fun c => !k.keys.contains c).eraseDups).take 32 := by
  let kept := k.keys.filter fun c => keys.contains c
  have hrel := typed_releases (L := k.keys.filter fun c => !keys.contains c)
    (fun c hc => isModifier_key (hk c (List.mem_filter.mp hc).1)) k n
  have hkept : (k.keys.filter fun d => !(k.keys.filter fun c => !keys.contains c).contains d) = kept := by
    refine List.filter_congr fun d hd => ?_
    rw [Bool.eq_iff_iff]
    simp [hd]
  rw [hkept] at hrel
  obtain ⟨m1, h1, hm1⟩ := typed_modReleases (L := modCodes.filter fun c => k.mods.getLsbD (c - 224) && !mods.getLsbD (c - 224))
    isModifier_filter { k with keys := kept } n
  obtain ⟨m2, h2, hm2⟩ := typed_modPresses (L := modCodes.filter fun c => mods.getLsbD (c - 224) && !k.mods.getLsbD (c - 224))
    isModifier_filter ⟨m1, kept⟩ n
  have hkl : kept.length ≤ 32 := (List.length_filter_le ..).trans hlen
  obtain ⟨held, h3, hheld⟩ := typed_presses (L := keys.filter fun c => !k.keys.contains c)
    (fun c hc => isModifier_key (hkeys c (List.mem_filter.mp hc).1)) ⟨m2, kept⟩ hkl n
  have hmods : m2 = mods := BitVec.eq_of_getLsbD_eq fun i hi => by
    rw [hm2 i hi, hm1 i hi, contains_modCodes hi, contains_modCodes hi, Nat.add_sub_cancel]
    cases k.mods.getLsbD i <;> cases mods.getLsbD i <;> rfl
  have hnew : ((keys.filter fun c => !k.keys.contains c).filter fun c => !kept.contains c) = keys.filter fun c => !k.keys.contains c := by
    refine List.filter_eq_self.mpr fun c hc => ?_
    have hn : c ∉ k.keys := by simpa using (List.mem_filter.mp hc).2
    have hout : c ∉ kept := fun g => hn (List.mem_filter.mp g).1
    simpa using hout
  rw [hnew] at hheld
  refine ⟨held, ?_, hheld⟩
  have hmissed : ((keys.filter fun c => !k.keys.contains c).filter fun c => !held.contains c) = keys.filter fun c => !held.contains c := by
    rw [List.filter_filter]
    refine List.filter_congr fun c hc => ?_
    by_cases hck : c ∈ k.keys
    · have hin : c ∈ held := hheld ▸ mem_take_append (List.mem_filter.mpr ⟨hck, by simpa using hc⟩) hkl
      simp [hin]
    · simp [hck]
  unfold reportEvents
  rw [List.foldl_append, List.foldl_append, List.foldl_append, hrel, h1, h2, h3, hmissed, hmods]

theorem deskKeyboardReport_detached (h : s.keyboard.attached = false) :
    exec (.deskKeyboardReport mods codes) s = .next (handedOn s) := by
  change execDeskKeyboardReport mods codes s = _
  unfold execDeskKeyboardReport
  rw [if_neg (by rw [h]; exact Bool.false_ne_true)]
  rfl

theorem deskKeyboardReport_attached (h : s.keyboard.attached = true) :
    exec (.deskKeyboardReport mods codes) s = .next (handedOn (keyboardReport mods codes s)) := by
  change execDeskKeyboardReport mods codes s = _
  unfold execDeskKeyboardReport
  rw [if_pos h]
  rfl

theorem keyboardReport_rollover (h : 1 ∈ codes) :
    keyboardReport mods codes s = s.modKeyboard fun p => { p with rollovers := count p.rollovers } :=
  if_pos (List.contains_iff_mem.mpr h)

theorem keyboardReport_events (h : 1 ∉ codes) :
    keyboardReport mods codes s = (reportEvents s.keyboard.held mods (reportKeys codes)).foldl raiseKey s :=
  if_neg fun g => h (List.contains_iff_mem.mp g)

theorem reportKeys_range : ∀ c ∈ reportKeys codes, 4 ≤ c ∧ c ≤ 223 := fun _ hc => of_decide_eq_true (List.mem_filter.mp hc).2

end Sys2Proof.Machine
end

section
/-! The held set after a report (O27). -/

open Sys2Proof Sys2Proof.Machine

/-- Settles O27: each event changes the held set alone of what the statement names, and the hotkeys leave the held set to it. -/
theorem keyboardReportKeepsHeldSet : Obligations.KeyboardReportKeepsHeldSet := by
  intro mods codes s
  refine ⟨deskKeyboardReport_detached, fun ha => ⟨fun hr => ?_, fun hr hk hlen => ?_⟩⟩
  · rw [deskKeyboardReport_attached ha, keyboardReport_rollover hr]
    rfl
  obtain ⟨h, hatt, hroll⟩ := raiseKeys_typed (reportEvents s.keyboard.held mods (reportKeys codes)) s
  obtain ⟨held, htyped, hheld⟩ := reportEvents_typed (mods := mods) hk hlen (reportKeys_range (codes := codes)) s.keyboard.ignoredPresses
  obtain ⟨h1, h2⟩ := Prod.mk.inj (h.trans htyped)
  rw [← keyboardReport_events hr] at h1 h2 hatt hroll
  have hacts := keyboardReport_acts mods codes s
  intro keys
  refine ⟨_, deskKeyboardReport_attached ha, ?_⟩
  generalize keyboardReport mods codes s = u at *
  refine ⟨h1.trans (by rw [hheld]; rfl), hatt.trans ha, hroll, ?_, by rw [hacts]; rfl, by rw [hacts]; rfl, by rw [hacts]; rfl,
    by rw [hacts]; rfl, by rw [hacts]; rfl, by rw [hacts]; rfl, by rw [hacts]; rfl, by rw [hacts]; rfl, by rw [hacts]; rfl,
    by rw [hacts]; rfl⟩
  have hu : (handedOn u).keyboard.held.keys = held := congrArg KeyState.keys h1
  rw [hu]
  exact h2

end

section
/-!
SUPPORT. A report that raises one key event, and what it hands on (R46, R47, R50).
-/

namespace Sys2Proof.Machine

open Sys2Proof

variable {s : State} {k : KeyState} {c d : Nat} {press : Bool} {keys : List Nat}

/-! ### The codes of a report -/

/-- Keys in the range of R46 are reported as they are. -/
theorem reportKeys_codes (h : ∀ d ∈ keys, 4 ≤ d ∧ d ≤ 223) :
    reportKeys (keys.map (BitVec.ofNat 8)) = keys ∧ (1 : Byte) ∉ keys.map (BitVec.ofNat 8) := by
  have hn (d : Nat) (hd : d ∈ keys) : (BitVec.ofNat 8 d).toNat = d := by
    have := h d hd
    rw [BitVec.toNat_ofNat]
    omega
  have hmap : (keys.map (BitVec.ofNat 8)).map BitVec.toNat = keys := by
    rw [List.map_map]
    exact (List.map_congr_left hn).trans (List.map_id keys)
  refine ⟨?_, fun hmem => ?_⟩
  · unfold reportKeys
    rw [hmap]
    exact List.filter_eq_self.mpr fun d hd => decide_eq_true (h d hd)
  · obtain ⟨d, hd, he⟩ := List.mem_map.mp hmem
    have h1 : d = 1 := (hn d hd).symm.trans (congrArg BitVec.toNat he)
    have := h d hd
    omega

/-! ### The one event that is raised -/

/-- An event that changes the held set as it is: a press that the list has room for, or a release of what is held (R47). -/
def raises (press : Bool) (c : Nat) (k : KeyState) : Prop :=
  if press then KeyState.has k c = false ∧ (isModifier c = true ∨ 4 ≤ c ∧ c ≤ 223 ∧ k.keys.length < 32)
  else KeyState.has k c = true

/-- The held set after an event (R47). -/
def heldAfter (press : Bool) (c : Nat) (k : KeyState) : KeyState := if press then KeyState.add k c else KeyState.drop k c

theorem heldAfter_keys (hk : ∀ d ∈ k.keys, 4 ≤ d ∧ d ≤ 223) (h : raises press c k) :
    ∀ d ∈ (heldAfter press c k).keys, 4 ≤ d ∧ d ≤ 223 := by
  intro d hd
  cases press with
  | true =>
    obtain ⟨-, hc⟩ := h
    by_cases hm : isModifier c = true
    · simp only [heldAfter, if_true, KeyState.add, if_pos hm] at hd
      exact hk d hd
    · simp only [heldAfter, if_true, KeyState.add, if_neg hm, List.mem_append, List.mem_singleton] at hd
      rcases hd with hd | rfl
      · exact hk d hd
      · obtain ⟨h1, h2, -⟩ := hc.resolve_left hm
        exact ⟨h1, h2⟩
  | false =>
    by_cases hm : isModifier c = true
    · simp only [heldAfter, Bool.false_eq_true, if_false, KeyState.drop, if_pos hm] at hd
      exact hk d hd
    · simp only [heldAfter, Bool.false_eq_true, if_false, KeyState.drop, if_neg hm] at hd
      exact hk d (List.mem_filter.mp hd).1

theorem filter_modBit (hc : isModifier c = true) : modCodes.filter (fun d => (modBit c).getLsbD (d - 224)) = [c] := by
  have h : ∀ c ∈ modCodes, modCodes.filter (fun d => (modBit c).getLsbD (d - 224)) = [c] := by decide
  exact h c (mem_modCodes.mpr (of_decide_eq_true hc))

theorem modBit_same (h : (modBit c).getLsbD (d - 224) = true) : c - 224 = d - 224 := by
  simp only [modBit_getLsbD, Bool.and_eq_true, decide_eq_true_eq] at h
  exact h.2

theorem filter_unreported (l : List Nat) : (l.filter fun d => !l.contains d) = [] :=
  List.filter_eq_nil_iff.mpr fun d hd => by simp [hd]

theorem filter_unchanged (m : Mods) : (modCodes.filter fun d => m.getLsbD (d - 224) && !m.getLsbD (d - 224)) = [] :=
  List.filter_eq_nil_iff.mpr fun d _ => by rw [Bool.and_not_self]; exact Bool.false_ne_true

/-- The events of a report in which one modifier has gone down. -/
theorem reportEvents_modPress (hm : isModifier c = true) (h : k.mods.getLsbD (c - 224) = false) :
    reportEvents k (k.mods ||| modBit c) k.keys = [⟨true, c⟩] := by
  have h2 : (modCodes.filter fun d => k.mods.getLsbD (d - 224) && !(k.mods ||| modBit c).getLsbD (d - 224)) = [] :=
    List.filter_eq_nil_iff.mpr fun d _ => by
      rw [BitVec.getLsbD_or]
      cases k.mods.getLsbD (d - 224) <;> simp
  have h3 : (modCodes.filter fun d => (k.mods ||| modBit c).getLsbD (d - 224) && !k.mods.getLsbD (d - 224)) = [c] := by
    rw [← filter_modBit hm]
    refine List.filter_congr fun d _ => ?_
    rw [BitVec.getLsbD_or]
    cases hb : (modBit c).getLsbD (d - 224) with
    | true => rw [← modBit_same hb, h]; rfl
    | false => rw [Bool.or_false, Bool.and_not_self]
  unfold reportEvents
  rw [filter_unreported, h2, h3]
  rfl

/-- The events of a report in which one modifier has come up. -/
theorem reportEvents_modRelease (hm : isModifier c = true) (h : k.mods.getLsbD (c - 224) = true) :
    reportEvents k (k.mods &&& ~~~modBit c) k.keys = [⟨false, c⟩] := by
  have hbit (d : Nat) (hd : d ∈ modCodes) : (k.mods &&& ~~~modBit c).getLsbD (d - 224) =
      (k.mods.getLsbD (d - 224) && !(modBit c).getLsbD (d - 224)) := by
    have hd8 : d - 224 < 8 := by have := mem_modCodes.mp hd; omega
    rw [BitVec.getLsbD_and, BitVec.getLsbD_not, decide_eq_true hd8, Bool.true_and]
  have h2 : (modCodes.filter fun d => k.mods.getLsbD (d - 224) && !(k.mods &&& ~~~modBit c).getLsbD (d - 224)) = [c] := by
    rw [← filter_modBit hm]
    refine List.filter_congr fun d hd => ?_
    rw [hbit d hd]
    cases hb : (modBit c).getLsbD (d - 224) with
    | true => rw [← modBit_same hb, h]; rfl
    | false => cases k.mods.getLsbD (d - 224) <;> rfl
  have h3 : (modCodes.filter fun d => (k.mods &&& ~~~modBit c).getLsbD (d - 224) && !k.mods.getLsbD (d - 224)) = [] :=
    List.filter_eq_nil_iff.mpr fun d hd => by
      rw [hbit d hd]
      cases k.mods.getLsbD (d - 224) <;> simp
  unfold reportEvents
  rw [filter_unreported, h2, h3]
  rfl

/-- The events of a report in which one key has gone down. -/
theorem reportEvents_press (h : c ∉ k.keys) : reportEvents k k.mods (k.keys ++ [c]) = [⟨true, c⟩] := by
  have h1 : (k.keys.filter fun d => !(k.keys ++ [c]).contains d) = [] :=
    List.filter_eq_nil_iff.mpr fun d hd => by simp [hd]
  have h4 : ((k.keys ++ [c]).filter fun d => !k.keys.contains d) = [c] := by
    rw [List.filter_append, filter_unreported, List.filter_cons_of_pos (by simpa using h)]
    rfl
  unfold reportEvents
  rw [h1, filter_unchanged, h4]
  rfl

/-- The events of a report in which one key has come up: a release as often as the held list names it. -/
theorem reportEvents_release (h : c ∈ k.keys) :
    ∃ n, reportEvents k k.mods (k.keys.filter (· != c)) = List.replicate (n + 1) ⟨false, c⟩ := by
  have h1 : (k.keys.filter fun d => !(k.keys.filter (· != c)).contains d) = List.replicate (k.keys.count c) c := by
    rw [← List.filter_beq]
    refine List.filter_congr fun d hd => ?_
    rw [Bool.eq_iff_iff]
    simp [hd]
  have h4 : ((k.keys.filter (· != c)).filter fun d => !k.keys.contains d) = [] :=
    List.filter_eq_nil_iff.mpr fun d hd => by simp [(List.mem_filter.mp hd).1]
  obtain ⟨n, hn⟩ := Nat.exists_eq_succ_of_ne_zero (List.count_pos_iff.mpr h).ne'
  refine ⟨n, ?_⟩
  unfold reportEvents
  rw [h1, filter_unchanged, h4, hn]
  simp

/-- The events of a report that reports the held set after one event: that event, and again while the list still named its key. -/
theorem reportEvents_one (h : raises press c k) :
    ∃ n, reportEvents k (heldAfter press c k).mods (heldAfter press c k).keys = List.replicate (n + 1) ⟨press, c⟩ ∧
      (press = true → n = 0) := by
  by_cases hm : isModifier c = true
  · cases press with
    | true =>
      refine ⟨0, ?_, fun _ => rfl⟩
      have hb : k.mods.getLsbD (c - 224) = false := by simpa [KeyState.has, hm] using h.1
      simp only [heldAfter, if_true, KeyState.add, if_pos hm]
      exact reportEvents_modPress hm hb
    | false =>
      refine ⟨0, ?_, fun _ => rfl⟩
      have hb : k.mods.getLsbD (c - 224) = true := by simpa [raises, KeyState.has, hm] using h
      simp only [heldAfter, Bool.false_eq_true, if_false, KeyState.drop, if_pos hm]
      exact reportEvents_modRelease hm hb
  · cases press with
    | true =>
      refine ⟨0, ?_, fun _ => rfl⟩
      have hn : c ∉ k.keys := by simpa [KeyState.has, hm] using h.1
      simp only [heldAfter, if_true, KeyState.add, if_neg hm]
      exact reportEvents_press hn
    | false =>
      have hn : c ∈ k.keys := by simpa [raises, KeyState.has, hm] using h
      obtain ⟨n, hr⟩ := reportEvents_release hn
      refine ⟨n, ?_, Bool.noConfusion⟩
      simp only [heldAfter, Bool.false_eq_true, if_false, KeyState.drop, if_neg hm]
      exact hr

theorem drop_has (k : KeyState) (c : Nat) : KeyState.has (KeyState.drop k c) c = false := by
  unfold KeyState.has KeyState.drop at *
  by_cases hm : isModifier c = true
  · have hr : 224 ≤ c ∧ c ≤ 231 := of_decide_eq_true hm
    have h8 : c - 224 < 8 := by omega
    simp only [if_pos hm, BitVec.getLsbD_and, BitVec.getLsbD_not, modBit_getLsbD, decide_eq_true h8]
    simp
  · simp [if_neg hm]

theorem raiseKey_absent (h : KeyState.has s.keyboard.held c = false) : raiseKey s ⟨false, c⟩ = s := by
  unfold raiseKey
  simp [h]

/-- An event that changes the held set is handed on whole (R47). -/
theorem raiseKey_raises (h : raises press c s.keyboard.held) :
    raiseKey s ⟨press, c⟩ = handleKey ⟨press, c⟩ (setHeld (heldAfter press c s.keyboard.held) s) := by
  unfold raiseKey heldAfter
  cases press with
  | true =>
    obtain ⟨hn, hroom⟩ := h
    have hf : ¬ (!isModifier c && decide (Config.heldKeys ≤ s.keyboard.held.keys.length)) = true := by
      rcases hroom with hm | ⟨-, -, hl⟩
      · simp [hm]
      · simp [Config.heldKeys, Nat.not_le.mpr hl]
    simp only [if_true, hn, Bool.false_eq_true, if_false, if_neg hf]
  | false =>
    have hh : KeyState.has s.keyboard.held c = true := h
    simp only [Bool.false_eq_true, if_false, hh, if_true]

theorem raiseKeys_released (h : KeyState.has s.keyboard.held c = false) (n : Nat) :
    (List.replicate n (⟨false, c⟩ : KeyEvent)).foldl raiseKey s = s := by
  induction n with
  | zero => rfl
  | succ n ih => rw [List.replicate_succ, List.foldl_cons, raiseKey_absent h, ih]

/-- A report of the held set after one event raises that event alone (R46, R47). -/
theorem keyboardReport_one (hk : ∀ d ∈ s.keyboard.held.keys, 4 ≤ d ∧ d ≤ 223) (h : raises press c s.keyboard.held) :
    keyboardReport (heldAfter press c s.keyboard.held).mods ((heldAfter press c s.keyboard.held).keys.map (BitVec.ofNat 8)) s =
      handleKey ⟨press, c⟩ (setHeld (heldAfter press c s.keyboard.held) s) := by
  obtain ⟨hrep, hroll⟩ := reportKeys_codes (heldAfter_keys hk h)
  obtain ⟨n, hn, hpress⟩ := reportEvents_one h
  rw [keyboardReport_events hroll, hrep, hn, List.replicate_succ, List.foldl_cons, raiseKey_raises h]
  cases press with
  | true => rw [hpress rfl]; rfl
  | false =>
    refine raiseKeys_released ?_ n
    rw [(handleKey_keyboardLit _ _).held]
    exact drop_has ..

/-! ### The matcher's part -/

/-- The state that the matcher step leaves before an entry fires: the matcher takes its next state, a withheld press enters
the mask, and a released code leaves it (R49, R50, R88). -/
def matched (e : KeyEvent) (s : State) : State :=
  let j := judgeKey s e
  let s1 := s.modMatcher fun m => { m with state := j.state }
  if e.press then (if j.withheld then maskCode e.code s1 else s1) else modMask (KeyState.drop · e.code) s1

theorem matchKey_quiet {e : KeyEvent} (h : (judgeKey s e).fires = none) : matchKey e s = matched e s := by
  unfold matchKey
  simp only [h]
  rfl

theorem matchKey_fires {e : KeyEvent} {i : Fin 32} {d : HotkeyEntry} (h : (judgeKey s e).fires = some i) (hi : s.hotkey i = some d) :
    matchKey e s = fire d.action (.keys i) (matched e s) := by
  unfold matchKey
  simp only [h, hi]
  rfl

/-- What a report that raises one event hands on. -/
theorem keyReport_handsOn (ha : s.keyboard.attached = true) (hk : ∀ d ∈ s.keyboard.held.keys, 4 ≤ d ∧ d ≤ 223)
    (h : raises press c s.keyboard.held) :
    let now := heldAfter press c s.keyboard.held
    let j := judgeKey (setHeld now s) ⟨press, c⟩
    let answer := exec (.deskKeyboardReport now.mods (now.keys.map (BitVec.ofNat 8))) s
    (j.fires = none → handsKeysOn (press && !j.withheld) (matched ⟨press, c⟩ (setHeld now s)) answer) ∧
    ∀ i e, j.fires = some i → s.hotkey i = some e →
      handsKeysOn (press && !j.withheld) (fire e.action (.keys i) (matched ⟨press, c⟩ (setHeld now s))) answer := by
  intro now j answer
  have hanswer : answer = .next (handedOn (countAndWake (press && !j.withheld) (sendRecords (matchKey ⟨press, c⟩ (setHeld now s))))) :=
    (deskKeyboardReport_attached ha).trans (congrArg done (keyboardReport_one hk h))
  rw [hanswer]
  refine ⟨fun hj => ?_, fun i e hj hi => ?_⟩
  · rw [matchKey_quiet hj]
    exact keysHandedOn ..
  · rw [matchKey_fires hj hi]
    exact keysHandedOn ..

theorem matched_eq (press : Bool) (c : Nat) (s : State) :
    matched ⟨press, c⟩ s = { s with
      matcher := { s.matcher with state := (judgeKey s ⟨press, c⟩).state }
      router := { s.router with mask :=
        if press = false then KeyState.drop s.router.mask c
        else if (judgeKey s ⟨press, c⟩).withheld = true ∧ KeyState.has s.router.mask c = false then KeyState.add s.router.mask c
        else s.router.mask } } := by
  unfold matched
  cases press with
  | false => rfl
  | true =>
    dsimp only
    cases (judgeKey s ⟨true, c⟩).withheld with
    | false => simp only [Bool.false_eq_true, if_false, if_true, false_and]; rfl
    | true =>
      simp only [if_true, true_and]
      unfold maskCode
      cases hm : KeyState.has s.router.mask c with
      | true => exact if_pos hm
      | false => exact if_neg (by rw [State.modMatcher_router, hm]; exact Bool.false_ne_true)

/-- Whether a modifier's bit is set, as the statements test it. -/
theorem modBit_test (m : Mods) (hc : isModifier c = true) : (m &&& modBit c != 0) = m.getLsbD (c - 224) := by
  have hr : 224 ≤ c ∧ c ≤ 231 := of_decide_eq_true hc
  have ht : m &&& modBit c = if m.getLsbD (c - 224) then modBit c else 0 := BitVec.and_twoPow m (c - 224)
  have hne : modBit c ≠ 0#8 := fun h => by
    have h1 := modBit_getLsbD c (c - 224)
    rw [h, decide_eq_true (show c - 224 < 8 by omega), decide_eq_true rfl] at h1
    simp at h1
  rw [ht]
  cases m.getLsbD (c - 224) <;> simp [hne]

theorem KeyState.has_eq (k : KeyState) (c : Nat) :
    (if isModifier c then k.mods &&& modBit c != 0 else k.keys.contains c) = KeyState.has k c := by
  unfold KeyState.has
  split
  next hm => exact modBit_test k.mods hm
  next => rfl

/-! ### A report with one more key -/

/-- What a report with one more key hands on. -/
theorem onePress_handsOn {key : Byte} (ha : s.keyboard.attached = true) (hk : ∀ d ∈ s.keyboard.held.keys, 4 ≤ d ∧ d ≤ 223)
    (hlen : s.keyboard.held.keys.length < 32) (h4 : 4 ≤ key.toNat) (h223 : key.toNat ≤ 223)
    (hnew : key.toNat ∉ s.keyboard.held.keys) :
    let held := s.keyboard.held
    let x := setHeld ⟨held.mods, held.keys ++ [key.toNat]⟩ s
    let j := judgeKey x ⟨true, key.toNat⟩
    let answer := exec (.deskKeyboardReport held.mods (held.keys.map (BitVec.ofNat 8) ++ [key])) s
    (j.fires = none → handsKeysOn (!j.withheld) (matched ⟨true, key.toNat⟩ x) answer) ∧
    ∀ i e, j.fires = some i → s.hotkey i = some e →
      handsKeysOn (!j.withheld) (fire e.action (.keys i) (matched ⟨true, key.toNat⟩ x)) answer := by
  have hm : isModifier key.toNat = false := isModifier_key ⟨h4, h223⟩
  have hr : raises true key.toNat s.keyboard.held := ⟨by simpa [KeyState.has, hm] using hnew, .inr ⟨h4, h223, hlen⟩⟩
  have hafter : heldAfter true key.toNat s.keyboard.held = ⟨s.keyboard.held.mods, s.keyboard.held.keys ++ [key.toNat]⟩ := by
    simp [heldAfter, KeyState.add, hm]
  have hcodes : (s.keyboard.held.keys ++ [key.toNat]).map (BitVec.ofNat 8) = s.keyboard.held.keys.map (BitVec.ofNat 8) ++ [key] := by
    simp
  have h := keyReport_handsOn ha hk hr
  simp only [hafter, hcodes, Bool.true_and] at h
  exact h

/-- A withheld press of a key leaves its code in the mask (R49). -/
theorem matched_press (c : Nat) (s : State) (hc : isModifier c = false) :
    matched ⟨true, c⟩ s = { s with
      matcher := { s.matcher with state := (judgeKey s ⟨true, c⟩).state }
      router := { s.router with mask :=
        if (judgeKey s ⟨true, c⟩).withheld = true then
          { s.router.mask with keys := if c ∈ s.router.mask.keys then s.router.mask.keys else s.router.mask.keys ++ [c] }
        else s.router.mask } } := by
  rw [matched_eq, if_neg (by exact Bool.noConfusion)]
  have hmask : (if (judgeKey s ⟨true, c⟩).withheld = true ∧ KeyState.has s.router.mask c = false then KeyState.add s.router.mask c
      else s.router.mask) =
      if (judgeKey s ⟨true, c⟩).withheld = true then
        { s.router.mask with keys := if c ∈ s.router.mask.keys then s.router.mask.keys else s.router.mask.keys ++ [c] }
      else s.router.mask := by
    cases (judgeKey s ⟨true, c⟩).withheld with
    | false => simp
    | true => by_cases hmem : c ∈ s.router.mask.keys <;> simp [KeyState.has, KeyState.add, hc, hmem]
  rw [hmask]

theorem isChord_iff (m : Mods) (k : Nat) (d : Trigger) : isChord m k d = true ↔ d = .chord m k := by
  cases d <;> simp [isChord]

theorem isTap_iff (k : Nat) (d : Trigger) : isTap k d = true ↔ ∃ c, d = .tap k c := by
  cases d <;> simp [isTap]

/-- In IDLE a press that no CHORD and no TAP entry takes is delivered (R89). -/
theorem judgeKey_untaken {k : Nat} (hi : s.matcher.state = .idle)
    (h : ∀ i e, s.hotkey i = some e → (∀ c, e.trigger ≠ .tap k c) ∧ e.trigger ≠ .chord s.keyboard.held.mods k) :
    judgeKey s ⟨true, k⟩ = ⟨.idle, false, none⟩ := by
  have hchord : findEntry s (isChord s.keyboard.held.mods k) = none := findEntry_eq_none fun i e he =>
    Bool.eq_false_iff.mpr fun g => (h i e he).2 ((isChord_iff ..).mp g)
  have htap : findEntry s (isTap k) = none := findEntry_eq_none fun i e he => Bool.eq_false_iff.mpr fun g => by
    obtain ⟨c, hc⟩ := (isTap_iff ..).mp g
    exact (h i e he).1 c hc
  simp only [judgeKey, hi, judgeIdlePress, hchord, htap, ite_self]

/-! ### The command phase -/

theorem judgeKey_command {k d : Nat} (h : s.matcher.state = .command d) (hk : isModifier k = false) :
    judgeKey s ⟨true, k⟩ = ⟨.idle, true, findEntry s (isCommand k)⟩ := by
  simp only [judgeKey, h, hk, Bool.not_false, Bool.and_self, if_true]

theorem judgeKey_command_modifier {k d : Nat} (h : s.matcher.state = .command d) (hk : isModifier k = true) :
    judgeKey s ⟨true, k⟩ = ⟨.command d, false, none⟩ := by
  simp only [judgeKey, h, hk, Bool.not_true, Bool.and_false, Bool.false_eq_true, if_false]

theorem judgeKey_command_release {d : Nat} (h : s.matcher.state = .command d) (k : Nat) :
    judgeKey s ⟨false, k⟩ = ⟨.command d, false, none⟩ := by
  simp only [judgeKey, h, Bool.false_and, Bool.false_eq_true, if_false]

theorem findEntry_no_command {k : Nat} (h : ∀ i e, s.hotkey i = some e → e.trigger ≠ .command k) :
    findEntry s (isCommand k) = none :=
  findEntry_eq_none fun i e he => Bool.eq_false_iff.mpr fun g => h i e he ((isCommand_iff ..).mp g)

theorem commandWindowExpiry_runs {d : Nat} (h : s.matcher.state = .command d) :
    exec .commandWindowExpiry s = .next (handedOn { s with now := max s.now d, matcher := { s.matcher with state := .idle } }) := by
  change execCommandWindowExpiry s = _
  unfold execCommandWindowExpiry
  rw [h]; rfl

end Sys2Proof.Machine
end

section
/-! A delivered press (O28). -/

open Sys2Proof Sys2Proof.Machine

/-- Settles O28: the report raises one event, whose records and frame are formed from the state that the matcher step leaves. -/
theorem deliveredPressIsQueued : Obligations.DeliveredPressIsQueued := by
  refine ⟨?_, ?_⟩
  · intro key s held ha hk hlen h4 h223 hnew hidle hentries hclear
    let x := setHeld ⟨held.mods, held.keys ++ [key.toNat]⟩ s
    obtain ⟨hquiet, -⟩ := onePress_handsOn ha hk hlen h4 h223 hnew
    have hj : judgeKey x ⟨true, key.toNat⟩ = ⟨.idle, false, none⟩ := judgeKey_untaken hidle hentries
    have hx : matched ⟨true, key.toNat⟩ x = x := by
      rw [matched_press _ _ (isModifier_key ⟨h4, h223⟩), hj]
      simp only [Bool.false_eq_true, if_false]
      rw [← show x.matcher.state = .idle from hidle]
    have h := hquiet (by rw [hj])
    rw [hj, hx] at h
    exact h
  · intro press c s held modifier bit has put take ha hk hpress hrel now raised j judged answer
    have hhas (k : KeyState) : has k = KeyState.has k c := KeyState.has_eq k c
    have hr : raises press c held := by
      unfold raises
      split
      next hp =>
        obtain ⟨h1, h2⟩ := hpress hp
        exact ⟨(hhas held).symm.trans h1, h2⟩
      next hp => exact (hhas held).symm.trans (hrel (Bool.not_eq_true _ ▸ hp))
    have hjudged : judged = matched ⟨press, c⟩ (setHeld now s) := by
      rw [matched_eq, ← hhas]
      rfl
    rw [hjudged]
    exact keyReport_handsOn ha hk hr

end

section
/-! The command phase (O39). -/

open Sys2Proof Sys2Proof.Machine

/-- Settles O39: the phase withholds the press, and the report hands on the records of the state that leaves. -/
theorem commandPhaseJudgesKeys : Obligations.CommandPhaseJudgesKeys := by
  intro s d hd
  have hout {k : Nat} (h : k < 224 ∨ 231 < k) : isModifier k = false := decide_eq_false fun g => by omega
  refine ⟨fun k hk => ⟨fun ha i a hi => ?_, fun h => ?_⟩, fun k h1 h2 => judgeKey_command_modifier hd (decide_eq_true ⟨h1, h2⟩),
    judgeKey_command_release hd, ?_, commandWindowExpiry_runs hd⟩
  · rw [judgeKey_command hd (hout hk), findEntry_command ha hi]
  · rw [judgeKey_command hd (hout hk), findEntry_no_command h]
  intro key held ha hk hlen h4 h223 hnew withheld answer
  let x := setHeld ⟨held.mods, held.keys ++ [key.toNat]⟩ s
  have hm := isModifier_key ⟨h4, h223⟩
  have hj : judgeKey x ⟨true, key.toNat⟩ = ⟨.idle, true, findEntry s (isCommand key.toNat)⟩ := judgeKey_command (s := x) hd hm
  have hx : matched ⟨true, key.toNat⟩ x = withheld := by
    rw [matched_press _ _ hm, hj]
    rfl
  obtain ⟨hquiet, hfires⟩ := onePress_handsOn ha hk hlen h4 h223 hnew
  refine ⟨fun h => ?_, fun hap i a hi => ?_⟩
  · have g := hquiet (by rw [hj]; exact findEntry_no_command h)
    rw [hj, hx] at g
    exact g
  · have g := hfires i _ (by rw [hj]; exact findEntry_command hap hi) hi
    rw [hj, hx] at g
    exact g

end

section
/-!
SUPPORT. What a change of the bus state does to the recipients, and what an attach, a configure, a suspend and a resume leave
(R59, R60, R62).
-/

namespace Sys2Proof.Machine

open Sys2Proof

variable {s t u v x : State} {n m : Comp} {b : BusState}

/-! ### The recipients after a change of the bus state -/

/-- The recipients look at whether a port is DETACHED, and at nothing else of it. -/
theorem isRecipient_buses (s t : State) (hf : t.focus = s.focus) (hb : t.blank = s.blank) (hc : t.comps = s.comps)
    (hr : t.router.broadcast = s.router.broadcast) (hh : t.controls = s.controls)
    (hp : ∀ m, BusState.present (t.port m).bus = BusState.present (s.port m).bus) (m : Comp) :
    isRecipient t m = isRecipient s m := by
  unfold isRecipient blanked State.comp State.control
  simp only [hf, hb, hc, hr, hh, hp]

/-- Nothing happens where the recipients stay the same. -/
theorem rederive_unmoved {old : State} (hc : ∀ m, isRecipient s m = isRecipient old m)
    (hl : ∀ k, linkIsRecipient s k = linkIsRecipient old k) : rederive old s = s := by
  unfold rederive
  dsimp only
  rw [releaseLeavers_none (fun m h => (hc m).trans h) fun k => by simp [linkGone, hl k]]
  rw [if_neg]
  rw [someoneJoined_false (fun m h => (hc m).symm.trans h) fun k h => (hl k).symm.trans h]
  exact Bool.false_ne_true

/-- A change between two bus states other than DETACHED moves no recipient. -/
theorem setBus_present (hb : b ≠ .detached) (hs : (s.port n).bus ≠ .detached) :
    setBus n b s = s.modPort n fun p => { p with bus := b } := by
  refine rederive_unmoved (fun j => isRecipient_buses s (s.modPort n fun p => { p with bus := b }) rfl rfl rfl rfl rfl (fun m => ?_) j) fun k => rfl
  by_cases hm : m = n
  · subst hm
    rw [State.modPort_port, if_pos rfl, BusState.present, BusState.present, bne_iff_ne.mpr hb, bne_iff_ne.mpr hs]
  · rw [State.modPort_port, if_neg hm]

/-- A computer stays a recipient where each computer that was attached still is. -/
theorem isRecipient_more (hf : t.focus = s.focus) (hb : t.blank = s.blank) (hc : t.comps = s.comps)
    (hr : t.router.broadcast = s.router.broadcast) (hh : t.controls = s.controls)
    (hp : ∀ m, BusState.present (s.port m).bus = true → BusState.present (t.port m).bus = true)
    (h : isRecipient s m = true) : isRecipient t m = true := by
  unfold isRecipient blanked State.comp State.control at h ⊢
  rw [hf, hb, hc, hr, hh]
  cases hs : s.focus.target with
  | loc k =>
    simp only [hs, Bool.and_eq_true, Bool.or_eq_true] at h ⊢
    obtain ⟨⟨⟨h1, h2⟩, h3⟩, h4⟩ := h
    exact ⟨⟨⟨h1, hp k h2⟩, h3⟩, h4.imp_right fun ⟨⟨h5, h6⟩, h7⟩ => ⟨⟨h5, hp m h6⟩, h7⟩⟩
  | rem k => simp [hs] at h
  | none => simp [hs] at h

/-- An attach lets nobody leave. -/
theorem isRecipient_attach (hb : b ≠ .detached) (h : isRecipient s m = true) :
    isRecipient (s.modPort n fun p => { p with bus := b }) m = true := by
  refine isRecipient_more (s := s) rfl rfl rfl rfl rfl (fun j hj => ?_) h
  by_cases hjn : j = n
  · subst hjn; simp [BusState.present, hb]
  · rw [State.modPort_port, if_neg hjn]; exact hj

/-- A newly attached computer can only join the recipients, and then every held key is masked (R49, R60). -/
theorem setBus_attach (hb : b ≠ .detached) (s : State) (n : Comp) :
    let u := setBus n b s
    (∀ m, u.port m = if m = n then { s.port m with bus := b } else s.port m) ∧
    ((∃ m, isRecipient u m = true ∧ isRecipient s m = false) → heldMasked s u) ∧
    ((∀ m, isRecipient u m = true → isRecipient s m = true) → u.router.mask = s.router.mask) ∧
    u = { s with ports := u.ports, router := { s.router with mask := u.router.mask } } := by
  let v := s.modPort n fun p => { p with bus := b }
  have hleave : releaseLeavers s v = v := releaseLeavers_none (fun m h => isRecipient_attach hb h) fun k => by
    change (linkIsRecipient s k && !linkIsRecipient s k && _) = false
    rw [Bool.and_not_self]
    rfl
  have hu : setBus n b s = if someoneJoined s v then maskHeld v else v := by
    change rederive s v = _
    unfold rederive
    rw [hleave]
  have hj : someoneJoined s v = true ↔ ∃ m, isRecipient v m = true ∧ isRecipient s m = false :=
    someoneJoined_comps fun k => rfl
  rw [hu]
  split
  next h =>
    refine ⟨fun m => State.modPort_port .., fun _ => maskHeld_heldMasked (x := v) rfl rfl, fun g => ?_, rfl⟩
    obtain ⟨m, h1, h2⟩ := hj.mp h
    rw [g m h1] at h2
    cases h2
  next h => exact ⟨fun m => State.modPort_port .., fun g => absurd (hj.mpr g) h, fun _ => rfl, rfl⟩

/-! ### The wake controller told of ACTIVE -/

theorem newest_eq {α : Type} (q : List α) : newest q = q.getLast?.toList := by
  unfold newest
  rcases q.eq_nil_or_concat with rfl | ⟨l, a, rfl⟩
  · rfl
  · simp

/-- The port of a computer has entered ACTIVE and its wake attempt has ended (R59, R171). -/
structure PortActive (n : Comp) (s t : State) : Prop where
  port : t.port n = { s.port n with bus := .active }
  ports : ∀ m, m ≠ n → t.port m = s.port m
  attempt : t.wakeOf n = ⟨.none, (s.wakeOf n).powered⟩
  attempts : ∀ m, m ≠ n → t.wakeOf m = s.wakeOf m
  pulse : ∀ f l e, (s.wakeOf n).attempt = .pulse f l e →
    t.line l = { s.line l with level := false } ∧ ∀ j, j ≠ l → t.line j = s.line j
  quiet : (∀ f l e, (s.wakeOf n).attempt ≠ .pulse f l e) → t.lines = s.lines
  rest : t = { s with
    ports := t.ports, wake := t.wake, lines := t.lines
    sup := queueNotice .power
      (powerNotice n (.busState (Attempt.inFlight (s.wakeOf n).attempt)) .active ⟨.none, (s.wakeOf n).powered⟩) s.sup }

theorem endPulse_eq (n : Comp) (s : State) : endPulse n s = { s with lines := (endPulse n s).lines } := by
  unfold endPulse; split <;> rfl

theorem endPulse_pulse {f : Flight} {l : LineId} {e : Nat} (h : (s.wakeOf n).attempt = .pulse f l e) :
    endPulse n s = s.modLine l fun ln => { ln with level := false } := by
  simp only [endPulse, h, Attempt.pulseLine, setPulse]

theorem endPulse_quiet (h : ∀ f l e, (s.wakeOf n).attempt ≠ .pulse f l e) : endPulse n s = s := by
  unfold endPulse
  cases ha : (s.wakeOf n).attempt with
  | pulse f l e => exact absurd ha (h f l e)
  | _ => rfl

theorem enterActive_active (h : (s.port n).bus ≠ .detached) : PortActive n s (enterActive n s) := by
  unfold enterActive wakeActive
  rw [setBus_present BusState.noConfusion h]
  have hpulse {f : Flight} {l : LineId} {e : Nat} (ha : (s.wakeOf n).attempt = .pulse f l e) :=
    endPulse_pulse (s := s.modPort n fun p => { p with bus := .active }) ha
  have hquiet (ha : ∀ f l e, (s.wakeOf n).attempt ≠ .pulse f l e) :=
    endPulse_quiet (s := s.modPort n fun p => { p with bus := .active }) ha
  have heq := endPulse_eq n (s.modPort n fun p => { p with bus := .active })
  generalize endPulse n (s.modPort n fun p => { p with bus := .active }) = y at *
  have hport (m : Comp) : y.port m = if m = n then { s.port m with bus := .active } else s.port m := by
    rw [heq]; exact State.modPort_port ..
  have hwake (m : Comp) : y.wakeOf m = s.wakeOf m := by rw [heq]; rfl
  have hnotice : powerNotice n (.busState (Attempt.inFlight (s.wakeOf n).attempt)) ((setAttempt n .none y).port n).bus
      ((setAttempt n .none y).wakeOf n) =
      powerNotice n (.busState (Attempt.inFlight (s.wakeOf n).attempt)) .active ⟨.none, (s.wakeOf n).powered⟩ := by
    simp [setAttempt, hport, hwake]
  have heff : notifyPower n (.busState (Attempt.inFlight (s.wakeOf n).attempt)) (setAttempt n .none y) =
      { y with
        wake := (setAttempt n .none y).wake
        sup := queueNotice .power
          (powerNotice n (.busState (Attempt.inFlight (s.wakeOf n).attempt)) .active ⟨.none, (s.wakeOf n).powered⟩) y.sup } := by
    unfold notifyPower
    rw [hnotice]
    rfl
  change PortActive n s (notifyPower n (.busState (Attempt.inFlight (s.wakeOf n).attempt)) (setAttempt n .none y))
  rw [heff]
  have hlines (l j : LineId) {f : Flight} {e : Nat} (ha : (s.wakeOf n).attempt = .pulse f l e) :
      y.line j = if j = l then { s.line j with level := false } else s.line j := by
    rw [hpulse ha]; exact State.modLine_line ..
  refine ⟨(hport n).trans (if_pos rfl), fun m hm => (hport m).trans (if_neg hm), ?_, fun m hm => ?_,
    fun f l e ha => ⟨(hlines l l ha).trans (if_pos rfl), fun j hj => (hlines l j ha).trans (if_neg hj)⟩, fun ha => ?_, ?_⟩
  · change (setAttempt n .none y).wakeOf n = _
    simp [setAttempt, hwake]
  · change (setAttempt n .none y).wakeOf m = _
    simp [setAttempt, hwake, State.modWake_wakeOf, hm]
  · change y.lines = s.lines
    rw [hquiet ha]
    rfl
  · rw [heq]
    rfl

/-! ### The commands -/

/-- The statement's port after the trim of R62. -/
theorem trimPort_eq (p : Port) :
    trimPort p = { p with
      keyQueue := p.keyQueue.getLast?.toList, pointerQueue := p.pointerQueue.getLast?.toList
      counters := { p.counters with
        keyTrimmed := min (p.counters.keyTrimmed + (p.keyQueue.length - 1)) 4294967295
        pointerTrimmed := min (p.counters.pointerTrimmed + (p.pointerQueue.length - 1)) 4294967295 } } := by
  simp only [trimPort, newest_eq, countBy, Config.countMax]

theorem tellBus_eq (n : Comp) (s : State) :
    tellBus n s = s.modSup (queueNotice .power (powerNotice n (.busState false) (s.port n).bus (s.wakeOf n))) := rfl

theorem attachPort_attached (hb : (s.port n).bus = .detached) :
    let t := attachPort n s
    t.port n = { Port.fresh (s.port n) with keyQueue := [], pointerQueue := [], bus := .attached } ∧
    (∀ m, m ≠ n → t.port m = s.port m) ∧
    ((∃ m, isRecipient t m = true ∧ isRecipient s m = false) → heldMasked s t) ∧
    ((∀ m, isRecipient t m = true → isRecipient s m = true) → t.router.mask = s.router.mask) ∧
    t = { s with
      ports := t.ports, router := { s.router with mask := t.router.mask }
      sup := queueNotice .power (powerNotice n (.busState false) .attached (s.wakeOf n)) s.sup } := by
  have hy (m : Comp) : isRecipient (s.modPort n fun p => { Port.fresh p with keyQueue := [], pointerQueue := [] }) m = isRecipient s m := by
    refine isRecipient_buses s (s.modPort n fun p => { Port.fresh p with keyQueue := [], pointerQueue := [] }) rfl rfl rfl rfl rfl
      (fun j => ?_) m
    by_cases hj : j = n
    · subst hj; simp [Port.fresh]
    · simp [State.modPort_port, hj]
  obtain ⟨hport, h1, h2, h3⟩ := setBus_attach (b := .attached) BusState.noConfusion
    (s.modPort n fun p => { Port.fresh p with keyQueue := [], pointerQueue := [] }) n
  unfold attachPort
  simp only [hy] at h1 h2
  generalize setBus n .attached (s.modPort n fun p => { Port.fresh p with keyQueue := [], pointerQueue := [] }) = u at *
  have hp (m : Comp) : u.port m =
      if m = n then { Port.fresh (s.port n) with keyQueue := [], pointerQueue := [], bus := .attached } else s.port m := by
    rw [hport]
    by_cases hm : m = n
    · subst hm; simp
    · simp [State.modPort_port, hm]
  have hw : u.wakeOf n = s.wakeOf n := by rw [h3]; rfl
  have hs : u.sup = s.sup := by rw [h3]; rfl
  have htold : tellBus n u = { u with sup := queueNotice .power (powerNotice n (.busState false) .attached (s.wakeOf n)) s.sup } := by
    rw [tellBus_eq, hp, if_pos rfl, hw, ← hs]
    rfl
  rw [htold]
  refine ⟨(hp n).trans (if_pos rfl), fun m hm => (hp m).trans (if_neg hm), h1, h2, ?_⟩
  conv_lhs => rw [h3]
  rfl

theorem setBus_suspended (h : (s.port n).bus ≠ .detached) :
    let t := tellBus n (setBus n .suspended s)
    t.port n = { s.port n with bus := .suspended } ∧ (∀ m, m ≠ n → t.port m = s.port m) ∧
    t = { s with
      ports := t.ports
      sup := queueNotice .power (powerNotice n (.busState false) .suspended (s.wakeOf n)) s.sup } := by
  rw [setBus_present BusState.noConfusion h]
  let v := s.modPort n fun p => { p with bus := .suspended }
  have hport : v.port n = { s.port n with bus := .suspended } := by simp [v]
  have ht : tellBus n v = { v with
      sup := queueNotice .power (powerNotice n (.busState false) .suspended (s.wakeOf n)) s.sup } := by
    unfold tellBus notifyPower
    rw [hport]
    rfl
  intro t
  change t = _ at ht
  rw [ht]
  exact ⟨hport, fun m hm => (State.modPort_port ..).trans (if_neg hm), rfl⟩

end Sys2Proof.Machine
end

section
/-!
SUPPORT. What a port reset and a detach leave (R61, R63, R173).
-/

namespace Sys2Proof.Machine

open Sys2Proof

variable {s t u v w x y : State} {n m : Comp}

/-! ### The port is emptied -/

/-- A port whose queues have been flushed and whose values are those of a fresh one (R60, R73). -/
def flushedPort (p : Port) : Port :=
  { p with
    keyQueue := [], pointerQueue := [], keyFormat := .full, pointerFormat := .full, remoteWake := false
    lights := ⟨false, false, false⟩, cx := 0, cy := 0, buttons := 0
    counters := { p.counters with
      keyFlushed := min (p.counters.keyFlushed + p.keyQueue.length) 4294967295
      pointerFlushed := min (p.counters.pointerFlushed + p.pointerQueue.length) 4294967295 } }

/-- Whether a reset of the port turns the effective pointer mode of its computer back to ABSOLUTE (R64). -/
def modeTurns (s : State) (n : Comp) : Bool := (s.port n).pointerFormat == .boot && (s.comp n).pointerMode == .absolute

/-- What the first two steps of a detach and of a port reset leave (R61, R63). -/
structure PortEmptied (n : Comp) (s x : State) : Prop where
  port : x.port n = flushedPort (s.port n)
  ports : ∀ m, m ≠ n → x.port m = s.port m
  lastKey : x.lastKey n = none
  lastKeys : ∀ m, m ≠ n → x.lastKey m = s.lastKey m
  lastPointer : x.lastPointer n = none
  lastPointers : ∀ m, m ≠ n → x.lastPointer m = s.lastPointer m
  pointer : x.pointer = { s.pointer with capture := s.pointer.capture && !(modeTurns s n && s.focus.target == .loc n) }
  keyboard : x.keyboard = { s.keyboard with lightsSent :=
    (if s.focus.target = .loc n ∧ s.keyboard.attached = true then some ⟨false, false, false⟩ else s.keyboard.lightsSent) }
  link : ∀ k, x.link k =
    match Outbound.activeHead (s.link k).outbound with
    | some h =>
      if h.comp = n ∧ modeTurns s n = true then enqueueFrame (.mode (sentMode s h) .absolute) (s.link k) else s.link k
    | none => s.link k
  rest : x = { s with
    ports := x.ports, router := { s.router with lastKey := x.router.lastKey, lastPointer := x.router.lastPointer }
    pointer := x.pointer, keyboard := x.keyboard, links := x.links }

/-- The state with both queues flushed and the port's values fresh. -/
def portFlushed (n : Comp) (s : State) : State := (flushPort n s).modPort n Port.fresh

theorem portFlushed_port (n m : Comp) (s : State) :
    (portFlushed n s).port m = if m = n then flushedPort (s.port m) else s.port m := by
  by_cases hm : m = n
  · subst hm
    simp [portFlushed, flushPort, flushPointer, flushKeys, Port.fresh, flushedPort, countBy, Config.countMax, Lights.off]
  · simp [portFlushed, flushPort, flushPointer, flushKeys, State.modPort_port, hm]

theorem portFlushed_lastKey (n m : Comp) (s : State) :
    (portFlushed n s).lastKey m = if m = n then none else s.lastKey m := setLastKey_lastKey ..

theorem portFlushed_lastPointer (n m : Comp) (s : State) :
    (portFlushed n s).lastPointer m = if m = n then none else s.lastPointer m := setLastPointer_lastPointer ..

theorem portFlushed_rest (n : Comp) (s : State) :
    portFlushed n s = { s with
      ports := (portFlushed n s).ports
      router := { s.router with
        lastKey := (portFlushed n s).router.lastKey, lastPointer := (portFlushed n s).router.lastPointer } } := by
  unfold portFlushed flushPort flushPointer flushKeys setLastKey setLastPointer State.modPort State.modRouter
  rfl

theorem effMode_flushPort (n : Comp) (s : State) : effMode (flushPort n s) n = effMode s n := by
  unfold effMode
  simp [flushPort, flushPointer, flushKeys, setLastKey, setLastPointer]

theorem emptyPort_emptied (n : Comp) (s : State) : PortEmptied n s (emptyPort n s) := by
  have hself : (portFlushed n s).modPort n (fun p => { p with lights := ⟨false, false, false⟩ }) = portFlushed n s := by
    refine modPort_self _ _ _ ?_
    rw [portFlushed_port, if_pos rfl]
    rfl
  have hlights := lightsChanged_effect n ⟨false, false, false⟩ (portFlushed n s)
  rw [hself] at hlights
  obtain ⟨hkeys, hy⟩ := hlights
  have hport := fun m => portFlushed_port n m s
  have hlk := fun m => portFlushed_lastKey n m s
  have hlp := fun m => portFlushed_lastPointer n m s
  have hrest := portFlushed_rest n s
  have hempty : emptyPort n s = followMode n (flushPort n s) (lightsChanged n (portFlushed n s)) := rfl
  generalize portFlushed n s = v at *
  generalize lightsChanged n v = y at *
  have hyp (m : Comp) : y.port m = if m = n then flushedPort (s.port m) else s.port m := by rw [hy]; exact hport m
  have hmode : effMode y n = if (s.comp n).pointerMode = .absolute then .absolute else .relative := by
    have hc : y.comp n = s.comp n := by rw [hy, hrest]; rfl
    unfold effMode
    rw [hc, hyp, if_pos rfl]
    cases (s.comp n).pointerMode <;> rfl
  have hturn : (effMode y n != effMode (flushPort n s) n) = modeTurns s n := by
    rw [effMode_flushPort, hmode]
    unfold effMode modeTurns
    cases (s.comp n).pointerMode <;> cases (s.port n).pointerFormat <;> rfl
  have habs (h : modeTurns s n = true) : effMode y n = .absolute := by
    rw [hmode]
    exact if_pos (beq_iff_eq.mp (Bool.and_eq_true_iff.mp h).2)
  have hf := followMode_followed n (flushPort n s) y
  rw [hturn, ← hempty] at hf
  generalize emptyPort n s = x at *
  have hlink (k : LinkId) : y.link k = s.link k := by rw [hy, hrest]; rfl
  have hsent (h : Head) : sentMode y h = sentMode s h := by rw [hy, hrest]; rfl
  have hfocus : y.focus = s.focus := by rw [hy, hrest]
  have hptr : y.pointer = s.pointer := by rw [hy, hrest]
  have hxrouter : x.router = v.router := by rw [hf.rest, hy]
  have hxport (m : Comp) : x.port m = if m = n then flushedPort (s.port m) else s.port m := by
    rw [hf.port, hyp]
    by_cases hm : m = n
    · simp only [hm, if_true]
      split <;> rfl
    · rw [if_neg fun h => hm h.1]
  refine ⟨(hxport n).trans (if_pos rfl), fun m hm => (hxport m).trans (if_neg hm), ?_, fun m hm => ?_, ?_, fun m hm => ?_, ?_, ?_,
    fun k => ?_, ?_⟩
  · exact (State.lastKey_congr hxrouter n).trans ((hlk n).trans (if_pos rfl))
  · exact (State.lastKey_congr hxrouter m).trans ((hlk m).trans (if_neg hm))
  · exact (State.lastPointer_congr hxrouter n).trans ((hlp n).trans (if_pos rfl))
  · exact (State.lastPointer_congr hxrouter m).trans ((hlp m).trans (if_neg hm))
  · rw [hf.pointer, hptr, hfocus]
    cases ht : modeTurns s n with
    | false => simp
    | true => simp [habs ht]
  · have hk : x.keyboard = y.keyboard := by rw [hf.rest]
    rw [hk, hkeys, hrest]
  · rw [hf.link, hlink]
    cases Outbound.activeHead (s.link k).outbound with
    | none => rfl
    | some h =>
      dsimp only
      rw [hsent]
      split
      next hc => rw [habs hc.2]
      next => rfl
  · have hr : x.router = { s.router with lastKey := x.router.lastKey, lastPointer := x.router.lastPointer } := by
      rw [hxrouter, hrest]
    have hk : x.keyboard = y.keyboard := by rw [hf.rest]
    have h1 := congrArg (fun z : State => { z with pointer := x.pointer, ports := x.ports, links := x.links }) hy
    have h2 := congrArg (fun z : State => { z with
      pointer := x.pointer, ports := x.ports, links := x.links, keyboard := y.keyboard, router := v.router }) hrest
    rw [← hr, hxrouter, hk]
    exact (hf.rest.trans h1).trans h2

theorem PortEmptied.recipient (h : PortEmptied n s x) (m : Comp) : isRecipient x m = isRecipient s m := by
  refine isRecipient_buses s x (by rw [h.rest]) (by rw [h.rest]) (by rw [h.rest]) (by rw [h.rest]) (by rw [h.rest]) (fun j => ?_) m
  by_cases hj : j = n
  · rw [hj, h.port]; rfl
  · rw [h.ports j hj]

/-! ### A bus reset -/

theorem afterSignal_eq (f : Flight) :
    afterSignal f = if f.method = .both then .wait f .busStage (f.start + 2000) else .wait f .final f.deadline := by
  unfold afterSignal
  cases f.method <;> rfl

/-- What a bus reset leaves of a wake attempt (R173). -/
theorem wakeBusReset_effect (n : Comp) (v : State) :
    let u := wakeBusReset n v
    ((u.wakeOf n).powered = (v.wakeOf n).powered ∧ ∀ m, m ≠ n → u.wakeOf m = v.wakeOf m) ∧
    (∀ f e, (v.wakeOf n).attempt = .busSignal f e → (u.wakeOf n).attempt = afterSignal f) ∧
    ((∀ f e, (v.wakeOf n).attempt ≠ .busSignal f e) → (u.wakeOf n).attempt = (v.wakeOf n).attempt) ∧
    u = { v with wake := u.wake } := by
  unfold wakeBusReset
  split
  next f e ha =>
    refine ⟨⟨?_, fun m hm => ?_⟩, fun f' e' h => ?_, fun h => absurd ha (h f e), rfl⟩
    · simp [setAttempt]
    · simp [setAttempt, State.modWake_wakeOf, hm]
    · obtain ⟨rfl, rfl⟩ : f = f' ∧ e = e' := by simpa using ha.symm.trans h
      simp [setAttempt]
  next h => exact ⟨⟨rfl, fun _ _ => rfl⟩, fun f e ha => absurd ha (h f e), fun _ => rfl, rfl⟩

/-- What a bus reset leaves (R63, R173). -/
structure PortReset (n : Comp) (s u : State) : Prop where
  port : u.port n = { flushedPort (s.port n) with bus := .attached }
  ports : ∀ m, m ≠ n → u.port m = s.port m ∧ u.lastKey m = s.lastKey m ∧ u.lastPointer m = s.lastPointer m
  router : ∃ x, PortEmptied n s x ∧ u.router = x.router ∧ u.controls = s.controls ∧ u.pointer = x.pointer ∧
    u.keyboard = x.keyboard ∧ u.links = x.links
  wakes : (u.wakeOf n).powered = (s.wakeOf n).powered ∧ ∀ m, m ≠ n → u.wakeOf m = s.wakeOf m
  signalled : ∀ f e, (s.wakeOf n).attempt = .busSignal f e → (u.wakeOf n).attempt = afterSignal f
  quiet : (∀ f e, (s.wakeOf n).attempt ≠ .busSignal f e) → (u.wakeOf n).attempt = (s.wakeOf n).attempt
  rest : u = { s with
    ports := u.ports, router := u.router, pointer := u.pointer, keyboard := u.keyboard, links := u.links, wake := u.wake
    sup := if (s.port n).bus = .attached then s.sup
      else queueNotice .power (powerNotice n (.busState false) .attached (u.wakeOf n)) s.sup }

theorem resetPort_reset (hb : (s.port n).bus ≠ .detached) : PortReset n s (resetPort n s) := by
  have hx := emptyPort_emptied n s
  have hset : setBus n .attached (emptyPort n s) = (emptyPort n s).modPort n fun p => { p with bus := .attached } :=
    setBus_present BusState.noConfusion (by rw [hx.port]; exact hb)
  unfold resetPort
  dsimp only
  rw [hset]
  generalize emptyPort n s = x at *
  have hv (m : Comp) : (x.modPort n fun p => { p with bus := .attached }).port m =
      if m = n then { flushedPort (s.port n) with bus := .attached } else s.port m := by
    rw [State.modPort_port]
    split
    next hm => rw [hm, hx.port]
    next hm => rw [hx.ports m hm]
  have hvw (m : Comp) : (x.modPort n fun p => { p with bus := .attached }).wakeOf m = s.wakeOf m := by
    rw [State.modPort_wakeOf, hx.rest]; rfl
  have hvr : (x.modPort n fun p => { p with bus := .attached }) = { x with
    ports := (x.modPort n fun p => { p with bus := .attached }).ports } := rfl
  obtain ⟨hpow, hsig, hquiet, hrest⟩ := wakeBusReset_effect n (x.modPort n fun p => { p with bus := .attached })
  rw [hvw] at hpow hsig hquiet
  simp only [hvw] at hpow
  generalize (x.modPort n fun p => { p with bus := .attached }) = v at *
  generalize wakeBusReset n v = w at *
  have hwp (m : Comp) : w.port m = if m = n then { flushedPort (s.port n) with bus := .attached } else s.port m := by
    rw [hrest]; exact hv m
  have hwr : w.router = x.router := by rw [hrest, hvr]
  have hw := (hrest.trans (congrArg (fun z : State => { z with wake := w.wake }) hvr)).trans
    (congrArg (fun z : State => { z with ports := v.ports, wake := w.wake }) hx.rest)
  have htold : (if (s.port n).bus = .attached then w else tellBus n w) = { w with
      sup := if (s.port n).bus = .attached then s.sup
        else queueNotice .power (powerNotice n (.busState false) .attached (w.wakeOf n)) s.sup } := by
    have hsup : w.sup = s.sup := by rw [hw]
    split
    · rw [← hsup]
    · rw [tellBus_eq, hwp, if_pos rfl, ← hsup]
      rfl
  rw [htold]
  refine ⟨(hwp n).trans (if_pos rfl), fun m hm => ⟨(hwp m).trans (if_neg hm), ?_, ?_⟩,
    ⟨x, hx, hwr, by rw [hw], by rw [hw], by rw [hw], by rw [hw]⟩, hpow, hsig, hquiet, ?_⟩
  · exact (State.lastKey_congr (s := x) (t := w) hwr m).trans (hx.lastKeys m hm)
  · exact (State.lastPointer_congr (s := x) (t := w) hwr m).trans (hx.lastPointers m hm)
  · have hwf : w = { s with
        ports := w.ports, router := w.router, pointer := w.pointer, keyboard := w.keyboard, links := w.links, wake := w.wake } := by
      rw [hw]
    exact congrArg (fun z : State => { z with
      sup := if (s.port n).bus = BusState.attached then s.sup
        else queueNotice .power (powerNotice n (.busState false) .attached (w.wakeOf n)) s.sup }) hwf

/-! ### A detach: the releases -/

theorem emptyRecordDue_detached (h : (s.port n).bus = .detached) : emptyRecordDue s n = none := by
  unfold emptyRecordDue
  cases s.lastKey n <;> simp [h]

theorem noButtonsDue_detached (h : (s.port n).bus = .detached) : noButtonsDue s n = none := by
  unfold noButtonsDue
  cases s.lastPointer n with
  | none => rfl
  | some r => cases r <;> simp [h]

theorem toldRelease_detached (h : (s.port n).bus = .detached) (p : Supervisor) : toldRelease s n p = p := by
  simp [toldRelease, emptyRecordDue_detached h, noButtonsDue_detached h]

theorem releasedPort_detached (h : (s.port n).bus = .detached) (p : Port) : releasedPort s n p = p := by
  simp [releasedPort, emptyRecordDue_detached h, noButtonsDue_detached h]

/-- What the flushes and the releases of a detach leave (R61). -/
structure PortGone (n : Comp) (s w : State) : Prop where
  port : w.port n = { flushedPort (s.port n) with bus := .detached }
  others : ∀ m, m ≠ n →
    computerLetGo (isRecipient s m && !isRecipient w m) s w (s.port m) m ∧
      releaseTouches (isRecipient s m && !isRecipient w m) s w m
  lastKey : w.lastKey n = none
  lastPointer : w.lastPointer n = none
  control : w.control n = s.control n
  emptied : ∃ x, PortEmptied n s x ∧ w.pointer = x.pointer ∧ w.keyboard = x.keyboard ∧ w.links = x.links
  router : w.router = { s.router with lastKey := w.router.lastKey, lastPointer := w.router.lastPointer }
  away : isRecipient w n = false
  rest : w = { s with
    ports := w.ports, router := w.router, pointer := w.pointer, keyboard := w.keyboard, controls := w.controls, links := w.links
    sup := toldOf (fun m => m != n && isRecipient s m && !isRecipient w m) s s.sup }

theorem setBus_gone (hb : (s.port n).bus ≠ .detached) : PortGone n s (setBus n .detached (emptyPort n s)) := by
  have hx := emptyPort_emptied n s
  generalize emptyPort n s = x at *
  have hvr : (x.modPort n fun p => { p with bus := .detached }) = { x with
    ports := (x.modPort n fun p => { p with bus := .detached }).ports } := rfl
  have hvp (m : Comp) : (x.modPort n fun p => { p with bus := .detached }).port m =
      if m = n then { flushedPort (s.port n) with bus := .detached } else s.port m := by
    rw [State.modPort_port]
    split
    next hm => rw [hm, hx.port]
    next hm => rw [hx.ports m hm]
  change PortGone n s (rederive x (x.modPort n fun p => { p with bus := .detached }))
  generalize (x.modPort n fun p => { p with bus := .detached }) = v at *
  have hmore (m : Comp) (h : isRecipient v m = true) : isRecipient x m = true := by
    refine isRecipient_more (s := v) (by rw [hvr]) (by rw [hvr]) (by rw [hvr]) (by rw [hvr]) (by rw [hvr]) (fun j hj => ?_) h
    rw [hvp] at hj
    by_cases hjn : j = n
    · rw [if_pos hjn] at hj; cases hj
    · rw [if_neg hjn] at hj; rw [hx.ports j hjn]; exact hj
  have hlk (k : LinkId) : linkIsRecipient v k = linkIsRecipient x k := by rw [hvr]; rfl
  have hnone : rederive x v = releaseLeavers x v := by
    unfold rederive
    dsimp only
    rw [if_neg]
    rw [someoneJoined_false hmore fun k h => (hlk k).symm.trans h]
    exact Bool.false_ne_true
  rw [hnone]
  have hrel := releaseLeavers_effect x v
  obtain ⟨hlinks, hkeys, hptr⟩ := hrel.links_kept hlk
  have hnow := hrel.releases.now
  generalize releaseLeavers x v = w at *
  have hvn : (v.port n).bus = .detached := by rw [hvp, if_pos rfl]
  have hrec (m : Comp) : (isRecipient x m && !isRecipient v m) = (isRecipient s m && !isRecipient w m) := by
    rw [hx.recipient, hrel.recipients]
  have haway : isRecipient w n = false := by
    rw [hrel.recipients]
    exact Bool.eq_false_iff.mpr fun h => isRecipient_present h hvn
  have hvk (m : Comp) (hm : m ≠ n) : v.lastKey m = s.lastKey m :=
    (State.lastKey_congr (s := x) (t := v) (by rw [hvr]) m).trans (hx.lastKeys m hm)
  have hvq (m : Comp) (hm : m ≠ n) : v.lastPointer m = s.lastPointer m :=
    (State.lastPointer_congr (s := x) (t := v) (by rw [hvr]) m).trans (hx.lastPointers m hm)
  have hvc (m : Comp) : v.control m = s.control m := by rw [hvr, hx.rest]; rfl
  have hvrouter : v.router = { s.router with lastKey := v.router.lastKey, lastPointer := v.router.lastPointer } := by
    rw [hvr, hx.rest]
  have hvall : v = { s with
      ports := v.ports, router := v.router, pointer := x.pointer, keyboard := x.keyboard, links := x.links } := by
    rw [hvr, hx.rest]
  obtain ⟨hp, hk, hq⟩ := hrel.letGo n
  have ht := hrel.touches n
  refine ⟨?_, fun m hm => ?_, ?_, ?_, ?_, ⟨x, hx, ?_, ?_, ?_⟩, ?_, haway, ?_⟩
  · rw [hp, releasedPort_detached hvn, ite_self, hvp, if_pos rfl]
  · have hvm : v.port m = s.port m := (hvp m).trans (if_neg hm)
    have he : emptyRecordDue v m = emptyRecordDue s m := emptyRecordDue_congr (by rw [hvm]) (by rw [hvm]) (hvk m hm)
    have hn : noButtonsDue v m = noButtonsDue s m := noButtonsDue_congr (by rw [hvm]) (hvq m hm)
    have hl := hrel.letGo m
    have hto := hrel.touches m
    unfold computerLetGo releasedPort at hl ⊢
    unfold releaseTouches at hto ⊢
    rw [hrec, he, hn, hvm, hvk m hm, hvq m hm] at hl
    rw [hrec, he, hn, hvc] at hto
    exact ⟨hl, hto⟩
  · rw [hk, emptyRecordDue_detached hvn, Option.none_or, ite_self]
    exact (State.lastKey_congr (s := x) (t := v) (by rw [hvr]) n).trans hx.lastKey
  · rw [hq, noButtonsDue_detached hvn, Option.none_or, ite_self]
    exact (State.lastPointer_congr (s := x) (t := v) (by rw [hvr]) n).trans hx.lastPointer
  · rw [ht, emptyRecordDue_detached hvn, noButtonsDue_detached hvn, if_neg (by simp), hvc]
  · rw [hrel.releases, hvall]
  · rw [hrel.releases, hvall]
  · rw [hlinks, hvall]
  · rw [hrel.router, hkeys, hptr, hvrouter]
  · have hsup : w.sup = toldOf (fun m => m != n && isRecipient s m && !isRecipient w m) s s.sup := by
      rw [hrel.sup, show v.sup = s.sup by rw [hvall]]
      unfold toldOf
      refine List.foldl_ext _ _ _ fun p m _ => ?_
      change (if isRecipient x m && !isRecipient v m then toldRelease v m p else p) =
        if m != n && isRecipient s m && !isRecipient w m then toldRelease s m p else p
      by_cases hm : m = n
      · subst hm
        simp [toldRelease_detached hvn]
      · rw [hrec, toldRelease_congr ((hvp m).trans (if_neg hm)) (hvk m hm) (hvq m hm), bne_iff_ne.mpr hm, Bool.true_and]
    rw [← hsup]
    have h1 := congrArg (fun z : State => { z with
      ports := w.ports, router := w.router, pointer := w.pointer, keyboard := w.keyboard, controls := w.controls, links := w.links
      sup := w.sup }) hvall
    have h2 : w = { v with
      ports := w.ports, router := w.router, pointer := w.pointer, keyboard := w.keyboard, controls := w.controls, links := w.links
      sup := w.sup } := by rw [hrel.releases]
    exact h2.trans h1

end Sys2Proof.Machine
end

section
/-!
SUPPORT. What a detach leaves of a wake attempt (R169, R172, R173).
-/

namespace Sys2Proof.Machine

open Sys2Proof

variable {s t u v w x : State} {n m : Comp} {f : Flight} {l : LineId}

/-! ### A flush of what has been flushed -/

theorem setLastKey_self {r : Option KeyRecord} (h : s.lastKey n = r) : setLastKey n r s = s := by
  unfold setLastKey State.modRouter
  dsimp only
  rw [upd_self _ _ _ h.symm]

theorem setLastPointer_self {r : Option PointerRecord} (h : s.lastPointer n = r) : setLastPointer n r s = s := by
  unfold setLastPointer State.modRouter
  dsimp only
  rw [upd_self _ _ _ h.symm]

theorem countBy_zero {c : Nat} (h : c ≤ 4294967295) : countBy 0 c = c := by
  simp only [countBy, Config.countMax]
  omega

/-- A port that has been flushed stays as it is at another flush (R73). -/
theorem flushPort_self {b : BusState} {p : Port} (hp : w.port n = { flushedPort p with bus := b }) (hk : w.lastKey n = none)
    (hq : w.lastPointer n = none) : flushPort n w = w := by
  unfold flushPort
  have h1 : flushKeys n w = w := by
    unfold flushKeys
    rw [modPort_self, setLastKey_self hk]
    rw [hp]
    have hc : countBy 0 (flushedPort p).counters.keyFlushed = (flushedPort p).counters.keyFlushed :=
      countBy_zero (Nat.min_le_right ..)
    simp [flushedPort] at hc ⊢
    exact hc
  rw [h1]
  unfold flushPointer
  rw [modPort_self, setLastPointer_self hq]
  rw [hp]
  have hc : countBy 0 (flushedPort p).counters.pointerFlushed = (flushedPort p).counters.pointerFlushed :=
    countBy_zero (Nat.min_le_right ..)
  simp [flushedPort] at hc ⊢
  exact hc

/-! ### A pulse that is due at a detach -/

/-- The notice of the controller's step at a detach: PULSE, or FAILED where the attempt has failed (R173, R177). -/
def stageTold (n : Comp) (w : WakeRecord) (q : Supervisor) : Supervisor :=
  match w.attempt with
  | .failed _ => queueNotice .power (powerNotice n .failed .detached w) q
  | _ => queueNotice .power (powerNotice n .pulse .detached w) q

theorem wakeLine_none (h : ∀ l, (s.line l).config.role ≠ .wakePulse n) : wakeLine s n = none :=
  List.find?_eq_none.mpr fun l _ => by simpa using h l

theorem wakeLine_only (hl : (s.line l).config.role = .wakePulse n) (h : ∀ j, (s.line j).config.role = .wakePulse n → j = l) :
    wakeLine s n = some l := by
  have hsome : (allLines.find? fun l => (s.line l).config.role == .wakePulse n).isSome = true :=
    List.find?_isSome.mpr ⟨l, mem_allLines l, by simp [hl]⟩
  obtain ⟨j, hj⟩ := Option.isSome_iff_exists.mp hsome
  have hrole := List.find?_some hj
  exact hj.trans (congrArg some (h j (by simpa using hrole)))

/-- What a due pulse leaves on a DETACHED port that is already flushed (R169, R170, R172). -/
structure PulseDue (n : Comp) (f : Flight) (w u : State) : Prop where
  powered : (u.wakeOf n).powered = (w.wakeOf n).powered
  others : ∀ m, m ≠ n → u.wakeOf m = w.wakeOf m
  line : ∀ l, wakeLine w n = some l → (u.wakeOf n).attempt = .pulse f l (w.now + f.pulseWidth) ∧
    u.line l = { w.line l with level := true } ∧ ∀ j, j ≠ l → u.line j = w.line j
  none : wakeLine w n = none → (u.wakeOf n).attempt = .failed .noLine ∧ u.lines = w.lines
  rest : u = { w with wake := u.wake, lines := u.lines, sup := stageTold n (u.wakeOf n) w.sup }

/-- The notice that follows a step of the controller on a DETACHED port. -/
theorem notifyPower_detached {v : State} (c : PowerCause) (hb : (v.port n).bus = .detached) :
    notifyPower n c v = { v with sup := queueNotice .power (powerNotice n c .detached (v.wakeOf n)) v.sup } := by
  unfold notifyPower
  rw [hb]
  rfl

theorem pulseDue_line (hb : (w.port n).bus = .detached) (hl : wakeLine w n = some l) (f : Flight) :
    PulseDue n f w (pulseDue n f .pulse w) := by
  let v := setPulse l true (setAttempt n (.pulse f l (w.now + f.pulseWidth)) w)
  have hu : pulseDue n f .pulse w = notifyPower n .pulse v := by
    unfold pulseDue
    rw [hl]
  have hwake : v.wakeOf n = ⟨.pulse f l (w.now + f.pulseWidth), (w.wakeOf n).powered⟩ := by simp [v, setPulse, setAttempt]
  have hothers (m : Comp) (hm : m ≠ n) : v.wakeOf m = w.wakeOf m := by
    simp [v, setPulse, setAttempt, State.modWake_wakeOf, hm]
  have hline (j : LineId) : v.line j = if j = l then { w.line j with level := true } else w.line j := State.modLine_line ..
  have hrest : v = { w with wake := v.wake, lines := v.lines } := rfl
  have hvb : (v.port n).bus = .detached := hb
  rw [hu, notifyPower_detached .pulse hvb]
  generalize v = v at *
  have hst : stageTold n (v.wakeOf n) w.sup = queueNotice .power (powerNotice n .pulse .detached (v.wakeOf n)) w.sup := by
    rw [hwake]; rfl
  have hp : (v.wakeOf n).powered = (w.wakeOf n).powered := by rw [hwake]
  have ha : (v.wakeOf n).attempt = .pulse f l (w.now + f.pulseWidth) := by rw [hwake]
  refine ⟨hp, hothers, fun l' hl' => ?_, fun h => ?_, ?_⟩
  · obtain rfl := Option.some.inj (hl.symm.trans hl')
    exact ⟨ha, (hline l).trans (if_pos rfl), fun j hj => (hline j).trans (if_neg hj)⟩
  · rw [hl] at h; cases h
  · have hsup : v.sup = w.sup := by rw [hrest]
    rw [hsup, ← hst]
    exact congrArg (fun z : State => { z with sup := stageTold n (v.wakeOf n) w.sup }) hrest

theorem pulseDue_no_line (hflush : flushPort n w = w) (hb : (w.port n).bus = .detached)
    (hq : ∀ f l e, (w.wakeOf n).attempt ≠ .pulse f l e) (hl : wakeLine w n = none) (f : Flight) :
    PulseDue n f w (pulseDue n f .pulse w) := by
  let v := setAttempt n (.failed .noLine) w
  have hu : pulseDue n f .pulse w = notifyPower n .failed v := by
    have hfail : pulseDue n f .pulse w = failWake n .noLine w := by simp only [pulseDue, hl]
    have hend : failWake n .noLine w = notifyPower n .failed (flushPort n (setAttempt n (.failed .noLine) w)) :=
      congrArg (fun z => notifyPower n .failed (flushPort n (setAttempt n (.failed .noLine) z))) (endPulse_quiet hq)
    have hswap : flushPort n (setAttempt n (.failed .noLine) w) = setAttempt n (.failed .noLine) (flushPort n w) := rfl
    rw [hfail, hend, hswap, hflush]
  have hwake : v.wakeOf n = ⟨.failed .noLine, (w.wakeOf n).powered⟩ := by simp [v, setAttempt]
  have hothers (m : Comp) (hm : m ≠ n) : v.wakeOf m = w.wakeOf m := by simp [v, setAttempt, State.modWake_wakeOf, hm]
  have hrest : v = { w with wake := v.wake, lines := v.lines } := rfl
  have hlines : v.lines = w.lines := rfl
  have hvb : (v.port n).bus = .detached := hb
  rw [hu, notifyPower_detached .failed hvb]
  generalize v = v at *
  have hst : stageTold n (v.wakeOf n) w.sup = queueNotice .power (powerNotice n .failed .detached (v.wakeOf n)) w.sup := by
    rw [hwake]; rfl
  have hp : (v.wakeOf n).powered = (w.wakeOf n).powered := by rw [hwake]
  have ha : (v.wakeOf n).attempt = .failed .noLine := by rw [hwake]
  refine ⟨hp, hothers, fun l' hl' => ?_, fun _ => ⟨ha, hlines⟩, ?_⟩
  · rw [hl] at hl'; cases hl'
  · have hsup : v.sup = w.sup := by rw [hrest]
    rw [hsup, ← hst]
    exact congrArg (fun z : State => { z with sup := stageTold n (v.wakeOf n) w.sup }) hrest

theorem pulseDue_detached (hflush : flushPort n w = w) (hb : (w.port n).bus = .detached)
    (hq : ∀ f l e, (w.wakeOf n).attempt ≠ .pulse f l e) (f : Flight) : PulseDue n f w (pulseDue n f .pulse w) := by
  cases hl : wakeLine w n with
  | some l => exact pulseDue_line hb hl f
  | none => exact pulseDue_no_line hflush hb hq hl f

/-! ### The controller told of a detach -/

/-- Whether the attempt looks for its line at a detach: under BOTH during BUS_SIGNAL, and in the bus stage (R173). -/
def looksForLine (a : Attempt) : Option Flight :=
  match a with
  | .busSignal f _ => if f.method = .both then some f else none
  | .wait f .busStage _ => some f
  | _ => none

theorem wakeDetach_looks (h : looksForLine (w.wakeOf n).attempt = some f) : wakeDetach n w = pulseDue n f .pulse w := by
  unfold wakeDetach
  cases ha : (w.wakeOf n).attempt with
  | busSignal g e =>
    simp only [looksForLine, ha] at h
    split at h
    next hm =>
      obtain rfl := Option.some.inj h
      simp only [hm]
    next => cases h
  | wait g st e =>
    cases st with
    | busStage =>
      simp only [looksForLine, ha] at h
      simp only [Option.some.inj h]
    | final => simp [looksForLine, ha] at h
  | _ => simp [looksForLine, ha] at h

theorem wakeDetach_waits {e : Nat} (h : (w.wakeOf n).attempt = .busSignal f e) (hm : f.method ≠ .both) :
    wakeDetach n w = setAttempt n (.wait f .final f.deadline) w := by
  unfold wakeDetach
  cases hf : f.method with
  | both => exact absurd hf hm
  | bus => simp only [h, hf]
  | line => simp only [h, hf]

theorem wakeDetach_stays (h : ∀ f e, (w.wakeOf n).attempt ≠ .busSignal f e ∧ (w.wakeOf n).attempt ≠ .wait f .busStage e) :
    wakeDetach n w = w := by
  unfold wakeDetach
  cases ha : (w.wakeOf n).attempt with
  | busSignal g e => exact absurd ha (h g e).1
  | wait g st e =>
    cases st with
    | busStage => exact absurd ha (h g e).2
    | final => rfl
  | _ => rfl

theorem looksForLine_none {a : Attempt} (h : ∀ f e, a ≠ .busSignal f e ∧ a ≠ .wait f .busStage e) : looksForLine a = none := by
  cases a with
  | busSignal f e => exact absurd rfl (h f e).1
  | wait f st e =>
    cases st with
    | busStage => exact absurd rfl (h f e).2
    | final => rfl
  | _ => rfl

/-- A detach at which no line is looked for (R173). -/
theorem wakeDetach_still (h : looksForLine (w.wakeOf n).attempt = none) :
    let u := wakeDetach n w
    (u.wakeOf n).powered = (w.wakeOf n).powered ∧ (∀ m, m ≠ n → u.wakeOf m = w.wakeOf m) ∧
    (∀ f e, (w.wakeOf n).attempt = .busSignal f e → f.method ≠ .both → (u.wakeOf n).attempt = .wait f .final f.deadline) ∧
    ((∀ f e, (w.wakeOf n).attempt ≠ .busSignal f e ∧ (w.wakeOf n).attempt ≠ .wait f .busStage e) →
      (u.wakeOf n).attempt = (w.wakeOf n).attempt) ∧
    u = { w with wake := u.wake } := by
  by_cases ha : ∃ f e, (w.wakeOf n).attempt = .busSignal f e
  · obtain ⟨f, e, ha⟩ := ha
    have hm : f.method ≠ .both := by
      intro hm
      simp [looksForLine, ha, hm] at h
    rw [wakeDetach_waits ha hm]
    refine ⟨?_, fun m hm => ?_, fun g e' hg _ => ?_, fun hn => absurd ha (hn f e).1, rfl⟩
    · simp [setAttempt]
    · simp [setAttempt, State.modWake_wakeOf, hm]
    · obtain ⟨rfl, rfl⟩ : f = g ∧ e = e' := by simpa using ha.symm.trans hg
      simp [setAttempt]
  · have hn : ∀ f e, (w.wakeOf n).attempt ≠ .busSignal f e ∧ (w.wakeOf n).attempt ≠ .wait f .busStage e := by
      refine fun f e => ⟨fun g => ha ⟨f, e, g⟩, fun g => ?_⟩
      simp [looksForLine, g] at h
    rw [wakeDetach_stays hn]
    exact ⟨rfl, fun _ _ => rfl, fun f e g => absurd g (hn f e).1, fun _ => rfl, rfl⟩

/-- What the whole detach leaves (R61, R173). -/
structure PortDetached (n : Comp) (s u : State) : Prop where
  gone : ∃ w, PortGone n s w ∧ u = { w with
    wake := u.wake, lines := u.lines
    sup := queueNotice .power (powerNotice n (.busState false) .detached (u.wakeOf n))
      (if (looksForLine (s.wakeOf n).attempt).isSome then stageTold n (u.wakeOf n) w.sup else w.sup) }
  powered : (u.wakeOf n).powered = (s.wakeOf n).powered
  others : ∀ m, m ≠ n → u.wakeOf m = s.wakeOf m
  line : ∀ f l, looksForLine (s.wakeOf n).attempt = some f → wakeLine s n = some l →
    (u.wakeOf n).attempt = .pulse f l (s.now + f.pulseWidth) ∧ u.line l = { s.line l with level := true } ∧
    ∀ j, j ≠ l → u.line j = s.line j
  none : ∀ f, looksForLine (s.wakeOf n).attempt = some f → wakeLine s n = none →
    (u.wakeOf n).attempt = .failed .noLine ∧ u.lines = s.lines
  waits : ∀ f e, (s.wakeOf n).attempt = .busSignal f e → f.method ≠ .both →
    (u.wakeOf n).attempt = .wait f .final f.deadline ∧ u.lines = s.lines
  stays : (∀ f e, (s.wakeOf n).attempt ≠ .busSignal f e ∧ (s.wakeOf n).attempt ≠ .wait f .busStage e) →
    (u.wakeOf n).attempt = (s.wakeOf n).attempt ∧ u.lines = s.lines

/-- A host told of a detach. -/
theorem tellBus_detached {v : State} (hb : (v.port n).bus = .detached) :
    tellBus n v = { v with sup := queueNotice .power (powerNotice n (.busState false) .detached (v.wakeOf n)) v.sup } :=
  notifyPower_detached _ hb

theorem looksForLine_quiet (h : looksForLine (w.wakeOf n).attempt = some f) : ∀ f l e, (w.wakeOf n).attempt ≠ .pulse f l e := by
  intro f l e ha
  simp [looksForLine, ha] at h

theorem PortGone.bus (h : PortGone n s w) : (w.port n).bus = .detached := by rw [h.port]

theorem PortGone.wakeOf (h : PortGone n s w) (m : Comp) : w.wakeOf m = s.wakeOf m := by rw [h.rest]; rfl

theorem PortGone.wakeLine (h : PortGone n s w) : Machine.wakeLine w n = Machine.wakeLine s n := by rw [h.rest]; rfl

theorem PortGone.told (h : PortGone n s w) (hu : u = { w with wake := u.wake, lines := u.lines, sup := u.sup }) :
    tellBus n u = { w with
      wake := u.wake, lines := u.lines
      sup := queueNotice .power (powerNotice n (.busState false) .detached (u.wakeOf n)) u.sup } := by
  have hb : (u.port n).bus = .detached := by rw [hu]; exact h.bus
  rw [tellBus_detached hb]
  exact congrArg (fun z : State => { z with
    sup := queueNotice .power (powerNotice n (.busState false) .detached (u.wakeOf n)) u.sup }) hu

theorem detachPort_detached (hb : (s.port n).bus ≠ .detached) : PortDetached n s (detachPort n s) := by
  have hg := setBus_gone hb
  unfold detachPort
  generalize setBus n .detached (emptyPort n s) = w at *
  have hline (l : LineId) : w.line l = s.line l := by rw [hg.rest]; rfl
  have hlines : w.lines = s.lines := by rw [hg.rest]
  have hnow : w.now = s.now := by rw [hg.rest]
  cases hlook : looksForLine (s.wakeOf n).attempt with
  | some f =>
    have hl : looksForLine (w.wakeOf n).attempt = some f := by rw [hg.wakeOf]; exact hlook
    have hp := pulseDue_detached (flushPort_self hg.port hg.lastKey hg.lastPointer) hg.bus (looksForLine_quiet hl) f
    rw [wakeDetach_looks hl]
    generalize pulseDue n f .pulse w = u at *
    have hu : u = { w with wake := u.wake, lines := u.lines, sup := u.sup } := by rw [hp.rest]
    have hsup : u.sup = stageTold n (u.wakeOf n) w.sup := congrArg State.sup hp.rest
    have ht := hg.told hu
    rw [ht]
    refine ⟨⟨w, hg, ?_⟩, ?_, fun m hm => ?_, fun f' l hf hl => ?_, fun f' hf hl => ?_, fun f' e ha hm => ?_, fun h => ?_⟩
    · rw [hsup, hlook]; rfl
    · exact hp.powered.trans (by rw [hg.wakeOf])
    · exact (hp.others m hm).trans (hg.wakeOf m)
    · obtain rfl := Option.some.inj (hlook.symm.trans hf)
      obtain ⟨h1, h2, h3⟩ := hp.line l (hg.wakeLine.trans hl)
      rw [hnow] at h1
      rw [hline] at h2
      exact ⟨h1, h2, fun j hj => (h3 j hj).trans (hline j)⟩
    · obtain ⟨h1, h2⟩ := hp.none (hg.wakeLine.trans hl)
      exact ⟨h1, h2.trans hlines⟩
    · rw [ha] at hlook
      simp [looksForLine, hm] at hlook
    · exact absurd hlook (by rw [looksForLine_none h]; simp)
  | none =>
    obtain ⟨hpow, hothers, hwaits, hstays, hrest⟩ := wakeDetach_still (w := w) (by rw [hg.wakeOf]; exact hlook)
    rw [hg.wakeOf] at hpow hwaits hstays
    generalize wakeDetach n w = u at *
    have hul : u.lines = s.lines := by rw [hrest]; exact hlines
    have hus : u.sup = w.sup := by rw [hrest]
    have hu : u = { w with wake := u.wake, lines := u.lines, sup := u.sup } := by
      rw [hus, hul, ← hlines]
      exact hrest
    have ht := hg.told hu
    rw [ht]
    refine ⟨⟨w, hg, ?_⟩, hpow, fun m hm => (hothers m hm).trans (hg.wakeOf m), fun f l hf => ?_, fun f hf => ?_,
      fun f e ha hm => ⟨hwaits f e ha hm, hul⟩, fun h => ⟨hstays h, hul⟩⟩
    · rw [hus, hlook]; rfl
    · rw [hlook] at hf; cases hf
    · rw [hlook] at hf; cases hf

end Sys2Proof.Machine
end

section
/-!
SUPPORT. What the six bus events answer (R59).
-/

namespace Sys2Proof.Machine

open Sys2Proof

variable {s t u : State} {n : Comp}

theorem portAttach_attached (h : (s.port n).bus ≠ .detached) : exec (.portAttach n) s = .next (handedOn s) :=
  congrArg done (if_neg h)

theorem portAttach_detached (h : (s.port n).bus = .detached) : exec (.portAttach n) s = .next (handedOn (attachPort n s)) :=
  congrArg done (if_pos h)

theorem portConfigure_still (h : (s.port n).bus = .detached ∨ (s.port n).bus = .active) :
    exec (.portConfigure n) s = .next (handedOn s) := by
  change execPortConfigure n s = _
  unfold execPortConfigure
  rcases h with h | h <;> simp only [h] <;> rfl

theorem portConfigure_attached (h : (s.port n).bus = .attached) :
    exec (.portConfigure n) s = .next (handedOn (enterActive n s)) := by
  change execPortConfigure n s = _
  unfold execPortConfigure
  simp only [h]
  rfl

theorem portConfigure_suspended (h : (s.port n).bus = .suspended) :
    exec (.portConfigure n) s = .next (handedOn (resumePort n s)) := by
  change execPortConfigure n s = _
  unfold execPortConfigure
  simp only [h]
  rfl

theorem portSuspend_still (h : (s.port n).bus ≠ .active) : exec (.portSuspend n) s = .next (handedOn s) :=
  congrArg done (if_neg h)

theorem portSuspend_active (h : (s.port n).bus = .active) :
    exec (.portSuspend n) s = .next (handedOn (tellBus n (setBus n .suspended s))) :=
  congrArg done (if_pos h)

theorem portResume_still (h : (s.port n).bus ≠ .suspended) : exec (.portResume n) s = .next (handedOn s) :=
  congrArg done (if_neg h)

theorem portResume_suspended (h : (s.port n).bus = .suspended) : exec (.portResume n) s = .next (handedOn (resumePort n s)) :=
  congrArg done (if_pos h)

theorem busReset_detached (h : (s.port n).bus = .detached) : exec (.busReset n) s = .next (handedOn s) :=
  congrArg done (if_pos h)

theorem busReset_attached (h : (s.port n).bus ≠ .detached) : exec (.busReset n) s = .next (handedOn (resetPort n s)) :=
  congrArg done (if_neg h)

theorem portDetach_detached (h : (s.port n).bus = .detached) : exec (.portDetach n) s = .next (handedOn s) :=
  congrArg done (if_pos h)

theorem portDetach_attached (h : (s.port n).bus ≠ .detached) : exec (.portDetach n) s = .next (handedOn (detachPort n s)) :=
  congrArg done (if_neg h)

end Sys2Proof.Machine
end

section
/-! The bus events (O32). -/

open Sys2Proof Sys2Proof.Machine

/-- Settles O32: each event by the bus state that it finds. -/
theorem busEventsMoveThePort : Obligations.BusEventsMoveThePort := by
  intro n s p fresh flushed trimmed a awake told holds waits pulses emptied staged wakesOnly
  have hawake (u : State) (q : Port) (hrest : u = { s with ports := u.ports }) (hports : ∀ m, m ≠ n → u.port m = s.port m)
      (hq : u.port n = q) (hb : q.bus ≠ .detached) : awake q (handedOn (enterActive n u)) := by
    have h := enterActive_active (n := n) (s := u) (by rw [hq]; exact hb)
    have hw (m : Comp) : u.wakeOf m = s.wakeOf m := by rw [hrest]; rfl
    have hl (l : LineId) : u.line l = s.line l := by rw [hrest]; rfl
    have hls : u.lines = s.lines := by rw [hrest]
    have hsup : u.sup = s.sup := by rw [hrest]
    generalize enterActive n u = t at h
    obtain ⟨hport, hothers, hattempt, hattempts, hpulse, hquiet, ht⟩ := h
    rw [hq] at hport
    simp only [hw, hl] at hattempt hattempts hpulse hquiet
    rw [hw, hsup] at ht
    refine ⟨hport, fun m hm => (hothers m hm).trans (hports m hm), hattempt, hattempts, hpulse, fun ha => (hquiet ha).trans hls, ?_⟩
    have h1 := congrArg (fun z : State => { z with
      ports := t.ports, wake := t.wake, lines := t.lines
      sup := transmitNext (queueNotice .power
        (powerNotice n (.busState (Attempt.inFlight (s.wakeOf n).attempt)) .active ⟨.none, (s.wakeOf n).powered⟩) s.sup) }) hrest
    exact (congrArg handedOn ht).trans h1
  have htrim : awake trimmed (handedOn (resumePort n s)) ∨ p.bus = .detached := by
    by_cases hb : p.bus = .detached
    · exact .inr hb
    · refine .inl (hawake (s.modPort n trimPort) trimmed rfl (fun m hm => (State.modPort_port ..).trans (if_neg hm)) ?_ hb)
      exact (State.modPort_port ..).trans ((if_pos rfl).trans (trimPort_eq _))
  have hemptied (x t : State) (hx : PortEmptied n s x) (hk : t.lastKey n = none) (hq : t.lastPointer n = none)
      (hr : t.router = { s.router with lastKey := t.router.lastKey, lastPointer := t.router.lastPointer })
      (hc : t.control n = s.control n) (hp : t.pointer = x.pointer) (hkey : t.keyboard = x.keyboard) (hl : t.links = x.links) :
      emptied t := by
    refine ⟨hk, hq, hr, hc, hp.trans hx.pointer, hkey.trans hx.keyboard, fun k => ?_⟩
    have hlk : t.link k = x.link k := by unfold State.link; rw [hl]
    exact hlk.trans (hx.link k)
  refine ⟨fun hb => ⟨?_, portConfigure_still (.inl hb), portSuspend_still (by rw [hb]; exact BusState.noConfusion),
      portResume_still (by rw [hb]; exact BusState.noConfusion), busReset_detached hb, portDetach_detached hb⟩,
    fun hb => ⟨portAttach_attached hb, ?_, ?_⟩, fun hb => ⟨⟨_, portConfigure_attached hb, hawake s p rfl (fun _ _ => rfl) rfl
        (by rw [hb]; exact BusState.noConfusion)⟩, portSuspend_still (by rw [hb]; exact BusState.noConfusion),
      portResume_still (by rw [hb]; exact BusState.noConfusion)⟩, fun hb => ⟨?_, portConfigure_still (.inr hb),
      portResume_still (by rw [hb]; exact BusState.noConfusion)⟩,
    fun hb => ⟨⟨_, portConfigure_suspended hb, htrim.resolve_right (by rw [hb]; exact BusState.noConfusion)⟩,
      ⟨_, portResume_suspended hb, htrim.resolve_right (by rw [hb]; exact BusState.noConfusion)⟩,
      portSuspend_still (by rw [hb]; exact BusState.noConfusion)⟩⟩
  · obtain ⟨h1, h2, h3, h4, h5⟩ := attachPort_attached hb
    refine ⟨_, portAttach_detached hb, ?_⟩
    generalize attachPort n s = u at *
    exact ⟨h1, h2, h3, h4, congrArg handedOn h5⟩
  · have h := resetPort_reset hb
    refine ⟨_, busReset_attached hb, ?_⟩
    generalize resetPort n s = u at *
    obtain ⟨hport, hports, ⟨x, hx, hr, hc, hp, hk, hl⟩, hwakes, hsig, hquiet, hrest⟩ := h
    refine ⟨hport, hports, hemptied x _ hx ?_ ?_ ?_ ?_ hp hk hl, hwakes, fun f e ha => (hsig f e ha).trans (afterSignal_eq f), hquiet, ?_⟩
    · exact (State.lastKey_congr (s := x) (t := u) hr n).trans hx.lastKey
    · exact (State.lastPointer_congr (s := x) (t := u) hr n).trans hx.lastPointer
    · have hur : u.router = { s.router with lastKey := u.router.lastKey, lastPointer := u.router.lastPointer } := by
        rw [hr]
        exact congrArg State.router hx.rest
      exact hur
    · exact congrArg (pick · n) hc
    · refine (congrArg handedOn hrest).trans ?_
      by_cases ha : (s.port n).bus = .attached
      · rw [if_pos ha, if_pos ha]; rfl
      · rw [if_neg ha, if_neg ha]; rfl
  · have h := detachPort_detached hb
    refine ⟨_, portDetach_attached hb, ?_⟩
    generalize detachPort n s = u at *
    obtain ⟨⟨w, hg, hu⟩, hpow, hothers, hline, hnone, hwaits, hstays⟩ := h
    have hrec (m : Comp) : isRecipient (handedOn u) m = isRecipient w m := by rw [hu]; rfl
    have hpulses (f : Flight) (hf : looksForLine a = some f) : pulses f (handedOn u) := by
      refine ⟨fun l hl honly => hline f l hf (wakeLine_only hl honly), fun hno => hnone f hf (wakeLine_none hno)⟩
    have hstaged (W : WakeRecord) (q : Supervisor) :
        staged W q = if (looksForLine a).isSome then stageTold n W q else q := by
      have hs (b : Attempt) (hb : a = b) : staged W q = if (looksForLine b).isSome then stageTold n W q else q := by
        simp only [staged, hb]
        cases b with
        | busSignal f e => by_cases hm : f.method = .both <;> simp only [looksForLine, hm, if_true, if_false] <;> rfl
        | wait f st e => cases st <;> rfl
        | _ => rfl
      exact hs a rfl
    obtain ⟨x, hx, hp, hk, hl⟩ := hg.emptied
    refine ⟨?_, fun m hm => ?_, hemptied x _ hx ?_ ?_ ?_ ?_ ?_ ?_ ?_, (hrec n).trans hg.away, ⟨hpow, hothers⟩, fun f e ha hm => ?_,
      hwaits, fun f e ha => ?_, hstays, ?_⟩
    · rw [hu]; exact hg.port
    · rw [hrec]
      have h := hg.others m hm
      rw [hu]
      exact h
    · rw [hu]; exact hg.lastKey
    · rw [hu]; exact hg.lastPointer
    · rw [hu]; exact hg.router
    · rw [hu]; exact hg.control
    · rw [hu]; exact hp
    · rw [hu]; exact hk
    · rw [hu]; exact hl
    · exact hpulses f (by simp [looksForLine, ha, hm])
    · exact hpulses f (by simp [looksForLine, ha])
    · have hsup : w.sup = toldOf (fun m => m != n && isRecipient s m && !isRecipient w m) s s.sup := congrArg State.sup hg.rest
      have hgone : (fun m => m != n && isRecipient s m && !isRecipient (handedOn u) m) =
          fun m => m != n && isRecipient s m && !isRecipient w m := funext fun m => by rw [hrec]
      rw [hstaged, hgone, ← hsup]
      have h1 := congrArg handedOn hu
      have h2 := congrArg (fun z : State => { z with
        wake := u.wake, lines := u.lines
        sup := transmitNext (queueNotice .power (powerNotice n (.busState false) .detached (u.wakeOf n))
          (if (looksForLine (s.wakeOf n).attempt).isSome then stageTold n (u.wakeOf n) w.sup else w.sup)) }) hg.rest
      refine (h1.trans h2).trans ?_
      rw [hu]
      rfl
  · obtain ⟨h1, h2, h3⟩ := setBus_suspended (s := s) (n := n) (by rw [hb]; exact BusState.noConfusion)
    refine ⟨_, portSuspend_active hb, ?_⟩
    generalize tellBus n (setBus n .suspended s) = u at *
    exact ⟨h1, h2, congrArg handedOn h3⟩

end

section
/-!
SUPPORT. What an engagement of the privacy blank unit and the release of its lines leave (R44, R120 to R123, R128).
-/

namespace Sys2Proof.Machine

open Sys2Proof

variable {s b u : State} {src : Sources} {c : BlankCause} {l : LineId}

/-! ### An engagement from CLEAR -/

/-- What the unit leaves when it engages from CLEAR, from the state `b` with the records of `s` (R44, R122, R128). -/
structure BlankLeft (src : Sources) (c : BlankCause) (s b u : State) : Prop where
  blank : u.blank = { b.blank with state := .engaged src }
  focus : u.focus = ⟨s.focus.target, .blank, s.focus.tile⟩
  pointer : u.pointer = { s.pointer with capture := false }
  masked : heldMasked s u
  comps : computersReleased
    (fun m => if s.pointer.capture = true ∧ s.focus.target = .loc m then carryCleared (s.port m) else s.port m) s u
  links : linksReleased s u
  broadcast : u.router.broadcast = s.router.broadcast
  rest : u = { b with
    blank := u.blank, focus := u.focus, pointer := u.pointer, router := u.router, ports := u.ports
    controls := u.controls, links := u.links
    sup := queueNotice .blank (blankNotice u.blank c) (toldWrite s u b.sup) }

theorem leaveClear_left (src : Sources) (c : BlankCause) (b : State) : BlankLeft src c b b (leaveClear src c b) := by
  let v := b.modBlank fun x => { x with state := .engaged src }
  let w := (maskHeld v).setFocus ⟨v.focus.target, .blank, v.focus.tile⟩
  obtain ⟨hsup, hblank⟩ := focusBlank_sup (old := b) (s := v) rfl
  have heq : focusBlank b v = noticeFocus v (releaseLeavers b (clearCapture w)) := rfl
  have hleave : leaveClear src c b = (focusBlank b v).modSup (queueNotice .blank (blankNotice (focusBlank b v).blank c)) := rfl
  have hport := fun m => clearCapture_port w m
  have hclear := clearCapture_eq w
  rw [noticeFocus_eq] at heq
  generalize clearCapture w = y at *
  have hb : BeforeRelease b y := by
    refine ⟨?_, fun m => ?_, ?_, ?_, ?_, ?_, ?_, ?_⟩
    case refine_2 =>
      rw [hport]
      split
      · exact .inr rfl
      · exact .inl rfl
    all_goals rw [hclear]; rfl
  have hrel := releaseLeavers_effect b y
  generalize releaseLeavers b y = x at *
  generalize focusBlank b v = z at *
  have hx := hrel.releases
  have hyp : y.port = fun m =>
      if b.pointer.capture = true ∧ b.focus.target = .loc m then carryCleared (b.port m) else b.port m := funext hport
  let u : State := z.modSup (queueNotice .blank (blankNotice z.blank c))
  have hu : u = { x with sup := u.sup } := congrArg (fun q : State => { q with sup := u.sup }) heq
  have husup : u.sup = queueNotice .blank (blankNotice u.blank c) (toldWrite b u b.sup) :=
    congrArg (queueNotice .blank (blankNotice z.blank c)) hsup
  have hub : u.blank = { b.blank with state := .engaged src } := hblank
  rw [hleave]
  change BlankLeft src c b b u
  generalize u = u at *
  have ha : Alike x u := by rw [hu]; exact ⟨rfl, rfl, rfl, rfl, rfl, rfl⟩
  have hur : u.router = x.router := by rw [hu]
  have hxm : x.router.mask = (maskHeld v).router.mask := by rw [hrel.router, hclear]; rfl
  refine ⟨hub, ?_, ?_, fun k => ?_, ?_, ?_, ?_, ?_⟩
  · rw [hu, hx, hclear]; rfl
  · rw [hu, hx, hclear]; rfl
  · rw [hur, hxm]
    exact maskHeld_heldMasked (x := v) rfl rfl k
  · rw [← hyp]
    exact hb.computersReleased hrel ha (by rw [hur]) (by rw [hur]) (by rw [hu])
  · exact hb.linksReleased hrel (by rw [hu]) hur ha.focus ha.blank
  · rw [hur, hrel.router, hclear]; rfl
  · rw [← husup]
    rw [hclear] at hx
    have h1 := congrArg (fun z : State => { z with sup := u.sup }) hx
    have h2 := hu.trans h1
    rw [h2]
    rfl

/-! ### Engaging again -/

theorem engageBy_clear (h : b.blank.state = .clear) : engageBy src c b = leaveClear src c b := by
  simp only [engageBy, h]

theorem engageBy_recovering {d : Nat} (h : b.blank.state = .recovering d) :
    engageBy src c b = setBlankState (.engaged src) c b := by
  simp only [engageBy, h]

theorem engageBy_again {x : Sources} (h : b.blank.state = .engaged x) :
    let y := Sources.join x src
    (engageBy src c b).blank = { b.blank with state := .engaged y } ∧
    engageBy src c b = { b with
      blank := (engageBy src c b).blank
      sup := if y = x then b.sup else queueNotice .blank (blankNotice (engageBy src c b).blank c) b.sup } := by
  intro y
  have hb : engageBy src c b = if y = x then b else setBlankState (.engaged y) c b := by simp only [engageBy, h]; rfl
  rw [hb]
  by_cases hy : y = x
  · rw [if_pos hy, if_pos hy, hy, ← h]
    exact ⟨rfl, rfl⟩
  · rw [if_neg hy, if_neg hy]
    exact ⟨rfl, rfl⟩

/-- The states that an engagement changes and those that it looks at. -/
structure BlankFrom (s b : State) : Prop where
  rest : b = { s with now := b.now, lines := b.lines, blank := b.blank, sup := b.sup }
  state : b.blank.state = s.blank.state

theorem BlankFrom.recipient (h : BlankFrom s b) (m : Comp) : isRecipient b m = isRecipient s m := by
  have hb : blanked b = blanked s := by unfold blanked; rw [h.state]
  unfold isRecipient State.comp State.port State.control
  rw [hb, h.rest]

theorem BlankFrom.linkRecipient (h : BlankFrom s b) (k : LinkId) : linkIsRecipient b k = linkIsRecipient s k := by
  have hb : blanked b = blanked s := by unfold blanked; rw [h.state]
  unfold linkIsRecipient State.link
  rw [hb, h.rest]

/-- The releases look at nothing that differs from `s`. -/
theorem BlankFrom.left (h : BlankFrom s b) (hl : BlankLeft src c b b u) : BlankLeft src c s b u := by
  have hp (m : Comp) : b.port m = s.port m := by rw [h.rest]; rfl
  have hc (m : Comp) : b.control m = s.control m := by rw [h.rest]; rfl
  have hk (m : Comp) : b.lastKey m = s.lastKey m := by rw [h.rest]; rfl
  have hq (m : Comp) : b.lastPointer m = s.lastPointer m := by rw [h.rest]; rfl
  have he (m : Comp) : emptyRecordDue b m = emptyRecordDue s m := by rw [h.rest]; rfl
  have hn (m : Comp) : noButtonsDue b m = noButtonsDue s m := by rw [h.rest]; rfl
  have hr (m : Comp) (p : Port) : releasedPort b m p = releasedPort s m p := by rw [h.rest]; rfl
  have hlk (k : LinkId) : b.link k = s.link k := by rw [h.rest]; rfl
  have hkeys (k : LinkId) : b.linkKeys k = s.linkKeys k := by rw [h.rest]; rfl
  have hptr (k : LinkId) : b.linkPointer k = s.linkPointer k := by rw [h.rest]; rfl
  have hrl (k : LinkId) : releasedLink b k = releasedLink s k := by rw [h.rest]; rfl
  have hpo : b.pointer = s.pointer := by rw [h.rest]
  have hfo : b.focus = s.focus := by rw [h.rest]
  have hro : b.router = s.router := by rw [h.rest]
  have hkb : b.keyboard = s.keyboard := by rw [h.rest]
  have htold (p : Supervisor) : toldWrite b u p = toldWrite s u p := by
    unfold toldWrite toldFocus toldLeavers
    rw [hfo, toldOf_congr (s := s) (t := b) (fun m => by rw [h.recipient]) fun m _ => toldRelease_congr (hp m) (hk m) (hq m)]
  obtain ⟨h1, h2, h3, h4, h5, h6, h7, h8⟩ := hl
  refine ⟨h1, ?_, ?_, ?_, fun m => ?_, fun k => ?_, ?_, ?_⟩
  · rw [← hfo]; exact h2
  · rw [← hpo]; exact h3
  · unfold heldMasked at h4 ⊢
    rw [← hro, ← hkb]; exact h4
  · have := h5 m
    simp only [computerLetGo, releaseTouches, h.recipient, hr, hp, hk, hq, he, hn, hc, hpo, hfo] at this
    exact this
  · have := h6 k
    simp only [h.linkRecipient, hlk, hrl, hkeys, hptr] at this
    exact this
  · rw [← hro]; exact h7
  · rw [← htold]; exact h8

/-! ### Asserted lines and their release -/

theorem engageBy_blank (src : Sources) (c : BlankCause) (b : State) :
    (engageBy src c b).blank = { b.blank with
      state := .engaged (match b.blank.state with
        | .engaged x => Sources.join x src
        | _ => src) } := by
  cases h : b.blank.state with
  | clear =>
    rw [engageBy_clear h]
    exact (leaveClear_left src c b).blank
  | engaged x => exact (engageBy_again h).1
  | recovering d =>
    rw [engageBy_recovering h]
    rfl

theorem engageBy_lines (src : Sources) (c : BlankCause) (b : State) : (engageBy src c b).lines = b.lines := by
  cases h : b.blank.state with
  | clear =>
    rw [engageBy_clear h]
    exact (congrArg State.lines (leaveClear_left src c b).rest :)
  | engaged x => exact (congrArg State.lines (engageBy_again (src := src) (c := c) h).2 :)
  | recovering d =>
    rw [engageBy_recovering h]
    rfl

/-- The state with the line among the asserted ones (R120). -/
def lineAsserts (l : LineId) (s : State) : State :=
  s.modBlank fun x => { x with asserted := if l ∈ x.asserted then x.asserted else x.asserted ++ [l] }

theorem assertLine_engages (l : LineId) (s : State) :
    assertLine l s = engageBy ⟨true, false, false⟩ .lineAsserted (lineAsserts l s) := by
  refine congrArg (engageBy _ _) ?_
  rw [lineAsserts]
  by_cases h : l ∈ s.blank.asserted
  · rw [if_pos (List.contains_iff_mem.mpr h)]
    simp only [State.modBlank, if_pos h]
  · rw [if_neg (mt List.contains_iff_mem.mp h)]
    simp only [State.modBlank, if_neg h]

/-- The privacy blank unit after the last asserted line has gone, and the notice that tells of it (R123, R128). -/
theorem linesReleased_eq (s : State) :
    (linesReleased s).blank = { s.blank with
      state := match s.blank.state with
        | .engaged x =>
          if x.hotkey || x.request || !s.blank.autoRecover then .engaged { x with line := false }
          else if s.blank.holdTime = 0 then .clear
          else .recovering (s.now + s.blank.holdTime)
        | x => x } ∧
    linesReleased s = { s with
      blank := (linesReleased s).blank
      sup := match s.blank.state with
        | .engaged _ => queueNotice .blank (blankNotice (linesReleased s).blank .lineReleased) s.sup
        | _ => s.sup } := by
  cases h : s.blank.state with
  | clear =>
    have he : linesReleased s = s := by simp only [linesReleased, h]
    have hb : s.blank = { s.blank with state := .clear } := by rw [← h]
    rw [he]
    exact ⟨hb, rfl⟩
  | recovering d =>
    have he : linesReleased s = s := by simp only [linesReleased, h]
    have hb : s.blank = { s.blank with state := .recovering d } := by rw [← h]
    rw [he]
    exact ⟨hb, rfl⟩
  | engaged x =>
    simp only [linesReleased, h]
    split_ifs
    · exact ⟨rfl, rfl⟩
    · exact ⟨rfl, rfl⟩
    · exact ⟨rfl, rfl⟩

theorem releaseLine_other (h : l ∉ s.blank.asserted) : releaseLine l s = s := by
  rw [releaseLine, if_neg (mt List.contains_iff_mem.mp h)]

theorem releaseLine_held (h : l ∈ s.blank.asserted) :
    let rest := s.blank.asserted.filter fun j => j != l
    (releaseLine l s).blank = { s.blank with
      asserted := rest
      state := match rest, s.blank.state with
        | [], .engaged x =>
          if x.hotkey || x.request || !s.blank.autoRecover then .engaged { x with line := false }
          else if s.blank.holdTime = 0 then .clear
          else .recovering (s.now + s.blank.holdTime)
        | _, x => x } ∧
    releaseLine l s = { s with
      blank := (releaseLine l s).blank
      sup := match rest, s.blank.state with
        | [], .engaged _ => queueNotice .blank (blankNotice (releaseLine l s).blank .lineReleased) s.sup
        | _, _ => s.sup } := by
  intro rest
  let without (r : List LineId) : State := s.modBlank fun x => { x with asserted := r }
  have he : releaseLine l s = if rest.isEmpty then linesReleased (without rest) else without rest := by
    rw [releaseLine, if_pos (List.contains_iff_mem.mpr h)]
    rfl
  rw [he]
  generalize rest = r
  cases r with
  | nil =>
    obtain ⟨hb, hrest⟩ := linesReleased_eq (without [])
    have hw : (without []).blank.state = s.blank.state := rfl
    rw [if_pos List.isEmpty_nil]
    cases hs : s.blank.state <;> rw [hw, hs] at hb hrest <;> exact ⟨hb, hrest⟩
  | cons j js =>
    rw [if_neg (by simp)]
    exact ⟨rfl, rfl⟩

/-- What a release leaves of the unit does not turn on the records of the lines. -/
theorem releaseLine_blank (l : LineId) (s : State) (ls : Vector Line 16) :
    (releaseLine l { s with lines := ls }).blank = (releaseLine l s).blank := by
  by_cases h : l ∈ s.blank.asserted
  · rw [(releaseLine_held (s := { s with lines := ls }) (l := l) h).1, (releaseLine_held h).1]
  · rw [releaseLine_other (s := { s with lines := ls }) (l := l) h, releaseLine_other h]

/-- What the inactive level of a blank line leaves, from the time `n` and the lines `ls` of its acceptance, where `old` is the
level accepted before it (R123, R128). -/
theorem blankLine_inactive (l : LineId) (s : State) (old : Option Bool) (n : Nat) (ls : Vector Line 16) :
    let t : State := { s with now := n, lines := ls }
    let u := if old.isNone then t else releaseLine l t
    let rest := s.blank.asserted.filter fun j => j != l
    (old = none ∨ l ∉ s.blank.asserted → u.blank = s.blank) ∧
    (old ≠ none → l ∈ s.blank.asserted →
      u.blank = { s.blank with
        asserted := rest
        state :=
          match rest, s.blank.state with
          | [], .engaged x =>
            if x.hotkey || x.request || !s.blank.autoRecover then .engaged { x with line := false }
            else if s.blank.holdTime = 0 then .clear
            else .recovering (n + s.blank.holdTime)
          | _, x => x }) ∧
    u = { s with
      now := n, lines := ls, blank := u.blank
      sup :=
        match rest, s.blank.state with
        | [], .engaged _ =>
          if old ≠ none ∧ l ∈ s.blank.asserted then queueNotice .blank (blankNotice u.blank .lineReleased) s.sup
          else s.sup
        | _, _ => s.sup } := by
  intro t u rest
  by_cases h : old ≠ none ∧ l ∈ s.blank.asserted
  · obtain ⟨hold, hl⟩ := h
    have hu : u = releaseLine l t := if_neg (by simpa using hold)
    rw [hu]
    obtain ⟨hblank, hrest⟩ := releaseLine_held (s := t) (l := l) hl
    refine ⟨fun h => absurd h (by tauto), fun _ _ => hblank, ?_⟩
    rw [if_pos ⟨hold, hl⟩]
    exact hrest
  · have hu : u = t := by
      cases old with
      | none => rfl
      | some x => exact releaseLine_other (s := t) (by simpa using h)
    rw [hu]
    refine ⟨fun _ => rfl, fun h1 h2 => absurd ⟨h1, h2⟩ h, ?_⟩
    rw [if_neg h]
    cases rest <;> cases s.blank.state <;> rfl

/-- A level accepted on a BLANK_INPUT line (R180, R120, R123). -/
theorem filterEnd_blankInput {level : Bool} {since : Nat} (hr : (s.line l).config.role = .blankInput)
    (hh : (s.line l).hold = none) (hc : (s.line l).candidate = some (level, since))
    (hf : (s.line l).filtered ≠ some level) :
    let t := (s.setNow (max s.now (since + (s.line l).config.filter))).modLine l fun x =>
      { x with filtered := some level, candidate := none }
    filterEnd l s =
      (if level then assertLine l t else if (s.line l).filtered.isNone then t else releaseLine l t).modSup
        (queueNotice .line (lineNotice l .blankInput level (s.line l).filtered.isNone)) := by
  intro t
  have hw : Line.filtering (s.line l) = true := by simp [Line.filtering, hr, hh, Role.isOutput]
  have hrt : (t.line l).config.role = .blankInput := by rw [State.modLine_line_same]; exact hr
  have hl : (reach (since + (s.line l).config.filter) s).line l = s.line l := rfl
  calc filterEnd l s
    _ = acceptLevel l level (reach (since + (s.line l).config.filter) s) := by simp only [filterEnd, hc, hw, if_true]
    _ = notify .line (lineNotice l .blankInput level (s.line l).filtered.isNone)
          (handLevel l level (s.line l).filtered.isNone t) := by
      rw [acceptLevel, hl, if_neg hf, hr]
      rfl
    _ = _ := by
      rw [handLevel, hrt]
      rfl

end Sys2Proof.Machine
end

section
/-! The privacy blank unit (O45). -/

open Sys2Proof Sys2Proof.Machine

/-- Settles O45: an engagement by `engageBy` from the three states of the unit, the requests by their judgements, and the two
levels of a blank line by what asserts and releases it. -/
theorem blankEngagesAndResumes : Obligations.BlankEngagesAndResumes := by
  unfold Obligations.BlankEngagesAndResumes
  intro engages
  have engaged : ∀ {src c s b}, BlankFrom s b → engages src c s b (engageBy src c b) := by
    intro src c s b hb
    refine ⟨fun h => ?_, fun x h => ?_, fun d h => ?_⟩
    · rw [← hb.state] at h
      rw [engageBy_clear h]
      obtain ⟨h1, h2, h3, h4, h5, h6, h7, h8⟩ := hb.left (leaveClear_left src c b)
      exact ⟨h1, h2, h3, h4, h5, h6, h7, h8⟩
    · exact engageBy_again (hb.state.trans h)
    · rw [engageBy_recovering (hb.state.trans h)]
      exact ⟨rfl, rfl⟩
  refine ⟨fun tag s => ⟨?_, ?_, ?_, fun hno => ?_, fun d hd => ?_⟩, fun l s level since => ?_⟩
  · intro r ht
    refine ⟨_, exec_request r judgeBlank s ht _ _ _ rfl, engaged ⟨rfl, rfl⟩, fun x hx hreq => ?_⟩
    have hj : Sources.join x ⟨false, false, true⟩ = x := by
      cases x
      simp_all [Sources.join]
    have hb : (begun r s).blank.state = .engaged x := hx
    simp only [engageBy, hb, if_pos hj]
  · intro r ht
    refine ⟨fun hheld => exec_request r judgeResume s ht _ _ _ (if_pos (by simpa [lineHeld] using hheld)), fun hfree => ?_⟩
    have hj : judgeResume [] (begun r s) = okay (resumeEffect (begun r s)) := if_neg (by simp [lineHeld, begun, hfree])
    refine ⟨fun hc => ?_, fun hc => ?_⟩
    · have he : resumeEffect (begun r s) = begun r s := resumeEffect_clear hc
      exact exec_request r judgeResume s ht _ _ _ (hj.trans (congrArg okay he))
    · have he : resumeEffect (begun r s) = blankLifted .resume (begun r s) := resumeEffect_lifts hc
      exact exec_request r judgeResume s ht _ _ _ (hj.trans (congrArg okay he))
  · intro hb b x1 x0 y1 y0 r refused ht
    have answers : ∀ {c : ResultCode}, judgePlacePointer r.body (begun r s) = refuse c (begun r s) → refused c :=
      fun hj => exec_request r judgePlacePointer s ht _ _ _ hj
    refine ⟨fun hbad => answers (judgePlacePointer_none (monitorOf_eq_none hbad)), fun m hm => ?_⟩
    have hj := judgePlacePointer_some (s := begun r s) (x1 := x1) (x0 := x0) (y1 := y1) (y0 := y0) (monitorOf_eq_some hm)
    refine ⟨fun htile => ?_, fun hnone => answers (hj.trans (placePointer_no_tile (tileOf_eq_none hnone)))⟩
    have hsome : (tileOf s.layout m).isSome := by
      obtain ⟨t, ht, rfl⟩ := htile
      exact List.find?_isSome.mpr ⟨t, ht, by simp⟩
    obtain ⟨t, ht⟩ := Option.isSome_iff_exists.mp hsome
    exact answers (hj.trans (placePointer_blanked ht (blanked_of_not_clear hb)))
  · change done _ = done s
    cases h : s.blank.state with
    | recovering d => exact absurd h (hno d)
    | clear => rfl
    | engaged x => rfl
  · change done _ = done _
    rw [hd]
    rfl
  · intro ln now hr hh hc hf
    let t : State := (s.setNow now).modLine l fun x => { x with filtered := some level, candidate := none }
    have ht : filterEnd l s = _ := filterEnd_blankInput hr hh hc hf
    have hline : t.line l = { ln with filtered := some level, candidate := none } := State.modLine_line_same ..
    have hother : ∀ j, j ≠ l → t.line j = s.line j := fun j hj => State.modLine_line_ne _ _ _ _ hj
    cases level with
    | true =>
      let v := lineAsserts l t
      let u := engageBy ⟨true, false, false⟩ .lineAsserted v
      have hu : assertLine l t = u := assertLine_engages l t
      have hlines : u.lines = t.lines := engageBy_lines ..
      have hl (j : LineId) : u.line j = t.line j := by unfold State.line; rw [hlines]
      have hv : v = { s with now := now, lines := u.lines, blank := { s.blank with asserted :=
          if l ∈ s.blank.asserted then s.blank.asserted else s.blank.asserted ++ [l] } } := by
        rw [hlines]
        rfl
      refine ⟨u, (congrArg done ht).trans ?_, (hl l).trans hline, fun j hj => (hl j).trans (hother j hj), fun _ => ?_,
        nofun, ?_⟩
      · rw [if_pos rfl, hu]
        rfl
      · rw [← hv]
        exact engaged ⟨rfl, rfl⟩
      · rw [if_pos rfl, assertLine_engages, engageBy_blank, engageBy_blank]
        rfl
    | false =>
      obtain ⟨hother', hheld, hrest⟩ := blankLine_inactive l s ln.filtered now t.lines
      let u := if ln.filtered.isNone then t else releaseLine l t
      have hlines : u.lines = t.lines := (congrArg State.lines hrest :)
      have hl (j : LineId) : u.line j = t.line j := by unfold State.line; rw [hlines]
      refine ⟨u, congrArg done ht, (hl l).trans hline, fun j hj => (hl j).trans (hother j hj), nofun, fun _ =>
        ⟨hother', hheld, ?_⟩, ?_⟩
      · rw [hlines]
        exact hrest
      · rw [if_neg nofun]
        cases hold : ln.filtered with
        | none =>
          rw [if_pos rfl]
          exact hother' (.inl hold)
        | some x =>
          have hu : u = releaseLine l t := if_neg (by simp [hold])
          rw [if_neg nofun, hu]
          exact releaseLine_blank l (s.setNow now) t.lines

end

section
/-!
SUPPORT. What the end of control on a link leaves (R153, R160): what every return changes and keeps, and what the link that held
the computers has afterwards.
-/

namespace Sys2Proof.Machine

open Sys2Proof

variable {s t x u : State} {n m : Comp} {k j : LinkId} {c : HolderCause} {a b d : Link}

/-! ### A link that frames alone have changed -/

/-- The link differs by what the formation of frames changes (R135). -/
def QueuedOnly (a b : Link) : Prop :=
  b = { a with
    sending := b.sending, sendQueue := b.sendQueue
    counters := { a.counters with sendOverflow := b.counters.sendOverflow } }

theorem QueuedOnly.refl (a : Link) : QueuedOnly a a := rfl

theorem QueuedOnly.trans (h : QueuedOnly a b) (g : QueuedOnly b d) : QueuedOnly a d := by
  unfold QueuedOnly at *
  rw [g, h]

theorem QueuedOnly.enqueueFrame (f : LinkMsg) (a : Link) : QueuedOnly a (enqueueFrame f a) := by
  unfold QueuedOnly Machine.enqueueFrame
  split
  · rfl
  · split <;> rfl

/-! ### Masks and recipients -/

/-- Every held key stays masked under what leaves the mask as it is or masks the held keys again. -/
theorem heldMasked.then (h : heldMasked s x) (hk : x.keyboard.held = s.keyboard.held)
    (g : u.router.mask = x.router.mask ∨ heldMasked x u) : heldMasked s u := by
  intro c
  rcases g with g | g
  · rw [g, h c]
  · rw [g c, h c, hk, Bool.or_assoc, Bool.or_self]

theorem heldMasked.after (h : heldMasked x u) (hm : x.router.mask = s.router.mask)
    (hk : x.keyboard.held = s.keyboard.held) : heldMasked s u := by
  intro c
  rw [h c, hm, hk]

/-- A computer stays a recipient where the desk holds what it held before. -/
theorem isRecipient_held (hf : u.focus = s.focus) (hb : u.blank = s.blank) (hc : u.comps = s.comps)
    (hr : u.router.broadcast = s.router.broadcast) (hp : ∀ m, (u.port m).bus = (s.port m).bus)
    (hh : ∀ m, (s.control m).holder = .desk → (u.control m).holder = .desk) (h : isRecipient s m = true) :
    isRecipient u m = true := by
  unfold isRecipient blanked State.comp at h ⊢
  simp only [hf, hb, hc, hr, hp]
  cases hs : s.focus.target with
  | loc i =>
    simp only [hs, Bool.and_eq_true, Bool.or_eq_true, beq_iff_eq] at h ⊢
    obtain ⟨⟨h1, h2⟩, h3⟩ := h
    exact ⟨⟨h1, hh i h2⟩, h3.imp_right fun ⟨h4, h5⟩ => ⟨h4, hh m h5⟩⟩
  | rem i => simp [hs] at h
  | none => simp [hs] at h

/-- Held keys are masked where a computer joins the recipients (R49), and the mask stays otherwise or takes every held key. -/
structure JoinersMasked (s u : State) : Prop where
  held : u.keyboard.held = s.keyboard.held
  masks : u.router.mask = s.router.mask ∨ heldMasked s u
  joins : (∃ m, isRecipient u m = true ∧ isRecipient s m = false) → heldMasked s u

/-- Nothing joins and nothing is masked. -/
theorem JoinersMasked.of_same (hk : u.keyboard.held = s.keyboard.held) (hm : u.router.mask = s.router.mask)
    (hr : ∀ m, isRecipient u m = true → isRecipient s m = true) : JoinersMasked s u :=
  ⟨hk, .inl hm, fun ⟨m, h1, h2⟩ => (Bool.false_ne_true (h2.symm.trans (hr m h1))).elim⟩

/-- Every held key is masked, whatever joins. -/
theorem JoinersMasked.of_masked (hk : u.keyboard.held = s.keyboard.held) (h : heldMasked s u) : JoinersMasked s u :=
  ⟨hk, .inr h, fun _ => h⟩

theorem JoinersMasked.trans (h : JoinersMasked s x) (g : JoinersMasked x u) : JoinersMasked s u := by
  refine ⟨g.held.trans h.held, ?_, ?_⟩
  · rcases h.masks with hm | hm
    · exact g.masks.imp (·.trans hm) (·.after hm h.held)
    · exact .inr (hm.then h.held g.masks)
  · rintro ⟨m, hu, hs⟩
    cases hx : isRecipient x m with
    | true => exact (h.joins ⟨m, hx, hs⟩).then h.held g.masks
    | false =>
      have hj := g.joins ⟨m, hu, hx⟩
      rcases h.masks with hm | hm
      · exact hj.after hm h.held
      · exact hm.then h.held (.inr hj)

/-! ### What a return changes, whatever the link that held the computer -/

/-- Control of some computers has moved: links are changed by frames alone, no link claims what it did not claim, and held
keys are masked where a computer joins the recipients (R49, R153). -/
structure ControlMoved (s u : State) : Prop extends JoinersMasked s u where
  links : ∀ j, QueuedOnly (s.link j) (u.link j)
  claims : ∀ n j, (∀ c ∈ (s.control n).claims, c.link ≠ j) → ∀ c ∈ (u.control n).claims, c.link ≠ j
  linkKeys : u.router.linkKeys = s.router.linkKeys
  linkPointer : u.router.linkPointer = s.router.linkPointer
  away : (∀ n, s.focus.target ≠ .loc n) → u.pointer.capture = s.pointer.capture
  rest : u = { s with
    links := u.links, controls := u.controls, ports := u.ports, router := u.router
    pointer := { s.pointer with capture := u.pointer.capture }, sup := u.sup }

theorem ControlMoved.refl (s : State) : ControlMoved s s :=
  ⟨.of_same rfl rfl fun _ h => h, fun _ => rfl, fun _ _ h => h, rfl, rfl, fun _ => rfl, rfl⟩

theorem ControlMoved.focus (h : ControlMoved s u) : u.focus = s.focus := by rw [h.rest]

theorem ControlMoved.trans (h : ControlMoved s x) (g : ControlMoved x u) : ControlMoved s u := by
  refine ⟨h.toJoinersMasked.trans g.toJoinersMasked, fun j => (h.links j).trans (g.links j),
    fun n j hn => g.claims n j (h.claims n j hn), g.linkKeys.trans h.linkKeys, g.linkPointer.trans h.linkPointer,
    fun hf => ?_, ?_⟩
  · exact (g.away (by rw [h.focus]; exact hf)).trans (h.away hf)
  · have h1 := congrArg (fun z : State => { z with
      links := u.links, controls := u.controls, ports := u.ports, router := u.router
      pointer := { z.pointer with capture := u.pointer.capture }, sup := u.sup }) h.rest
    exact g.rest.trans h1

theorem ReturnTaken.port_bus {next : Option LinkId} (h : ReturnTaken n next s u) (m : Comp) :
    (u.port m).bus = (s.port m).bus := by
  obtain ⟨hport, -, -, hothers, -⟩ := h.input
  by_cases hm : m = n
  · rw [hm, hport]
    exact releasedPort_bus ..
  · obtain ⟨⟨hp, -⟩, -⟩ := hothers m hm
    rw [hp]
    split
    · exact releasedPort_bus ..
    · rfl

theorem ReturnTaken.control_ne {next : Option LinkId} (h : ReturnTaken n next s u) (hm : m ≠ n) :
    (u.control m).holder = (s.control m).holder ∧ (u.control m).claims = (s.control m).claims := by
  obtain ⟨-, -, -, hothers, -⟩ := h.input
  rw [(hothers m hm).2]
  split <;> exact ⟨rfl, rfl⟩

theorem ReturnTaken.moved {next : Option LinkId} (h : ReturnTaken n next s u) : ControlMoved s u := by
  obtain ⟨-, -, -, -, hmasked, hmask, hbc, hlk, hlp⟩ := h.input
  have hrest := h.rest
  have hbase : ∀ m, isRecipient u m = true → isRecipient (s.modControl n fun c => { c with holder := .desk }) m = true := by
    intro m hm
    refine isRecipient_held (s := u) (by rw [hrest]; rfl) (by rw [hrest]; rfl) (by rw [hrest]; rfl) hbc.symm
      (fun i => (h.port_bus i).symm) (fun i hi => ?_) hm
    by_cases hn : i = n
    · rw [hn, State.modControl_control_same]
    · rw [State.modControl_control_ne _ _ _ _ hn, ← (h.control_ne hn).1]
      exact hi
  refine ⟨⟨by rw [hrest], ?_, fun ⟨m, hu, hs⟩ => hmasked ⟨m, hbase m hu, hs⟩⟩, fun j => ?_, fun m j hj => ?_, hlk, hlp,
    fun hf => ?_, ?_⟩
  · by_cases hjoin : ∃ m, isRecipient (s.modControl n fun c => { c with holder := .desk }) m = true ∧ isRecipient s m = false
    · exact .inr (hmasked hjoin)
    · refine .inl (hmask fun m hm => ?_)
      cases hs : isRecipient s m with
      | true => rfl
      | false => exact absurd ⟨m, hm, hs⟩ hjoin
  · rw [h.link]
    split
    · exact .enqueueFrame ..
    · exact .refl _
  · by_cases hn : m = n
    · subst hn
      cases hnext : next with
      | none =>
        rw [(h.kept hnext).2]
        intro c hc
        obtain ⟨d, hd, rfl⟩ := List.mem_map.mp hc
        exact hj d hd
      | some i =>
        rw [(h.granted i hnext).2]
        exact fun c hc => hj c (List.mem_of_mem_filter hc)
    · rw [(h.control_ne hn).2]
      exact hj
  · rw [hrest]
    have : (s.focus.target == .loc n) = false := by simpa using hf n
    simp [this]
  · have hcap : u.pointer.capture = (s.pointer.capture && !(next.isSome && s.focus.target == .loc n)) := by rw [hrest]
    rw [hcap]
    exact hrest

/-! ### The end of control on a link that claims nothing -/

/-- Whether the focus computer has passed to a link (R28, R152). -/
def focusGranted (s u : State) : Bool :=
  match s.focus.target with
  | .loc n => (u.control n).holder != (s.control n).holder && (u.control n).holder != .desk
  | _ => false

/-- DLk has given back some of what it holds, and has nothing for it in return. -/
structure HandedBack (k : LinkId) (s u : State) : Prop extends ControlMoved s u where
  link : u.link k = s.link k
  holder : ∀ n, (u.control n).holder = (s.control n).holder ∨
    (s.control n).holder = .link k ∧ (u.control n).holder ≠ .link k
  capture : u.pointer.capture = (s.pointer.capture && !focusGranted s u)

theorem focusGranted_same (h : ∀ n, (u.control n).holder = (s.control n).holder) : focusGranted s u = false := by
  unfold focusGranted
  split
  · rw [h, bne_self_eq_false, Bool.false_and]
  · rfl

theorem HandedBack.unmoved (h : ControlMoved s u) (hl : u.link k = s.link k)
    (hh : ∀ n, (u.control n).holder = (s.control n).holder) (hc : u.pointer.capture = s.pointer.capture) :
    HandedBack k s u :=
  ⟨h, hl, fun n => .inl (hh n), by rw [focusGranted_same hh, hc, Bool.not_false, Bool.and_true]⟩

theorem HandedBack.refl (k : LinkId) (s : State) : HandedBack k s s := .unmoved (.refl s) rfl (fun _ => rfl) rfl

/-- The link holds a computer after a return only if it held it before. -/
theorem HandedBack.kept (h : HandedBack k s u) (hn : (s.control n).holder ≠ .link k) : (u.control n).holder ≠ .link k := by
  rcases h.holder n with hh | hh
  · rwa [hh]
  · exact hh.2

theorem HandedBack.trans (h : HandedBack k s x) (g : HandedBack k x u) : HandedBack k s u := by
  refine ⟨h.toControlMoved.trans g.toControlMoved, g.link.trans h.link, fun n => ?_, ?_⟩
  · rcases h.holder n with hh | ⟨h1, h2⟩
    · rw [← hh]
      exact g.holder n
    · exact .inr ⟨h1, g.kept h2⟩
  · rw [g.capture, h.capture, Bool.and_assoc, ← Bool.not_or]
    refine congrArg (fun z => s.pointer.capture && !z) ?_
    unfold focusGranted
    rw [h.focus]
    cases s.focus.target with
    | loc n =>
      dsimp only
      rcases h.holder n with hh | ⟨h1, h2⟩
      · rw [hh, bne_self_eq_false, Bool.false_and, Bool.false_or]
      · rcases g.holder n with gg | ⟨gg, -⟩
        · rw [gg, bne_self_eq_false, Bool.false_and, Bool.or_false]
        · exact absurd gg h2
    | rem i => rfl
    | none => rfl

theorem ReturnTaken.handedBack {next : Option LinkId} (h : ReturnTaken n next s u) (hk : next ≠ some k)
    (hn : (s.control n).holder = .link k) : HandedBack k s u ∧ (u.control n).holder ≠ .link k := by
  have hnot : (u.control n).holder ≠ .link k := by
    cases hnext : next with
    | none =>
      rw [(h.kept hnext).1]
      exact Holder.noConfusion
    | some j =>
      rw [(h.granted j hnext).1]
      exact fun e => hk (by rw [hnext, Holder.link.inj e])
  refine ⟨⟨h.moved, by rw [h.link, if_neg hk], fun m => ?_, ?_⟩, hnot⟩
  · by_cases hm : m = n
    · exact .inr (hm ▸ ⟨hn, hnot⟩)
    · exact .inl (h.control_ne hm).1
  · have hcap : u.pointer.capture = (s.pointer.capture && !(next.isSome && s.focus.target == .loc n)) := by rw [h.rest]
    rw [hcap]
    refine congrArg (fun z => s.pointer.capture && !z) ?_
    unfold focusGranted
    cases s.focus.target with
    | loc m =>
      dsimp only
      by_cases hm : m = n
      · subst hm
        have hne : (u.control m).holder ≠ (s.control m).holder := by rwa [hn]
        rw [beq_self_eq_true, Bool.and_true, bne_iff_ne.mpr hne, Bool.true_and]
        cases hnext : next with
        | none => rw [(h.kept hnext).1]; rfl
        | some j => rw [(h.granted j hnext).1]; rfl
      · rw [(h.control_ne hm).1, bne_self_eq_false, Bool.false_and]
        simp [hm]
    | rem i => simp
    | none => simp

/-- A grant that follows a return goes to a link that claims the computer. -/
theorem grantedNext_claims (h : grantedNext n s = some j) : ∃ c ∈ (s.control n).claims, c.link = j := by
  unfold grantedNext at h
  cases hf : (s.control n).claims.find? Claim.approved with
  | some d =>
    simp only [hf, Option.ite_none_right_eq_some, Option.some.injEq] at h
    exact ⟨d, List.mem_of_find?_eq_some hf, h.2⟩
  | none =>
    simp only [hf, Option.ite_none_right_eq_some] at h
    obtain ⟨-, h⟩ := h
    obtain ⟨d, hd, hj⟩ := Option.map_eq_some_iff.mp h
    exact ⟨d, List.mem_of_mem_head? hd, hj⟩

/-- DLk claims no computer. -/
def Claimless (k : LinkId) (s : State) : Prop := ∀ n, ∀ c ∈ (s.control n).claims, c.link ≠ k

theorem ControlMoved.claimless (h : ControlMoved s u) (hk : Claimless k s) : Claimless k u := fun n => h.claims n k (hk n)

theorem controlReturned.handedBack (h : controlReturned n j c s u) (hk : ∀ d ∈ (s.control n).claims, d.link ≠ k)
    (hn : (s.control n).holder = .link k) : HandedBack k s u ∧ (u.control n).holder ≠ .link k := by
  refine h.taken.handedBack (fun hnext => ?_) hn
  obtain ⟨d, hd, hj⟩ := grantedNext_claims hnext
  exact hk d hd hj

theorem returnsInTurn.handedBack {l : List Comp} (h : returnsInTurn k c l s u) (hk : Claimless k s) :
    HandedBack k s u ∧ ∀ n ∈ l, (u.control n).holder ≠ .link k := by
  induction l generalizing s with
  | nil =>
    have hu : u = s := h
    rw [hu]
    exact ⟨.refl k s, nofun⟩
  | cons n l ih =>
    obtain ⟨x, hx, hrest⟩ := h
    have hback : HandedBack k s x ∧ (x.control n).holder ≠ .link k := by
      split at hx
      next hn => exact hx.handedBack (hk n) hn
      next hn =>
        rw [hx]
        exact ⟨.refl k s, hn⟩
    obtain ⟨hu, hl⟩ := ih hrest (hback.1.claimless hk)
    refine ⟨hback.1.trans hu, fun m hm => ?_⟩
    rcases List.mem_cons.mp hm with rfl | hm
    · exact hu.kept hback.2
    · exact hl m hm

/-- Where the link holds nothing, nothing returns. -/
theorem returnsInTurn.nothing {l : List Comp} (h : returnsInTurn k c l s u) (hn : ∀ n, (s.control n).holder ≠ .link k) :
    u = s := by
  induction l generalizing s with
  | nil => exact h
  | cons n l ih =>
    obtain ⟨x, hx, hrest⟩ := h
    rw [if_neg (hn n)] at hx
    subst hx
    exact ih hrest hn

theorem claimsDropped.handedBack (h : claimsDropped k s u) : HandedBack k s u ∧ Claimless k u := by
  obtain ⟨hctl, hrest⟩ := h
  have hh : ∀ n, (u.control n).holder = (s.control n).holder := fun n => by rw [hctl]
  have hrec : ∀ m, isRecipient u m = isRecipient s m := by
    generalize u.controls = cs, u.sup = sp at hrest
    subst hrest
    exact isRecipient_congr rfl rfl rfl rfl (fun _ => rfl) hh
  refine ⟨.unmoved ⟨.of_same (by rw [hrest]) (by rw [hrest]) fun m hm => (hrec m).symm.trans hm, fun j => ?_,
    fun n j hj => ?_, by rw [hrest], by rw [hrest], fun _ => by rw [hrest], ?_⟩ (by rw [hrest]; rfl) hh (by rw [hrest]),
    fun n d hd => ?_⟩
  · rw [hrest]
    exact .refl _
  · rw [hctl]
    exact fun d hd => hj d (List.mem_of_mem_filter hd)
  · have hp : s.pointer = { s.pointer with capture := u.pointer.capture } := by rw [hrest]
    rw [← hp, hrest]
  · rw [hctl] at hd
    simpa using (List.mem_filter.mp hd).2

/-- The end of control leaves the link without a computer and without a claim (R160). -/
theorem controlEnded.handedBack (h : controlEnded k c s u) :
    HandedBack k s u ∧ Claimless k u ∧ ∀ n, (u.control n).holder ≠ .link k := by
  obtain ⟨x, hx, hu⟩ := h
  obtain ⟨hback, hclaims⟩ := hx.handedBack
  obtain ⟨hturn, hgone⟩ := hu.handedBack hclaims
  exact ⟨hback.trans hturn, hturn.claimless hclaims, fun n => hgone n (mem_allComps n)⟩

/-- Where the link holds nothing, the router stays as it is. -/
theorem controlEnded.router (h : controlEnded k c s u) (hn : ∀ n, (s.control n).holder ≠ .link k) : u.router = s.router := by
  obtain ⟨x, ⟨hctl, hrest⟩, hu⟩ := h
  have hx : ∀ n, (x.control n).holder ≠ .link k := fun n => by
    rw [hctl]
    exact hn n
  rw [hu.nothing hx, hrest]

end Sys2Proof.Machine
end

section
/-!
SUPPORT. What the changes of a session leave in the link, in the other link and in what the link held (R131 to R134).
-/

namespace Sys2Proof.Machine

open Sys2Proof

variable {s t x u : State} {n m : Comp} {k j : LinkId} {f : Option LinkMsg} {cause : ShareCause}

/-- The link with a frame formed on it, if there is one (R135). -/
def linkFormed (f : Option LinkMsg) (l : Link) : Link := f.elim l fun m => enqueueFrame m l

theorem linkFormed_outbound (f : Option LinkMsg) (l : Link) (v : Outbound) :
    linkFormed f { l with outbound := v } = { linkFormed f l with outbound := v } := by
  cases f with
  | none => rfl
  | some m => exact enqueueFrame_outbound m l v

theorem linkFormed_lane (f : Option LinkMsg) (l : Link) (i : Inbound) (v : ViewerControl) :
    linkFormed f { l with inbound := i, viewer := v } = { linkFormed f l with inbound := i, viewer := v } := by
  unfold linkFormed enqueueFrame
  cases f with
  | none => rfl
  | some m =>
    dsimp only [Option.elim]
    split
    · rfl
    · split <;> rfl

theorem linkFormed_viewer (f : Option LinkMsg) (l : Link) : (linkFormed f l).viewer = l.viewer := by
  cases f with
  | none => rfl
  | some m => exact enqueueFrame_viewer m l

theorem linkFormed_inbound (f : Option LinkMsg) (l : Link) (i : Inbound) :
    linkFormed f { l with inbound := i } = { linkFormed f l with inbound := i } := by
  refine (linkFormed_lane f l i l.viewer).trans ?_
  rw [← linkFormed_viewer f l]

/-! ### The end of the outbound session -/

/-- What the end of an outbound session that is not NONE leaves (R132). -/
structure OutboundGone (k : LinkId) (f : Option LinkMsg) (cause : ShareCause) (s u : State) : Prop extends
    JoinersMasked s u where
  link : u.link k = { linkFormed f (s.link k) with outbound := .none }
  links : ∀ j, j ≠ k → QueuedOnly (s.link j) (u.link j)
  out : u.out (laneOut k) = takeTargetRecord none (s.out (laneOut k))
  outs : ∀ o, o ≠ laneOut k → u.out o = s.out o
  holder : ∀ n, (u.control n).holder = (s.control n).holder ∨
    (s.control n).holder = .link k ∧ (u.control n).holder ≠ .link k
  linkKeys : u.router.linkKeys = s.router.linkKeys
  linkPointer : u.router.linkPointer = s.router.linkPointer
  capture : u.pointer.capture = (s.pointer.capture && !focusGranted s u)
  idle : (∀ n, (s.control n).holder ≠ .link k) → u.router.mask = s.router.mask
  offered : ∀ h v d, (s.link k).outbound = .offered h v d → (∀ j, j ≠ k → u.link j = s.link j) ∧
    u = { s with
      links := u.links, outputs := u.outputs, sup := queueNotice .share (shareOutNotice k .none h v cause) s.sup }
  active : (∃ h v, (s.link k).outbound = .active h v) → Claimless k u ∧ ∀ n, (u.control n).holder ≠ .link k
  rest : u = { s with
    links := u.links, outputs := u.outputs, controls := u.controls, ports := u.ports, router := u.router
    pointer := { s.pointer with capture := u.pointer.capture }, sup := u.sup }

/-- An outbound session ends by what its control gives back, and then by the lane, the frame and the notice. -/
theorem outboundEnded.closed (hend : outboundEnded k f cause s u) (ho : (s.link k).outbound ≠ .none) :
    ∃ x q, HandedBack k (s.modLink k fun l => { l with outbound := .none }) x ∧
      ((∀ n, (s.control n).holder ≠ .link k) → x.router = s.router) ∧
      (∀ h v d, (s.link k).outbound = .offered h v d → x = s.modLink k (fun l => { l with outbound := .none }) ∧
        q = queueNotice .share (shareOutNotice k .none h v cause)) ∧
      ((∃ h v, (s.link k).outbound = .active h v) → Claimless k x ∧ ∀ n, (x.control n).holder ≠ .link k) ∧
      u = ((x.modOut (laneOut k) (takeTargetRecord none)).modLink k (linkFormed f)).modSup q := by
  unfold outboundEnded at hend
  cases hout : (s.link k).outbound with
  | none => exact absurd hout ho
  | offered h v d =>
    rw [hout] at hend
    refine ⟨_, _, .refl k _, fun _ => rfl, fun h' v' d' he => ⟨rfl, ?_⟩, nofun, hend⟩
    cases he
    rfl
  | active h v =>
    rw [hout] at hend
    obtain ⟨x, hx, hu⟩ := hend
    obtain ⟨hback, hgone⟩ := hx.handedBack
    exact ⟨x, _, hback, fun hn => hx.router hn, nofun, fun _ => hgone, hu⟩

theorem outboundEnded.gone (h : outboundEnded k f cause s u) (ho : (s.link k).outbound ≠ .none) :
    OutboundGone k f cause s u := by
  obtain ⟨x, q, hback, hidle, hoffered, hactive, hu⟩ := h.closed ho
  have hxl : x.link k = { s.link k with outbound := .none } := hback.link.trans (State.modLink_link_same ..)
  have hxj : ∀ j, j ≠ k → QueuedOnly (s.link j) (x.link j) := fun j hj => by
    rw [← State.modLink_link_ne s k j (fun l => { l with outbound := .none }) hj]
    exact hback.links j
  have hxo : x.outputs = s.outputs := by rw [hback.rest]; rfl
  have hxout : ∀ o, x.out o = s.out o := fun o => congrArg (pick · o) hxo
  have hlink : u.link k = linkFormed f (x.link k) := by
    rw [hu]
    exact State.modLink_link_same ..
  have hlinks : ∀ j, j ≠ k → u.link j = x.link j := fun j hj => by
    rw [hu]
    exact State.modLink_link_ne _ _ _ _ hj
  have hout : ∀ o, u.out o = if o = laneOut k then takeTargetRecord none (x.out (laneOut k)) else x.out o := fun o => by
    rw [hu]
    exact modOut_out_at ..
  have hux : u = { x with links := u.links, outputs := u.outputs, sup := u.sup } := by rw [hu]; rfl
  have hsup : u.sup = q x.sup := by rw [hu]; rfl
  clear hu
  have hctl : ∀ n, u.control n = x.control n := fun n => by rw [hux]; rfl
  have hr : u.router = x.router := by rw [hux]
  have hp : u.pointer = x.pointer := by rw [hux]
  have hkb : u.keyboard = x.keyboard := by rw [hux]
  have hfo : focusGranted s u = focusGranted s x := by unfold focusGranted; simp only [hctl]
  have hrec : ∀ m, isRecipient u m = isRecipient x m := fun m => by rw [hux]; rfl
  have hmask : heldMasked s x → heldMasked s u := fun h => by unfold heldMasked; rw [hr]; exact h
  refine ⟨⟨by rw [hkb]; exact hback.held, ?_, fun ⟨m, h1, h2⟩ => hmask (hback.joins ⟨m, (hrec m).symm.trans h1, h2⟩)⟩,
    ?_, fun j hj => ?_, ?_, fun o h => ?_, fun n => ?_, ?_, ?_, ?_, fun hn => ?_, fun h v d hd => ?_, fun ha => ?_, ?_⟩
  · rw [hr]
    exact hback.masks.imp_right hmask
  · rw [hlink, hxl, linkFormed_outbound]
  · rw [hlinks j hj]
    exact hxj j hj
  · rw [hout, if_pos rfl, hxout]
  · rw [hout, if_neg h, hxout]
  · rw [hctl]
    exact hback.holder n
  · rw [hr]
    exact hback.linkKeys
  · rw [hr]
    exact hback.linkPointer
  · rw [hp, hfo]
    exact hback.capture
  · rw [hr, hidle hn]
  · obtain ⟨hx, hq⟩ := hoffered h v d hd
    rw [hsup, hq, hx] at hux
    refine ⟨fun j hj => ?_, hux⟩
    rw [hlinks j hj, hx]
    exact State.modLink_link_ne _ _ _ _ hj
  · obtain ⟨h1, h2⟩ := hactive ha
    unfold Claimless
    simp only [hctl]
    exact ⟨h1, h2⟩
  · have h1 := congrArg (fun z : State => { z with links := u.links, outputs := u.outputs, sup := u.sup }) hback.rest
    have h2 := hux.trans h1
    have e : x.controls = u.controls ∧ x.ports = u.ports ∧ x.router = u.router ∧ x.pointer = u.pointer := by
      rw [hux]
      exact ⟨rfl, rfl, rfl, rfl⟩
    obtain ⟨e1, e2, e3, e4⟩ := e
    rw [e1, e2, e3, e4] at h2
    exact h2

/-! ### The end of the inbound session -/

/-- What the lane of an inbound session leaves when its session has gone, and what it leaves as it was otherwise (R134). -/
structure LaneLost (gone : Bool) (k : LinkId) (s u : State) : Prop extends JoinersMasked s u where
  input : u.input (.lane k) = if gone then .absent else s.input (.lane k)
  inputs : ∀ i, i ≠ .lane k → u.input i = s.input i
  outs : ∀ o, u.out o = if gone then laneGone s k o else s.out o
  focus : u.focus = if gone && s.focus.target == .rem k then ⟨.none, .sessionEnd, s.focus.tile⟩ else s.focus
  lines : linesFollow s u
  pointer : u.pointer = { s.pointer with capture := s.pointer.capture && !(gone && s.focus.target == .rem k) }
  masked : (gone && s.focus.target == .rem k) = true → heldMasked s u
  unmasked : (gone && s.focus.target == .rem k) = false → u.router.mask = s.router.mask
  router : u.router = { s.router with mask := u.router.mask }
  keyboard : u.keyboard = if gone && s.focus.target == .rem k && s.keyboard.attached then
    { s.keyboard with lightsSent := some ⟨false, false, false⟩ } else s.keyboard
  links : ∀ j, j ≠ k → u.link j = s.link j
  rest : u = { s with
    links := u.links, inputs := u.inputs, outputs := u.outputs, focus := u.focus, router := u.router
    keyboard := u.keyboard, lines := u.lines, pointer := u.pointer, sup := u.sup }

/-- A session that was not ACTIVE has no lane to lose. -/
theorem LaneLost.idle (hu : u = { s with links := u.links, sup := u.sup }) (hl : ∀ j, j ≠ k → u.link j = s.link j) :
    LaneLost false k s u := by
  have hp : s.pointer = { s.pointer with capture := s.pointer.capture && !(false && s.focus.target == .rem k) } := by
    rw [Bool.false_and, Bool.not_false, Bool.and_true]
  refine ⟨.of_same (by rw [hu]) (by rw [hu]) fun m hm => ?_, by rw [hu]; rfl, fun i _ => by rw [hu]; rfl,
    fun o => by rw [hu]; rfl, by rw [hu]; rfl, linesFollow_same (by rw [hu]) (fun l => by rw [hu]; rfl), ?_, nofun, fun _ => by rw [hu],
    by rw [hu], by rw [hu]; rfl, hl, ?_⟩
  · rw [hu] at hm
    exact hm
  · rw [← hp, hu]
  · rw [hu]

/-- The lane is lost with what the end of an ACTIVE session does to the focus. -/
theorem LaneLost.of_focus (hin : u.input (.lane k) = .absent) (hins : ∀ i, i ≠ .lane k → u.input i = s.input i)
    (hout : ∀ p, u.out p = laneGone s k p) (hf : focusLosesLane k s u) (hl : ∀ j, j ≠ k → u.link j = s.link j)
    (hu : u = { s with
      links := u.links, inputs := u.inputs, outputs := u.outputs, focus := u.focus, router := u.router
      keyboard := u.keyboard, lines := u.lines, pointer := u.pointer, sup := u.sup }) : LaneLost true k s u := by
  obtain ⟨hfocus, hlines, hptr, hmasked, hmask, hrouter, hkb⟩ := hf
  have hheld : u.keyboard.held = s.keyboard.held := by
    rw [hkb]
    split <;> rfl
  refine ⟨?_, hin, hins, hout, hfocus, hlines, hptr, hmasked, hmask, hrouter, hkb, hl, hu⟩
  cases hfoc : (s.focus.target == .rem k) with
  | true => exact .of_masked hheld (hmasked hfoc)
  | false =>
    rw [hfoc] at hfocus
    refine .of_same hheld (hmask hfoc) fun m hm => ?_
    rw [← isRecipient_congr (t := u) hfocus (by rw [hu]) (by rw [hu]) (by rw [hrouter]) (fun i => by rw [hu]; rfl)
      (fun i => by rw [hu]; rfl)]
    exact hm

/-- An offer that ends without a session (R134). -/
theorem inboundEnded.offered {o : Offer} {d : Nat} (h : inboundEnded k f cause s u)
    (hi : (s.link k).inbound = .offeredIn o d) :
    u.link k = { linkFormed f (s.link k) with inbound := .none } ∧ (∀ j, j ≠ k → u.link j = s.link j) ∧
    u = { s with links := u.links, sup := queueNotice .share (shareInNotice k .none o cause) s.sup } := by
  unfold inboundEnded at h
  rw [hi] at h
  have hu : u = (s.modLink k fun l => linkFormed f { l with inbound := .none }).modSup
    (queueNotice .share (shareInNotice k .none o cause)) := h
  rw [hu]
  exact ⟨(State.modLink_link_same ..).trans (linkFormed_inbound ..), fun j hj => State.modLink_link_ne _ _ _ _ hj, rfl⟩

/-- An ACTIVE session that ends (R134). -/
theorem inboundEnded.active {o : Offer} (h : inboundEnded k f cause s u) (hi : (s.link k).inbound = .active o) :
    u.link k = { linkFormed f (s.link k) with inbound := .none, viewer := .none } ∧ (∀ j, j ≠ k → u.link j = s.link j) ∧
    u.input (.lane k) = .absent ∧ (∀ i, i ≠ .lane k → u.input i = s.input i) ∧ (∀ p, u.out p = laneGone s k p) ∧
    focusLosesLane k s u ∧
    u = { s with
      links := u.links, inputs := u.inputs, outputs := u.outputs, focus := u.focus, router := u.router
      keyboard := u.keyboard, lines := u.lines, pointer := u.pointer, sup := u.sup } := by
  unfold inboundEnded at h
  rw [hi] at h
  obtain ⟨hlink, hlinks, hin, hins, hout, hf, hu⟩ := h
  have hsup := congrArg State.sup hu
  dsimp only at hsup
  rw [← hsup] at hu
  exact ⟨hlink.trans (linkFormed_lane f ..), hlinks, hin, hins, hout, hf, hu⟩

theorem inboundEnded.lost (h : inboundEnded k none cause s u) :
    LaneLost (activeOffer s k).isSome k s u ∧ u.link k = { s.link k with
      inbound := .none, viewer := if (activeOffer s k).isSome then .none else (s.link k).viewer } := by
  cases hin : (s.link k).inbound with
  | none =>
    have ha : (activeOffer s k).isSome = false := by simp [activeOffer, hin]
    have hu : u = s := by
      unfold inboundEnded at h
      rw [hin] at h
      exact h
    rw [ha, ← hin, hu]
    exact ⟨.idle rfl fun _ _ => rfl, rfl⟩
  | offeredIn o d =>
    have ha : (activeOffer s k).isSome = false := by simp [activeOffer, hin]
    obtain ⟨hlink, hlinks, hu⟩ := h.offered hin
    have hsup := congrArg State.sup hu
    dsimp only at hsup
    rw [← hsup] at hu
    rw [ha]
    exact ⟨.idle hu hlinks, hlink⟩
  | active o =>
    have ha : (activeOffer s k).isSome = true := by simp [activeOffer, hin]
    rw [ha]
    obtain ⟨hlink, hlinks, hi, his, ho, hf, hu⟩ := h.active hin
    exact ⟨.of_focus hi his ho hf hlinks hu, hlink⟩

end Sys2Proof.Machine
end

section
/-! SUPPORT. What a link that goes DOWN leaves behind (R138). -/

namespace Sys2Proof.Machine

open Sys2Proof

variable {s s' t x y z u u' : State} {n m : Comp} {k j : LinkId} {c : LinkCause} {cause : ShareCause}

/-- Held keys masked after what only masks them. -/
theorem JoinersMasked.then_masked (h : JoinersMasked s x) (g : heldMasked x u) : heldMasked s u := by
  rcases h.masks with hm | hm
  · exact g.after hm h.held
  · exact hm.then h.held (.inr g)

/-- The end of an outbound session without a frame, where it may have been NONE. -/
structure OutboundLeft (k : LinkId) (s u : State) : Prop extends JoinersMasked s u where
  link : u.link k = { s.link k with outbound := .none }
  links : ∀ j, j ≠ k → QueuedOnly (s.link j) (u.link j)
  outs : ∀ o, u.out o = if o = laneOut k ∧ (s.link k).outbound ≠ .none then takeTargetRecord none (s.out o) else s.out o
  rest : u = { s with
    links := u.links, outputs := u.outputs, controls := u.controls, ports := u.ports, router := u.router
    pointer := { s.pointer with capture := u.pointer.capture }, sup := u.sup }

theorem outboundEnded.left (h : outboundEnded k none cause s u) : OutboundLeft k s u := by
  by_cases ho : (s.link k).outbound = .none
  · have hu : u = s := by
      unfold outboundEnded at h
      rw [ho] at h
      exact h
    rw [hu]
    exact ⟨.of_same rfl rfl fun _ h => h, by rw [← ho], fun _ _ => .refl _, fun o => (if_neg fun h => h.2 ho).symm, rfl⟩
  · have hg := h.gone ho
    refine ⟨hg.toJoinersMasked, hg.link, hg.links, fun o => ?_, hg.rest⟩
    by_cases hl : o = laneOut k
    · rw [hl, if_pos ⟨rfl, ho⟩, hg.out]
    · rw [if_neg fun h => hl h.1, hg.outs o hl]

/-- An output follows a lost signal and takes the target DARK in either order (R105, R111). -/
theorem inputFollowed_takeTarget {i : Input} {o : OutputId} (hi : x.input i = s.input i)
    (ho : x.out o = takeTargetRecord none (s.out o)) :
    inputFollowed x i .absent o = takeTargetRecord none (inputFollowed s i .absent o) := by
  rw [inputFollowed_eq, inputFollowed_eq, hi, ho]
  unfold takeTargetRecord
  generalize s.out o = p
  by_cases hf : p.assignment = some i ∧ s.input i ≠ .absent
  · obtain ⟨ha, hn⟩ := hf
    cases hs : p.state <;> simp [ha, hn, hs, stableFrom]
  · have hf' (q : Output) (hq : q.assignment = p.assignment) : ¬ (q.assignment = some i ∧ s.input i ≠ .absent) := by
      rwa [hq]
    rw [if_neg hf]
    refine (if_neg (hf' _ ?_)).trans rfl
    cases p.state <;> dsimp only <;> split <;> rfl

theorem inputFollowed_lost {i : Input} {o : OutputId} (hi : x.input i = s.input i) (ho : x.out o = s.out o) :
    inputFollowed x i .absent o = inputFollowed s i .absent o := by
  rw [inputFollowed_eq, inputFollowed_eq, hi, ho]
  rfl

/-- A lost lane is told by the lane's input state and the outputs alone. -/
theorem laneGone_congr {o : OutputId} (hi : x.input (.lane k) = s.input (.lane k)) (ho : x.out o = s.out o) :
    laneGone x k o = laneGone s k o := by
  rw [laneGone_eq, laneGone_eq, inputFollowed_lost hi ho]

theorem laneOut_val (k : LinkId) : ¬ (laneOut k).val < 4 := Nat.not_lt.mpr (Nat.le_add_right 4 k.val)

/-- The outbound lane's output is none of the monitors, and loses the inbound lane and takes the target DARK in either
order. -/
theorem laneGone_takeTarget (hi : x.input (.lane k) = s.input (.lane k))
    (ho : x.out (laneOut k) = takeTargetRecord none (s.out (laneOut k))) :
    laneGone x k (laneOut k) = takeTargetRecord none (laneGone s k (laneOut k)) := by
  rw [laneGone_eq, laneGone_eq, if_neg fun h => laneOut_val k h.1, if_neg fun h => laneOut_val k h.1,
    inputFollowed_takeTarget hi ho]

theorem linesFollow.alike (h : linesFollow x y) (hf : x.focus = s.focus) (hl : ∀ l, x.line l = s.line l)
    (hf' : u.focus = y.focus) (hl' : ∀ l, u.line l = y.line l) : linesFollow s u := by
  unfold linesFollow tallied at h ⊢
  simpa only [hf, hl, hf', hl'] using h

/-- What the events of a link may change. -/
def LinkWork (s u : State) : Prop :=
  u = { s with
    links := u.links, inputs := u.inputs, outputs := u.outputs, focus := u.focus, pointer := u.pointer
    router := u.router, ports := u.ports, controls := u.controls, keyboard := u.keyboard, lines := u.lines
    sup := u.sup }

theorem LinkWork.trans (h : LinkWork s x) (g : LinkWork x u) : LinkWork s u := by
  unfold LinkWork at *
  rw [g, h]

theorem LinkWork.now (h : LinkWork s u) : u.now = s.now := by
  unfold LinkWork at h
  rw [h]

theorem ControlMoved.linkWork (h : ControlMoved s u) : LinkWork s u := by
  unfold LinkWork
  rw [h.rest]

theorem LaneLost.linkWork {gone : Bool} (h : LaneLost gone k s u) : LinkWork s u := by
  unfold LinkWork
  rw [h.rest]

theorem OutboundLeft.linkWork (h : OutboundLeft k s u) : LinkWork s u := by
  unfold LinkWork
  rw [h.rest]

/-- DLk goes DOWN: the two sessions end, and then control (R138). -/
theorem linkLost.down (h : linkLost k c s u) :
    wentDown s u k ∧ (u.link k).enabled = (s.link k).enabled ∧ LinkWork s u := by
  obtain ⟨x, y, z, hx, hy, hz, hu⟩ := h
  let b := s.modLink k fun l => { l with up := false, peerZones := 0 }
  have hbl : b.link k = { s.link k with up := false, peerZones := 0 } := State.modLink_link_same ..
  have hbj : ∀ j, j ≠ k → b.link j = s.link j := fun j hj => State.modLink_link_ne _ _ _ _ hj
  have ho := hx.left
  obtain ⟨hlane, hyk⟩ := hy.lost
  obtain ⟨hback, hclaims, hholds⟩ := hz.handedBack
  have hxk := ho.link
  change x.link k = { b.link k with outbound := .none } at hxk
  have hxf : x.focus = s.focus := by rw [ho.rest]; rfl
  have hxkb : x.keyboard = s.keyboard := by rw [ho.rest]; rfl
  have hxin : ∀ i, x.input i = s.input i := fun i => by rw [ho.rest]; rfl
  have hxl : ∀ l, x.line l = s.line l := fun l => by rw [ho.rest]; rfl
  have ha : activeOffer x k = activeOffer s k := by
    unfold activeOffer
    rw [hxk, hbl]
  have hzf : z.focus = y.focus := hback.focus
  have hzin : ∀ i, z.input i = y.input i := fun i => by rw [hback.rest]; rfl
  have hzl : ∀ l, z.line l = y.line l := fun l => by rw [hback.rest]; rfl
  have hzo : ∀ o, z.out o = y.out o := fun o => by rw [hback.rest]; rfl
  rw [ha] at hlane hyk
  have hzk : z.link k = { s.link k with
      up := false, peerZones := 0, outbound := .none, inbound := .none
      viewer := if (activeOffer s k).isSome then .none else (s.link k).viewer } := by
    rw [hback.link, hyk, hxk, hbl]
  have hptr : z.pointer = { s.pointer with capture := z.pointer.capture } := by
    have h1 : z.pointer = { y.pointer with capture := z.pointer.capture } := by rw [hback.rest]
    have h2 : x.pointer = { s.pointer with capture := x.pointer.capture } := by rw [ho.rest]; rfl
    rw [h1, hlane.pointer, h2]
  have hframe : LinkWork s z := (ho.linkWork.trans hlane.linkWork).trans hback.linkWork
  have hw : wentDown s z k := by
    refine ⟨?_, fun j hj => ?_, fun n => ⟨hholds n, hclaims n⟩, ?_, fun i hi => ?_, fun o => ?_, ?_, ?_, hptr, fun hf => ?_, ?_⟩
    · rw [hzk]
    · change QueuedOnly (s.link j) (z.link j)
      rw [← hbj j hj]
      refine (ho.links j hj).trans ?_
      rw [← hlane.links j hj]
      exact hback.links j
    · rw [hzin, hlane.input, hxin]
    · rw [hzin, hlane.inputs i hi, hxin]
    · have hxo : x.out o = if o = laneOut k ∧ (s.link k).outbound ≠ .none then takeTargetRecord none (s.out o)
          else s.out o := by
        rw [ho.outs]
        change (if o = laneOut k ∧ (b.link k).outbound ≠ .none then _ else _) = _
        rw [hbl]
        rfl
      rw [hzo, hlane.outs]
      dsimp only
      by_cases hout : o = laneOut k ∧ (s.link k).outbound ≠ .none
      · rw [if_pos hout] at hxo ⊢
        obtain ⟨rfl, -⟩ := hout
        rw [laneGone_takeTarget (hxin _) hxo, hxo, apply_ite (takeTargetRecord none)]
      · rw [if_neg hout] at hxo ⊢
        rw [laneGone_congr (hxin _) hxo, hxo]
    · rw [hzf, hlane.focus, hxf]
    · exact hlane.lines.alike hxf hxl hzf hzl
    · rw [← hxf] at hf
      have hmask : heldMasked s y := ho.toJoinersMasked.then_masked (hlane.masked hf)
      refine ⟨?_, ?_⟩
      · rw [hback.capture, hlane.pointer, hf, Bool.not_true, Bool.and_false, Bool.false_and]
      · exact hmask.then (by rw [hlane.held, ho.held]; rfl) hback.masks
    · rw [hback.rest, hlane.keyboard, hxf, hxkb]
  rw [hu]
  refine ⟨hw, ?_, ?_⟩
  · change (z.link k).enabled = _
    rw [hzk]
  · exact hframe.trans rfl

end Sys2Proof.Machine
end

section
/-! SUPPORT. A link that goes DOWN by silence or by request, the ALIVE timer, and the offers that time out (R129, R130, R137 to R140). -/

namespace Sys2Proof.Machine

open Sys2Proof

variable {s s' t u : State} {k j : LinkId} {b : Byte}

/-! ### Going DOWN from a state that differs in the time, the flag and the supervisor link -/

theorem wentDown.alike (h : wentDown s' u k) (hs : s' = { s with now := s'.now, links := s'.links, sup := s'.sup })
    (hk : s'.link k = { s.link k with enabled := (s'.link k).enabled }) (hj : ∀ j, j ≠ k → s'.link j = s.link j) :
    wentDown s u k := by
  have hv : (s'.link k).viewer = (s.link k).viewer := by rw [hk]
  have ho : (s'.link k).outbound = (s.link k).outbound := by rw [hk]
  have ha : activeOffer s' k = activeOffer s k := by
    unfold activeOffer
    rw [hk]
  have hin : ∀ i, s'.input i = s.input i := fun i => by rw [hs]; rfl
  have hout : ∀ o, s'.out o = s.out o := fun o => by rw [hs]; rfl
  have hline : ∀ l, s'.line l = s.line l := fun l => by rw [hs]; rfl
  have hlane : ∀ o, laneGone s' k o = laneGone s k o := fun o => laneGone_congr (hin _) (hout o)
  have hf : s'.focus = s.focus := by rw [hs]
  have hp : s'.pointer = s.pointer := by rw [hs]
  have hkb : s'.keyboard = s.keyboard := by rw [hs]
  have hr : s'.router = s.router := by rw [hs]
  obtain ⟨hlink, hlinks, hctl, hi, his, ho', hfocus, hlines, hptr, hmask, hkeys⟩ := h
  simp only [ha, ho, hin, hout, hlane, hf, hp, hkb] at hlink hi his ho' hfocus hptr hmask hkeys
  refine ⟨?_, fun j h => ?_, hctl, hi, his, ho', hfocus, hlines.alike hf hline rfl fun _ => rfl, hptr,
    fun hfoc => ?_, hkeys⟩
  · rw [hk] at hlink
    exact hlink
  · have := hlinks j h
    rw [hj j h] at this
    exact this
  · obtain ⟨h1, h2⟩ := hmask hfoc
    exact ⟨h1, h2.after (congrArg Router.mask hr) (congrArg KeyboardPort.held hkb)⟩

/-! ### Requests and timers -/

theorem linkOf_eq_some (h : b.toNat = k.val + 1) : linkOf b = some k := by
  have hk := k.isLt
  rw [show b = BitVec.ofNat 8 (k.val + 1) from BitVec.eq_of_toNat_eq (by rw [h, toNat_byte (by omega)])]
  exact linkOf_byte k

/-- The link that sends an ALIVE, and what stays (R140). -/
theorem sendAlive_eq (k : LinkId) (s : State) :
    sendAlive k s = s.modLink k fun l => { enqueueFrame (.alive (aliveOf s k)) l with nextAlive := s.now + 100 } :=
  modLink_modLink ..

end Sys2Proof.Machine
end

section
/-! Silence and the offers that time out (O49). -/

open Sys2Proof Sys2Proof.Machine

/-- Settles O49: silence takes the link DOWN from the time it has come to, and an offer that has stood too long ends as any offer
does. -/
theorem silenceAndOfferTimeouts : Obligations.SilenceAndOfferTimeouts := by
  intro k s
  refine ⟨fun v he hu hv => ?_, fun h => ?_, fun h v d ho => ?_, fun h => ?_, fun o d hi => ?_, fun h => ?_⟩
  · let s' := s.setNow (max s.now (v + 500))
    have ht : silenceTime s k = some (v + 500) := by simp [silenceTime, he, hu, hv, Config.linkSilence]
    have hexec : exec (.linkSilence k) s = done (linkDown k .silence s') := by
      change done _ = _
      rw [ht]
      rfl
    have hlost := linkDown_lost k .silence s'
    rw [hexec]
    generalize linkDown k .silence s' = u at hlost
    obtain ⟨hdown, hen, hwork⟩ := hlost.down
    have hw : wentDown s u k := hdown.alike rfl rfl fun _ _ => rfl
    have hnow : u.now = s'.now := hwork.now
    refine ⟨handedOn u, rfl, hnow, hen.trans he, hw, ⟨u, hlost, rfl⟩, ?_⟩
    have hu : u = { s with
        now := u.now, links := u.links, inputs := u.inputs, outputs := u.outputs, focus := u.focus, pointer := u.pointer
        router := u.router, ports := u.ports, controls := u.controls, keyboard := u.keyboard, lines := u.lines
        sup := u.sup } := by
      rw [hnow]
      exact hwork
    exact congrArg handedOn hu
  · have ht : silenceTime s k = none := by
      unfold silenceTime
      rcases h with h | h | h <;> simp [h]
    change done _ = done s
    rw [ht]
  · have hexec : exec (.outboundOfferTimeout k) s =
        done (outEnd k (some (.endSession .owner .timeout)) (some .timeout) (s.setNow (max s.now (d + 15000)))) := by
      change done _ = _
      rw [ho]
      rfl
    have hg := (outEnd_ended k (some (.endSession .owner .timeout)) .timeout (s.setNow (max s.now (d + 15000)))).gone
      (by rw [State.setNow_link, ho]; exact Outbound.noConfusion)
    rw [hexec]
    generalize outEnd k _ _ _ = u at hg
    obtain ⟨hlinks, hu⟩ := hg.offered h v d ho
    exact ⟨handedOn u, rfl, hg.link, hlinks, hg.out, hg.outs, congrArg handedOn hu⟩
  · change done _ = done s
    cases ho : (s.link k).outbound with
    | offered a b d => exact absurd ho (h a b d)
    | none => rfl
    | active a b => rfl
  · let s' := s.setNow (max s.now (d + 15000))
    have hexec : exec (.inboundOfferTimeout k) s = done (inEnd k (some (.decline .timeout)) (some .timeout) s') := by
      change done _ = _
      rw [hi]
      rfl
    obtain ⟨hlink, hlinks, hu⟩ := (inEnd_ended k (some (.decline .timeout)) .timeout s').offered hi
    exact ⟨_, hexec, hlink, hlinks, congrArg handedOn hu⟩
  · change done _ = done s
    cases hi : (s.link k).inbound with
    | offeredIn o d => exact absurd hi (h o d)
    | none => rfl
    | active o => rfl

end

section
/-! SUPPORT. SET_LINK on each state of a link (R139). -/

namespace Sys2Proof.Machine

open Sys2Proof

variable {s : State} {k : LinkId} {b0 b1 : Byte}

theorem judgeSetLink_none (h : b0 = 0 ∨ 2 < b0.toNat ∨ 1 < b1.toNat) : judgeSetLink [b0, b1] s = refuse .badArg s := by
  simp only [judgeSetLink]
  split
  next hk hf =>
    rcases h with h | h | h
    · rw [linkOf_eq_none (.inl h)] at hk; cases hk
    · rw [linkOf_eq_none (.inr h)] at hk; cases hk
    · rw [flagOf_eq_none.mpr h] at hf; cases hf
  · rfl

theorem setLink_held {on : Bool} (h : (s.link k).enabled = on) : setLink k on s = s := if_pos h

theorem setLink_on (h : (s.link k).enabled = false) :
    setLink k true s = s.modLink k fun l =>
      { enqueueFrame (.alive (aliveOf s k)) { l with enabled := true } with nextAlive := s.now + 100 } := by
  have ha : aliveOf (s.modLink k fun l => { l with enabled := true }) k = aliveOf s k := by
    unfold aliveOf
    rw [State.modLink_link_same]
    rfl
  have hs : setLink k true s = sendAlive k (s.modLink k fun l => { l with enabled := true }) := by
    unfold setLink
    rw [h]
    rfl
  rw [hs, sendAlive_eq, ha, modLink_modLink]
  rfl

theorem setLink_off (h : (s.link k).enabled = true) (hu : (s.link k).up = false) :
    setLink k false s = s.modLink k fun l => { l with enabled := false } := by
  unfold setLink
  rw [h, hu]
  rfl

theorem setLink_down (h : (s.link k).enabled = true) (hu : (s.link k).up = true) :
    setLink k false s = linkDown k .disabled (s.modLink k fun l => { l with enabled := false }) := by
  unfold setLink
  rw [h, hu]
  rfl

end Sys2Proof.Machine
end

section
/-! SET_LINK, the ALIVE timer and the send queue (O46). -/

open Sys2Proof Sys2Proof.Machine

/-- Settles O46: SET_LINK by the states of the link, the send queue by the cases of `enqueueFrame`, and the timers. -/
theorem linkEnabledAndSending : Obligations.LinkEnabledAndSending := by
  refine ⟨fun tag b0 b1 s => ?_, fun m l => ⟨fun h => ?_, fun h => ⟨fun hq => ?_, fun hq => ?_⟩⟩, fun k s =>
    ⟨fun he => ?_, fun he => ?_, fun hs => ?_, fun hs => ?_⟩⟩
  · intro r ht
    have answers (hj : judgeSetLink r.body (begun r s) = refuse .badArg (begun r s)) :
        exec (.setLink tag r.body) s = .next (replied r .badArg [] (begun r s)) :=
      exec_request r judgeSetLink s ht _ _ _ hj
    refine ⟨fun hbad => answers (judgeSetLink_none hbad), fun k hk => ?_⟩
    have hjudge (on : Bool) (h : flagOf b1 = some on) : judgeSetLink r.body (begun r s) = okay (setLink k on (begun r s)) := by
      change judgeSetLink [b0, b1] _ = _
      simp only [judgeSetLink, linkOf_eq_some hk, h]
    refine ⟨fun h1 he => ?_, fun h1 he => ?_, fun h0 he hu => ?_, fun h0 he hu => ?_⟩
    · have hj := (hjudge _ (flagOf_eq_some (by omega))).trans (congrArg okay (setLink_held he))
      exact exec_request r judgeSetLink s ht _ _ _ hj
    · have hj := (hjudge true (by rw [h1]; rfl)).trans (congrArg okay (setLink_on he))
      refine ⟨_, exec_request r judgeSetLink s ht _ _ _ hj, ?_, fun j hj => State.modLink_link_ne _ _ _ _ hj, rfl⟩
      exact State.modLink_link_same ..
    · have hj := (hjudge false (by rw [h0]; rfl)).trans (congrArg okay (setLink_off he hu))
      refine ⟨_, exec_request r judgeSetLink s ht _ _ _ hj, ?_, fun j hj => State.modLink_link_ne _ _ _ _ hj, rfl⟩
      exact State.modLink_link_same ..
    · let s' := (begun r s).modLink k fun l => { l with enabled := false }
      have hj := (hjudge false (by rw [h0]; rfl)).trans (congrArg okay (setLink_down he hu))
      have hlost := linkDown_lost k .disabled s'
      generalize linkDown k .disabled s' = u at *
      obtain ⟨hdown, hen, hwork⟩ := hlost.down
      have hk' : s'.link k = { s.link k with enabled := false } := State.modLink_link_same ..
      have hw : wentDown s u k :=
        hdown.alike rfl (by rw [hk']) fun j hj => State.modLink_link_ne _ _ _ _ hj
      exact ⟨u, exec_request r judgeSetLink s ht _ _ _ hj, hen.trans (by rw [hk']), hw, hlost,
        hwork⟩
  · unfold enqueueFrame
    rw [h]
  · obtain ⟨f, hf⟩ := Option.ne_none_iff_exists'.mp h
    simp only [enqueueFrame, hf]
    exact if_pos hq
  · obtain ⟨f, hf⟩ := Option.ne_none_iff_exists'.mp h
    simp only [enqueueFrame, hf]
    exact if_neg (Nat.not_lt.mpr hq)
  · change done _ = done s
    rw [if_neg (by rw [he]; exact Bool.false_ne_true)]
  · have hexec : exec (.aliveTimer k) s = done (sendAlive k (reach (s.link k).nextAlive s)) := by
      change done _ = _
      rw [if_pos he]
    rw [sendAlive_eq] at hexec
    exact ⟨_, hexec, rfl, State.modLink_link_same .., fun j hj => State.modLink_link_ne _ _ _ _ hj, rfl⟩
  · change done _ = done s
    rw [modLink_self s k linkSent (by unfold linkSent; rw [hs])]
  · obtain ⟨f, hf⟩ := Option.ne_none_iff_exists'.mp hs
    refine ⟨_, rfl, ?_, fun j hj => State.modLink_link_ne _ _ _ _ hj, rfl⟩
    refine (State.modLink_link_same ..).trans ?_
    simp only [linkSent, hf]
    rfl

end

section
/-! SUPPORT. The share requests (R142 to R144): what their bodies name, and what each is answered. -/

namespace Sys2Proof.Machine

open Sys2Proof

variable {s u : State} {k : LinkId} {h : Head} {allow : Bool} {o : Offer} {d : Nat} {b0 b1 b2 b3 : Byte}

/-! ### The bodies -/

theorem judgeOfferShare_bytes : judgeOfferShare (linkByte k ++ headBytes h ++ flag allow) s = offerShare k h allow s := by
  obtain ⟨n, l⟩ := h
  have ha : letterOf 0 = some .a := rfl
  have hb : letterOf 1 = some .b := rfl
  cases l <;>
    simp only [linkByte, headBytes, compByte, letterByte, byte1, flag, List.cons_append, List.nil_append, judgeOfferShare,
      linkOf_byte, compOf_byte, ha, hb, flagOf_byte]

theorem judgeOfferShare_none
    (hb : b0 = 0 ∨ 2 < b0.toNat ∨ b1 = 0 ∨ 8 < b1.toNat ∨ 1 < b2.toNat ∨ 1 < b3.toNat) :
    judgeOfferShare [b0, b1, b2, b3] s = refuse .badArg s := by
  simp only [judgeOfferShare]
  split
  next hk hn hl hf =>
    rcases hb with h | h | h | h | h | h
    · rw [linkOf_eq_none (.inl h)] at hk; cases hk
    · rw [linkOf_eq_none (.inr h)] at hk; cases hk
    · rw [compOf_eq_none.mpr (.inl h)] at hn; cases hn
    · rw [compOf_eq_none.mpr (.inr h)] at hn; cases hn
    · rw [letterOf_eq_none h] at hl; cases hl
    · rw [flagOf_eq_none.mpr h] at hf; cases hf
  · rfl

theorem judgeAcceptShare_none (h : b0 = 0 ∨ 2 < b0.toNat) : judgeAcceptShare [b0] s = refuse .badArg s := by
  simp only [judgeAcceptShare, linkOf_eq_none h]

theorem judgeDeclineShare_none (h : b0 = 0 ∨ 2 < b0.toNat) : judgeDeclineShare [b0] s = refuse .badArg s := by
  simp only [judgeDeclineShare, linkOf_eq_none h]

theorem judgeEndShare_none (h : b0 = 0 ∨ 2 < b0.toNat ∨ 1 < b1.toNat) : judgeEndShare [b0, b1] s = refuse .badArg s := by
  simp only [judgeEndShare]
  split
  next hk hf =>
    rcases h with h | h | h
    · rw [linkOf_eq_none (.inl h)] at hk; cases hk
    · rw [linkOf_eq_none (.inr h)] at hk; cases hk
    · rw [flagOf_eq_none.mpr h] at hf; cases hf
  · rfl

theorem judgeAcceptShare_byte : judgeAcceptShare (linkByte k) s = acceptShare k s := by
  simp only [linkByte, byte1, judgeAcceptShare, linkOf_byte]

theorem judgeDeclineShare_byte : judgeDeclineShare (linkByte k) s = declineShare k s := by
  simp only [linkByte, byte1, judgeDeclineShare, linkOf_byte]

theorem judgeEndShare_outbound : judgeEndShare (linkByte k ++ [0]) s = endShare k false s := by
  simp only [linkByte, byte1, List.cons_append, List.nil_append, judgeEndShare, linkOf_byte]
  rfl

theorem judgeEndShare_inbound : judgeEndShare (linkByte k ++ [1]) s = endShare k true s := by
  simp only [linkByte, byte1, List.cons_append, List.nil_append, judgeEndShare, linkOf_byte]
  rfl

/-! ### An offer -/

theorem offerShare_down (hu : (s.link k).up = false) : offerShare k h allow s = refuse .linkDown s := by
  simp [offerShare, hu]

section
variable (hu : (s.link k).up = true)
include hu

theorem offerShare_shared (ho : (s.link k).outbound ≠ .none) : offerShare k h allow s = refuse .wrongState s := by
  simp [offerShare, hu, ho]

variable (ho : (s.link k).outbound = .none)
include ho

theorem offerShare_disabled (he : (s.headMap h).enabled = false) : offerShare k h allow s = refuse .badArg s := by
  simp [offerShare, hu, ho, he]

variable (he : (s.headMap h).enabled = true)
include he

theorem offerShare_closed (hp : (s.comp h.comp).policy = .noShare) : offerShare k h allow s = refuse .wrongState s := by
  simp [offerShare, hu, ho, he, hp]

variable (hp : (s.comp h.comp).policy ≠ .noShare)
include hp

theorem offerShare_outside (hz : (s.link k).peerZones.getLsbD (s.comp h.comp).zone.val = false) :
    offerShare k h allow s = refuse .zone s := by
  simp only [offerShare, hu, ho, he, hp, hz, Bool.not_true, Bool.not_false, Bool.false_eq_true, if_false, if_true, ne_eq,
    not_true_eq_false]

/-- An offer that nothing refuses (R142). -/
theorem offerShare_made (hz : (s.link k).peerZones.getLsbD (s.comp h.comp).zone.val = true) :
    let v := (s.comp h.comp).policy == .viewOnly || !allow
    offerShare k h allow s = accepted ((s.modLink k fun l =>
      { enqueueFrame (.offer ⟨h, sentMode s h, effMode s h.comp, (s.comp h.comp).zone⟩) l with
        outbound := .offered h v s.now }).modSup
          (queueNotice .share (shareOutNotice k (.offered h v s.now) h v .offered))) := by
  intro v
  have hl : (sendFrame k (.offer ⟨h, sentMode s h, effMode s h.comp, (s.comp h.comp).zone⟩)
      (setOutbound k (.offered h v s.now) s)) = s.modLink k fun l =>
      { enqueueFrame (.offer ⟨h, sentMode s h, effMode s h.comp, (s.comp h.comp).zone⟩) l with
        outbound := .offered h v s.now } := by
    refine (modLink_modLink ..).trans (modLink_congr ?_)
    exact enqueueFrame_outbound ..
  simp only [offerShare, hu, ho, he, hp, hz, Bool.not_true, Bool.false_eq_true, if_false, ne_eq, not_true_eq_false]
  rw [← hl]
  rfl

end

/-! ### An answer to an offer -/

theorem acceptShare_down (hu : (s.link k).up = false) : acceptShare k s = refuse .linkDown s := by
  simp [acceptShare, hu]

theorem declineShare_down (hu : (s.link k).up = false) : declineShare k s = refuse .linkDown s := by
  simp [declineShare, hu]

section
variable (hu : (s.link k).up = true)
include hu

theorem acceptShare_unoffered (hi : ∀ o d, (s.link k).inbound ≠ .offeredIn o d) : acceptShare k s = refuse .wrongState s := by
  unfold acceptShare
  rw [hu]
  cases h : (s.link k).inbound with
  | offeredIn o d => exact absurd h (hi o d)
  | none => rfl
  | active o => rfl

theorem declineShare_unoffered (hi : ∀ o d, (s.link k).inbound ≠ .offeredIn o d) : declineShare k s = refuse .wrongState s := by
  unfold declineShare
  rw [hu]
  cases h : (s.link k).inbound with
  | offeredIn o d => exact absurd h (hi o d)
  | none => rfl
  | active o => rfl

variable (hi : (s.link k).inbound = .offeredIn o d)
include hi

theorem acceptShare_offered : acceptShare k s = okay (inActivate k o s) := by
  unfold acceptShare
  rw [hu, hi]
  rfl

theorem declineShare_offered :
    declineShare k s = okay (inEnd k (some (.decline .user)) (some (.declined .user)) s) := by
  unfold declineShare
  rw [hu, hi]
  rfl

end

/-- What the acceptance of an offer leaves (R133). -/
theorem inActivate_effect (k : LinkId) (o : Offer) (s : State) :
    let u := inActivate k o s
    u.link k = { enqueueFrame .accept (s.link k) with inbound := .active o } ∧ (∀ j, j ≠ k → u.link j = s.link j) ∧
    u.input (.lane k) = laneState o.mode ∧ (∀ i, i ≠ .lane k → u.input i = s.input i) ∧
    (∀ p, u.out p = inputFollowed s (.lane k) (laneState o.mode) p) ∧
    u = { s with
      links := u.links, inputs := u.inputs, outputs := u.outputs
      sup := queueNotice .share (shareInNotice k (.active o) o .accepted)
        (toldInput s (.lane k) (laneState o.mode) none s.sup) } := by
  let x := sendFrame k .accept (setInbound k (.active o) s)
  have hx : x = s.modLink k fun l => { enqueueFrame .accept l with inbound := .active o } :=
    (modLink_modLink ..).trans (modLink_congr (linkFormed_inbound (some .accept) _ _))
  obtain ⟨hin, hins, hout, hrest⟩ := changeLane_effect k (laneState o.mode) x
  intro u
  have hu : u = (changeInput (.lane k) (laneState o.mode) x).modSup
    (queueNotice .share (shareInNotice k (.active o) o .accepted)) := rfl
  generalize changeInput (.lane k) (laneState o.mode) x = y at *
  clear_value u
  subst hu
  rw [hx] at hrest hins hout
  have hl : ∀ j, y.link j = (s.modLink k fun l => { enqueueFrame .accept l with inbound := .active o }).link j := fun j => by
    rw [hrest]
    rfl
  refine ⟨(hl k).trans (State.modLink_link_same ..), fun j hj => (hl j).trans (State.modLink_link_ne _ _ _ _ hj), hin, hins,
    hout, ?_⟩
  have hlinks : y.links = (s.modLink k fun l => { enqueueFrame .accept l with inbound := .active o }).links := by rw [hrest]
  change y.modSup _ = { s with links := y.links, inputs := y.inputs, outputs := y.outputs, sup := _ }
  rw [hlinks]
  exact congrArg (fun z : State => z.modSup (queueNotice .share (shareInNotice k (.active o) o .accepted))) hrest

/-! ### The end of a session by request -/

theorem endShare_unshared (ho : (s.link k).outbound = .none) : endShare k false s = refuse .wrongState s := by
  simp [endShare, ho]

theorem endShare_shared (ho : (s.link k).outbound ≠ .none) :
    endShare k false s = okay (outEnd k (some (.endSession .owner .user)) (some .ended) s) := by
  cases h : (s.link k).outbound with
  | none => exact absurd h ho
  | offered a b c => simp [endShare, h]
  | active a b => simp [endShare, h]

theorem endShare_inactive (hi : ∀ o, (s.link k).inbound ≠ .active o) : endShare k true s = refuse .wrongState s := by
  cases h : (s.link k).inbound with
  | active o => exact absurd h (hi o)
  | none => simp [endShare, h]
  | offeredIn o d => simp [endShare, h]

theorem endShare_active (hi : (s.link k).inbound = .active o) :
    endShare k true s = okay (inEnd k (some (.endSession .viewer .user)) (some .ended) s) := by
  simp [endShare, hi]

end Sys2Proof.Machine
end

section
/-! The share requests (O47). -/

open Sys2Proof Sys2Proof.Machine

/-- Settles O47: each request by its refusals in their order, and by the change of the session that it makes. -/
theorem sharesByRequest : Obligations.SharesByRequest := by
  refine ⟨fun tag k h allow s => ?_, fun tag b0 b1 b2 b3 s => ⟨fun ht hb => ?_, fun hb => ⟨fun ht => ?_, fun ht => ?_⟩,
    fun ht hb => ?_⟩, fun tag k s => ⟨?_, ?_, ?_, ?_⟩⟩
  · intro r c refused ht
    have answers {x : ResultCode} (hj : offerShare k h allow (begun r s) = refuse x (begun r s)) : refused x :=
      exec_request r judgeOfferShare s ht _ _ _ (judgeOfferShare_bytes.trans hj)
    refine ⟨fun hu => answers (offerShare_down hu), fun hu => ⟨fun ho => answers (offerShare_shared hu ho), fun ho =>
      ⟨fun he => answers (offerShare_disabled hu ho he), fun he => ⟨fun hp => answers (offerShare_closed hu ho he hp), fun hp =>
        ⟨fun hz => answers (offerShare_outside hu ho he hp hz), fun hz => ?_⟩⟩⟩⟩⟩
    have hj := judgeOfferShare_bytes.trans (offerShare_made (s := begun r s) (allow := allow) hu ho he hp hz)
    exact ⟨_, exec_request r judgeOfferShare s ht _ _ _ hj, State.modLink_link_same ..,
      fun j hj => State.modLink_link_ne _ _ _ _ hj, rfl⟩
  · exact exec_request _ judgeOfferShare s ht _ _ _ (judgeOfferShare_none hb)
  · exact exec_request _ judgeAcceptShare s ht _ _ _ (judgeAcceptShare_none hb)
  · exact exec_request _ judgeDeclineShare s ht _ _ _ (judgeDeclineShare_none hb)
  · exact exec_request _ judgeEndShare s ht _ _ _ (judgeEndShare_none hb)
  · intro r ht
    refine ⟨fun hu => exec_request r judgeAcceptShare s ht _ _ _ (judgeAcceptShare_byte.trans (acceptShare_down hu)),
      fun hu => ⟨fun hi => exec_request r judgeAcceptShare s ht _ _ _
        (judgeAcceptShare_byte.trans (acceptShare_unoffered hu hi)), fun o d hi => ?_⟩⟩
    have hj := judgeAcceptShare_byte.trans (acceptShare_offered (s := begun r s) hu hi)
    have hexec := exec_request r judgeAcceptShare s ht _ _ _ hj
    have heff := inActivate_effect k o (begun r s)
    generalize inActivate k o (begun r s) = u at hexec heff
    obtain ⟨hlink, hlinks, hin, hins, hout, hrest⟩ := heff
    refine ⟨u, hexec, hlink, hlinks, hin, hins, fun out => ?_, ?_⟩
    · rw [hin]
      exact hout out
    · rw [hin]
      exact hrest
  · intro r ht
    refine ⟨fun hu => exec_request r judgeDeclineShare s ht _ _ _ (judgeDeclineShare_byte.trans (declineShare_down hu)),
      fun hu => ⟨fun hi => exec_request r judgeDeclineShare s ht _ _ _
        (judgeDeclineShare_byte.trans (declineShare_unoffered hu hi)), fun o d hi => ?_⟩⟩
    have hj := judgeDeclineShare_byte.trans (declineShare_offered (s := begun r s) hu hi)
    have hexec := exec_request r judgeDeclineShare s ht _ _ _ hj
    have heff := (inEnd_ended k (some (.decline .user)) (.declined .user) (begun r s)).offered hi
    generalize inEnd k _ _ (begun r s) = u at hexec heff
    obtain ⟨hlink, hlinks, hrest⟩ := heff
    exact ⟨u, hexec, hlink, hlinks, hrest⟩
  · intro r ht
    refine ⟨fun ho => exec_request r judgeEndShare s ht _ _ _ (judgeEndShare_outbound.trans (endShare_unshared ho)), fun ho => ?_⟩
    have hj := judgeEndShare_outbound.trans (endShare_shared (s := begun r s) ho)
    have hexec := exec_request r judgeEndShare s ht _ _ _ hj
    have hend := outEnd_ended k (some (.endSession .owner .user)) .ended (begun r s)
    generalize outEnd k _ _ (begun r s) = u at hexec hend
    have hg := hend.gone ho
    have hcap := hg.capture
    refine ⟨u, hexec, hg.link, hg.links, hg.out, hg.outs, hend, fun h v d hd => (hg.offered h v d hd).2, fun ha n => ?_, ?_⟩
    · obtain ⟨hclaims, hholds⟩ := hg.active ha
      exact ⟨hholds n, hclaims n⟩
    · have hrest := hg.rest
      rw [hcap] at hrest
      exact hrest
  · intro r ht
    refine ⟨fun hi => exec_request r judgeEndShare s ht _ _ _ (judgeEndShare_inbound.trans (endShare_inactive hi)),
      fun o hi => ?_⟩
    have hj := judgeEndShare_inbound.trans (endShare_active (s := begun r s) hi)
    have hexec := exec_request r judgeEndShare s ht _ _ _ hj
    have hend := inEnd_ended k (some (.endSession .viewer .user)) .ended (begun r s)
    generalize inEnd k _ _ (begun r s) = u at hexec hend
    obtain ⟨hlink, hlinks, hin, hins, hout, hf, hrest⟩ := hend.active hi
    exact ⟨u, hexec, hlink, hlinks, hin, hins, hout, hf, hend, hrest⟩

end

section
/-! SUPPORT. The frames of the sessions (R130, R131, R136, R146): which are lost, and what each other one leaves. -/

namespace Sys2Proof.Machine

open Sys2Proof

variable {s u : State} {k j : LinkId} {m : LinkMsg} {o : Offer} {h : Head} {v : Bool} {d : Nat} {c : Instr}

/-! ### Frames that are lost -/

/-- The link after a valid frame on it while it is disabled: counted and discarded (R139). -/
def frameRefused (k : LinkId) (s : State) : Link :=
  { s.link k with
    receiver := [], counters := { (s.link k).counters with
      received := min ((s.link k).counters.received + 1) 4294967295
      discarded := min ((s.link k).counters.discarded + 1) 4294967295 } }

theorem wholeFrame_disabled (hm : LinkMsg.sendable m = true) (he : (s.link k).enabled = false) :
    wholeFrame k m s = s.modLink k fun _ => frameRefused k s := by
  have hl := State.modLink_link_same s k fun l => { l with receiver := [] }
  unfold wholeFrame
  simp only [hm, if_true]
  unfold frameIn
  rw [hl, he]
  change discardFrame k (received k _) = _
  unfold discardFrame received
  rw [modLink_modLink, modLink_modLink]
  exact modLink_congr rfl

theorem wholeFrame_down (hm : LinkMsg.sendable m = true) (ha : LinkMsg.isAlive m = false) (he : (s.link k).enabled = true)
    (hu : (s.link k).up = false) : wholeFrame k m s = s.modLink k fun _ => frameLost k s := by
  have hl := State.modLink_link_same s k fun l => { l with receiver := [] }
  unfold wholeFrame
  simp only [hm, if_true]
  unfold frameIn
  rw [hl, he, hu, ha, stamp_received_eq_heard]
  exact discardFrame_heard

/-- The command stands for a valid frame on DLk that is no ALIVE (R136, R198). -/
def CarriesFrame (k : LinkId) (c : Instr) : Prop :=
  ∃ m, LinkMsg.sendable m = true ∧ LinkMsg.isAlive m = false ∧ ∀ s, exec c s = done (wholeFrame k m s)

/-! ### OFFER -/

theorem takeOffer_busy (hi : (s.link k).inbound ≠ .none) :
    takeOffer k o (heard k s) = (s.modLink k fun _ => enqueueFrame (.decline .busy) (frameTaken k s)).modSup
      (queueNotice .share (shareInNotice k (s.link k).inbound o (.offerRefused .busy))) := by
  have hl : ((heard k s).link k).inbound = (s.link k).inbound := by rw [heard_link_same]; rfl
  rw [← sendFrame_heard]
  unfold takeOffer
  rw [hl]
  cases h : (s.link k).inbound with
  | none => exact absurd h hi
  | offeredIn o d => rfl
  | active o => rfl

theorem takeOffer_free (hi : (s.link k).inbound = .none) :
    takeOffer k o (heard k s) =
      if s.desk.zones.getLsbD o.zone.val then
        (s.modLink k fun _ => { frameTaken k s with inbound := .offeredIn o s.now }).modSup
          (queueNotice .share (shareInNotice k (.offeredIn o s.now) o .offerReceived))
      else
        (s.modLink k fun _ => enqueueFrame (.decline .zone) (frameTaken k s)).modSup
          (queueNotice .share (shareInNotice k .none o (.offerRefused .zone))) := by
  have hl : ((heard k s).link k).inbound = .none := by rw [heard_link_same]; exact hi
  rw [← sendFrame_heard, ← modLink_heard (fun l : Link => { l with inbound := .offeredIn o s.now })]
  unfold takeOffer
  rw [hl]
  rfl

/-! ### ACCEPT, DECLINE and END -/

theorem takeAccept_offered (ho : (s.link k).outbound = .offered h v d) :
    takeAccept k (heard k s) = outActivate k h v .accepted (heard k s) := by
  have hl : ((heard k s).link k).outbound = .offered h v d := by rw [heard_outbound]; exact ho
  simp only [takeAccept, hl]

theorem takeAccept_idle (ho : ∀ h v d, (s.link k).outbound ≠ .offered h v d) :
    takeAccept k (heard k s) = s.modLink k fun _ => frameLost k s := by
  rw [← discardFrame_heard]
  unfold takeAccept
  rw [heard_outbound]
  cases hout : (s.link k).outbound with
  | offered h v d => exact absurd hout (ho h v d)
  | none => rfl
  | active h v => rfl

theorem takeDecline_idle {r : DeclineReason} (ho : (s.link k).outbound = .none) :
    takeDecline k r (heard k s) = s.modLink k fun _ => frameLost k s := by
  rw [← discardFrame_heard]
  simp only [takeDecline, heard_outbound, ho]

theorem takeDecline_shared {r : DeclineReason} (ho : (s.link k).outbound ≠ .none) :
    takeDecline k r (heard k s) = outEnd k none (some (.declined r)) (heard k s) := by
  unfold takeDecline
  rw [heard_outbound]
  cases hout : (s.link k).outbound with
  | none => exact absurd hout ho
  | offered h v d => rfl
  | active h v => rfl

theorem takeEnd_viewer_idle {r : EndReason} (ho : (s.link k).outbound = .none) :
    takeEnd k .viewer r (heard k s) = s.modLink k fun _ => frameLost k s := by
  rw [← discardFrame_heard]
  simp only [takeEnd, heard_outbound, ho]

theorem takeEnd_viewer_shared {r : EndReason} (ho : (s.link k).outbound ≠ .none) :
    takeEnd k .viewer r (heard k s) = outEnd k none (some (.endReceived r)) (heard k s) := by
  unfold takeEnd
  dsimp only
  rw [heard_outbound]
  cases hout : (s.link k).outbound with
  | none => exact absurd hout ho
  | offered h v d => rfl
  | active h v => rfl

theorem heard_inbound (k : LinkId) (s : State) : ((heard k s).link k).inbound = (s.link k).inbound := by
  rw [heard_link_same]
  rfl

theorem takeEnd_owner_idle {r : EndReason} (hi : (s.link k).inbound = .none) :
    takeEnd k .owner r (heard k s) = s.modLink k fun _ => frameLost k s := by
  rw [← discardFrame_heard]
  simp only [takeEnd, heard_inbound, hi]

theorem takeEnd_owner_shared {r : EndReason} (hi : (s.link k).inbound ≠ .none) :
    takeEnd k .owner r (heard k s) = inEnd k none (some (.endReceived r)) (heard k s) := by
  unfold takeEnd
  dsimp only
  rw [heard_inbound]
  cases hin : (s.link k).inbound with
  | none => exact absurd hin hi
  | offeredIn o d => rfl
  | active o => rfl

/-- What an accepted offer leaves (R131). -/
theorem outboundActivated.effect {cause : ShareCause} (hact : outboundActivated k h v cause s u) :
    u.link k = { enqueueFrame (.mode (sentMode s h) (effMode s h.comp)) (s.link k) with outbound := .active h v } ∧
    (∀ j, j ≠ k → u.link j = s.link j) ∧
    u.out (laneOut k) = takeTargetRecord (some (.head h)) (s.out (laneOut k)) ∧
    (∀ o, o ≠ laneOut k → u.out o = s.out o) ∧
    u = { s with
      links := u.links, outputs := u.outputs
      sup := queueNotice .share (shareOutNotice k (.active h v) h v cause) s.sup } := by
  rw [hact]
  exact ⟨State.modLink_link_same .., fun j hj => State.modLink_link_ne _ _ _ _ hj,
    (modOut_out_at ..).trans (if_pos rfl), fun o ho => (modOut_out_at ..).trans (if_neg ho), rfl⟩

/-! ### MODE -/

theorem takeMode_idle {m : Mode} {p : PointerMode} (hi : (s.link k).inbound = .none) :
    takeMode k m p (heard k s) = s.modLink k fun _ => frameLost k s := by
  rw [← discardFrame_heard]
  simp only [takeMode, heard_inbound, hi]

theorem takeMode_offered {m : Mode} {p : PointerMode} (hi : (s.link k).inbound = .offeredIn o d) :
    takeMode k m p (heard k s) = s.modLink k fun _ =>
      { frameTaken k s with inbound := .offeredIn { o with mode := m, pointerMode := p } d } := by
  rw [← modLink_heard (fun l : Link => { l with inbound := .offeredIn { o with mode := m, pointerMode := p } d })]
  simp only [takeMode, heard_inbound, hi]
  rfl

theorem clearCapture_away (h : ∀ n, s.focus.target ≠ .loc n) :
    clearCapture s = { s with pointer := { s.pointer with capture := false } } := by
  unfold clearCapture
  split
  · cases hf : s.focus.target with
    | loc n => exact absurd hf (h n)
    | rem k => rfl
    | none => rfl
  next hc =>
    have hf : s.pointer.capture = false := by simpa using hc
    have hp : s.pointer = { s.pointer with capture := false } := by rw [← hf]
    rw [← hp]

/-- What a MODE leaves of an ACTIVE session (R102, R146). -/
theorem takeMode_active {m : Mode} {p : PointerMode} (hi : (s.link k).inbound = .active o) :
    let t := takeMode k m p (heard k s)
    t.link k = { frameTaken k s with inbound := .active { o with mode := m, pointerMode := p } } ∧
    (∀ j, j ≠ k → t.link j = s.link j) ∧
    t.input (.lane k) = laneState m ∧ (∀ i, i ≠ .lane k → t.input i = s.input i) ∧
    (∀ out, t.out out = inputFollowed s (.lane k) (laneState m) out) ∧
    t.pointer = { s.pointer with capture := s.pointer.capture && !(p == .absolute && s.focus.target == .rem k) } ∧
    t = { s with
      links := t.links, inputs := t.inputs, outputs := t.outputs, pointer := t.pointer
      sup := toldInput s (.lane k) (laneState m) none s.sup } := by
  let y : Link := { frameTaken k s with inbound := .active { o with mode := m, pointerMode := p } }
  let x := s.modLink k fun _ => y
  have ht : takeMode k m p (heard k s) =
      if p = .absolute ∧ (changeInput (.lane k) (laneState m) x).focus.target = .rem k then
        clearCapture (changeInput (.lane k) (laneState m) x)
      else changeInput (.lane k) (laneState m) x := by
    have hx : x = setInbound k (.active { o with mode := m, pointerMode := p }) (heard k s) :=
      (modLink_heard (fun l : Link => { l with inbound := .active { o with mode := m, pointerMode := p } })).symm
    rw [hx]
    simp only [takeMode, heard_inbound, hi]
  obtain ⟨hxk, hxj⟩ := modLink_const_link (s := s) (k := k) y
  obtain ⟨hin, hins, hout, hrest⟩ := changeLane_effect k (laneState m) x
  intro t
  have htt : t = takeMode k m p (heard k s) := rfl
  clear_value t
  rw [ht] at htt
  generalize changeInput (.lane k) (laneState m) x = z at *
  have hzf : z.focus = s.focus := by rw [hrest]; rfl
  have hzp : z.pointer = s.pointer := by rw [hrest]; rfl
  have hzl : z.links = x.links := by rw [hrest]
  have hptr : t = { z with
      pointer := { s.pointer with capture := s.pointer.capture && !(p == .absolute && s.focus.target == .rem k) } } := by
    have hif : t = if p = .absolute ∧ s.focus.target = .rem k then clearCapture z else z := by rw [htt, hzf]
    rw [hif]
    by_cases hc : p = .absolute ∧ s.focus.target = .rem k
    · rw [if_pos hc, clearCapture_away (by rw [hzf, hc.2]; exact fun _ => FocusTarget.noConfusion), hzp, hc.1, hc.2,
        beq_self_eq_true, beq_self_eq_true, Bool.and_self, Bool.not_true, Bool.and_false]
    · have hb : (p == .absolute && s.focus.target == .rem k) = false := by simpa using hc
      rw [if_neg hc, hb, Bool.not_false, Bool.and_true, ← hzp]
  have hlink : ∀ j, t.link j = x.link j := fun j => by
    rw [hptr]
    exact congrArg (pick · j) hzl
  refine ⟨(hlink k).trans hxk, fun j hj => (hlink j).trans (hxj j hj), ?_, fun i h => ?_, fun out => ?_, ?_, ?_⟩
  · rw [hptr]
    exact hin
  · rw [hptr]
    exact hins i h
  · rw [hptr]
    exact hout out
  · rw [hptr]
  · have h1 := congrArg (fun w : State => { w with pointer := t.pointer }) hrest
    have h2 : t = { z with pointer := t.pointer } := by rw [hptr]
    have hl : t.links = x.links := by rw [h2]; exact hzl
    have hi : t.inputs = z.inputs := by rw [h2]
    have ho : t.outputs = z.outputs := by rw [h2]
    rw [hl, hi, ho]
    exact h2.trans h1

end Sys2Proof.Machine
end

section
/-! The frames of the sessions (O48). -/

open Sys2Proof Sys2Proof.Machine

/-- Settles O48: a frame that is lost writes the link alone, and each other one is judged from the state in which it is
heard. -/
theorem sessionFramesTaken : Obligations.SessionFramesTaken := by
  intro k s got lost l onlyLink share outboundEnds anyFrame
  have alone {c : Instr} {x : Link} {q : Supervisor → Supervisor}
      (h : exec c s = done ((s.modLink k fun _ => x).modSup q)) : ∃ t, exec c s = .next t ∧ onlyLink x (q s.sup) t :=
    (congrArg (fun e => ∃ t, e = .next t ∧ onlyLink x (q s.sup) t) h).mpr (done_modLink_told x q)
  have carried {c : Instr} (hc : anyFrame c) : CarriesFrame k c := by
    rcases hc with ⟨o, rfl, hs⟩ | rfl | ⟨r, rfl⟩ | ⟨d, r, rfl⟩ | ⟨m, p, rfl, hs⟩ | ⟨kind, rfl⟩ | rfl | ⟨r, rfl⟩ | rfl | rfl |
      ⟨ks, rfl, hs⟩ | ⟨f, rfl, hs⟩
    · exact ⟨.offer o, hs, rfl, fun _ => rfl⟩
    · exact ⟨.accept, rfl, rfl, fun _ => rfl⟩
    · exact ⟨.decline r, rfl, rfl, fun _ => rfl⟩
    · exact ⟨.endSession d r, rfl, rfl, fun _ => rfl⟩
    · exact ⟨.mode m p, hs, rfl, fun _ => rfl⟩
    · exact ⟨.claim kind, rfl, rfl, fun _ => rfl⟩
    · exact ⟨.grant, rfl, rfl, fun _ => rfl⟩
    · exact ⟨.deny r, rfl, rfl, fun _ => rfl⟩
    · exact ⟨.release, rfl, rfl, fun _ => rfl⟩
    · exact ⟨.revoke, rfl, rfl, fun _ => rfl⟩
    · exact ⟨.keys ks, hs, rfl, fun _ => rfl⟩
    · exact ⟨.pointer f, hs, rfl, fun _ => rfl⟩
  have ended {c : Instr} {cause : ShareCause} (ho : (s.link k).outbound ≠ .none)
      (h : exec c s = done (outEnd k none (some cause) (heard k s))) : ∃ t, exec c s = .next t ∧ outboundEnds cause t := by
    have hend := outEnd_ended k none cause (heard k s)
    rw [h]
    generalize outEnd k none (some cause) (heard k s) = u at hend
    have hg := hend.gone (by rw [heard_outbound]; exact ho)
    have hrest := hg.rest
    rw [hg.capture] at hrest
    have hlink := hg.link
    rw [heard_link_same] at hlink
    refine ⟨handedOn u, rfl, ⟨u, hend, rfl⟩, hlink, fun j hj => ?_, hg.out, hg.outs, fun ha n => ?_, fun h v d hd => ?_, ?_⟩
    · have hq : QueuedOnly ((heard k s).link j) (u.link j) := hg.links j hj
      rw [heard_link_ne hj] at hq
      exact hq
    · obtain ⟨hclaims, hholds⟩ := hg.active (by rw [heard_outbound]; exact ha)
      exact ⟨hholds n, hclaims n⟩
    · obtain ⟨-, hu⟩ := hg.offered h v d (by rw [heard_outbound]; exact hd)
      exact congrArg handedOn hu
    · exact congrArg handedOn hrest
  refine ⟨fun c hc => ⟨fun he => ?_, fun he hu => ?_⟩, fun c hc => ?_, fun he hu => ?_⟩
  · obtain ⟨m, hm, -, hexec⟩ := carried hc
    exact alone (q := id) ((hexec s).trans (congrArg done (wholeFrame_disabled hm he)))
  · obtain ⟨m, hm, ha, hexec⟩ := carried hc
    exact alone (q := id) ((hexec s).trans (congrArg done (wholeFrame_down hm ha he hu)))
  · rcases hc with ⟨o, rfl, hs⟩ | ⟨m, p, rfl, hs⟩
    · exact alone (q := id) (congrArg done (wholeFrame_malformed (m := .offer o) hs))
    · exact alone (q := id) (congrArg done (wholeFrame_malformed (m := .mode m p) hs))
  have taken {m : LinkMsg} (hm : LinkMsg.sendable m = true) : wholeFrame k m s = dispatchFrame k m (heard k s) :=
    wholeFrame_heard hm he hu
  refine ⟨fun o hs => ?_, fun h v d ho => ?_, fun ho => ?_, fun r ho => ?_, fun r ho => ?_, fun r ho => ?_, fun r ho => ?_,
    fun r hi => ?_, fun r o d hi => ?_, fun r hi => ?_, fun m p hs => ⟨fun hi => ?_, fun o d hi => ?_, fun o hi => ?_⟩⟩
  · have hexec : exec (.offer k o) s = done (takeOffer k o (heard k s)) := congrArg done (taken (m := .offer o) hs)
    by_cases hi : (s.link k).inbound = .none
    · rw [takeOffer_free hi] at hexec
      by_cases hz : s.desk.zones.getLsbD o.zone.val = true
      · rw [if_pos hz] at hexec
        obtain ⟨t, ht, halone⟩ := alone hexec
        exact ⟨t, ht, by rw [if_neg (not_not_intro hi), if_pos hz]; exact halone⟩
      · rw [if_neg hz] at hexec
        obtain ⟨t, ht, halone⟩ := alone hexec
        exact ⟨t, ht, by rw [if_neg (not_not_intro hi), if_neg hz]; exact halone⟩
    · rw [takeOffer_busy hi] at hexec
      obtain ⟨t, ht, halone⟩ := alone hexec
      exact ⟨t, ht, by rw [if_pos hi]; exact halone⟩
  · have hexec : exec (.accept k) s = done (outActivate k h v .accepted (heard k s)) :=
      congrArg done ((taken (m := .accept) rfl).trans (takeAccept_offered ho))
    obtain ⟨hlink, hlinks, hout, houts, hrest⟩ := (outActivate_activated k h v .accepted (heard k s)).effect
    rw [hexec]
    generalize outActivate k h v .accepted (heard k s) = u at hlink hlinks hout houts hrest
    rw [heard_link_same] at hlink
    exact ⟨handedOn u, rfl, hlink, fun j hj => (hlinks j hj).trans (heard_link_ne hj), hout, houts, congrArg handedOn hrest⟩
  · exact alone (q := id) (congrArg done ((taken (m := .accept) rfl).trans (takeAccept_idle ho)))
  · exact alone (q := id) (congrArg done ((taken (m := .decline r) rfl).trans (takeDecline_idle ho)))
  · exact ended ho (congrArg done ((taken (m := .decline r) rfl).trans (takeDecline_shared ho)))
  · exact alone (q := id) (congrArg done ((taken (m := .endSession .viewer r) rfl).trans (takeEnd_viewer_idle ho)))
  · exact ended ho (congrArg done ((taken (m := .endSession .viewer r) rfl).trans (takeEnd_viewer_shared ho)))
  · exact alone (q := id) (congrArg done ((taken (m := .endSession .owner r) rfl).trans (takeEnd_owner_idle hi)))
  · have hexec : exec (.endSession k .owner r) s = done (inEnd k none (some (.endReceived r)) (heard k s)) :=
      congrArg done ((taken (m := .endSession .owner r) rfl).trans
        (takeEnd_owner_shared (by rw [hi]; exact Inbound.noConfusion)))
    have heff := (inEnd_ended k none (.endReceived r) (heard k s)).offered (by rw [heard_inbound]; exact hi)
    rw [hexec]
    generalize inEnd k none (some (.endReceived r)) (heard k s) = u at heff
    obtain ⟨hlink, hlinks, hrest⟩ := heff
    rw [heard_link_same] at hlink
    exact ⟨handedOn u, rfl, hlink, fun j hj => (hlinks j hj).trans (heard_link_ne hj), congrArg handedOn hrest⟩
  · obtain ⟨o, hi⟩ := hi
    have hexec : exec (.endSession k .owner r) s = done (inEnd k none (some (.endReceived r)) (heard k s)) :=
      congrArg done ((taken (m := .endSession .owner r) rfl).trans
        (takeEnd_owner_shared (by rw [hi]; exact Inbound.noConfusion)))
    have hend := inEnd_ended k none (.endReceived r) (heard k s)
    rw [hexec]
    generalize inEnd k none (some (.endReceived r)) (heard k s) = u at hend
    obtain ⟨hlink, hlinks, hin, hins, hout, hf, hrest⟩ := hend.active (by rw [heard_inbound]; exact hi)
    rw [heard_link_same] at hlink
    exact ⟨handedOn u, rfl, hlink, fun j hj => (hlinks j hj).trans (heard_link_ne hj), hin, hins, hout, hf, ⟨u, hend, rfl⟩,
      congrArg handedOn hrest⟩
  · exact alone (q := id) (congrArg done ((taken (m := .mode m p) hs).trans (takeMode_idle hi)))
  · exact alone (q := id) (congrArg done ((taken (m := .mode m p) hs).trans (takeMode_offered hi)))
  · have hexec : exec (.mode k m p) s = done (takeMode k m p (heard k s)) := congrArg done (taken (m := .mode m p) hs)
    obtain ⟨hlink, hlinks, hin, hins, hout, hptr, hrest⟩ := takeMode_active (m := m) (p := p) hi
    rw [hexec]
    generalize takeMode k m p (heard k s) = u at hlink hlinks hin hins hout hptr hrest
    rw [← hin] at hout hrest
    exact ⟨handedOn u, rfl, hlink, hlinks, hin, hins, hout, hptr, congrArg handedOn hrest⟩

end

section
/-!
SUPPORT. What the rows of R141 leave: the inbound session (rows 1 and 2), the viewer control state (rows 3 to 6), the outbound
session (rows 7 and 8) and the return of a computer (row 9).
-/

namespace Sys2Proof.Machine

open Sys2Proof

variable {s t x y z u : State} {n m : Comp} {k j : LinkId} {a : Alive} {f : Option LinkMsg} {l : Link}

/-! ### A link under its frames and sessions -/

theorem linkFormed_queued (f : Option LinkMsg) (l : Link) : QueuedOnly l (linkFormed f l) := by
  cases f with
  | none => exact .refl l
  | some m => exact .enqueueFrame m l

/-- The link differs by what its sessions, its viewer control and the formation of frames change. -/
def SessionOnly (a b : Link) : Prop :=
  b = { a with
    inbound := b.inbound, outbound := b.outbound, viewer := b.viewer, sending := b.sending, sendQueue := b.sendQueue
    counters := { a.counters with sendOverflow := b.counters.sendOverflow } }

theorem SessionOnly.trans {a b d : Link} (h : SessionOnly a b) (g : SessionOnly b d) : SessionOnly a d := by
  unfold SessionOnly at *
  rw [g, h]

theorem QueuedOnly.sessionOnly {a b : Link} (h : QueuedOnly a b) : SessionOnly a b := by
  unfold QueuedOnly at h
  unfold SessionOnly
  rw [h]

theorem QueuedOnly.session {a b : Link} (h : QueuedOnly a b) :
    b.inbound = a.inbound ∧ b.outbound = a.outbound ∧ b.viewer = a.viewer := by
  rw [h]
  exact ⟨rfl, rfl, rfl⟩

/-! ### Rows 1 and 2: the inbound session -/

/-- Whether the peer's report ends an ACTIVE inbound session. -/
def laneEnds (a : Alive) (l : Link) : Bool :=
  (match l.inbound with
    | .active _ => true
    | _ => false) && a.outbound == .none

/-- What rows 1 and 2 leave. -/
theorem inboundRows (h : if a.outbound = .none then inboundEnded k none .peerEnded s x else x = s) :
    LaneLost (laneEnds a (s.link k)) k s x ∧ x.link k = { s.link k with
      inbound := if a.outbound = .none then .none else (s.link k).inbound
      viewer := if laneEnds a (s.link k) then .none else (s.link k).viewer } := by
  by_cases ho : a.outbound = .none
  · rw [if_pos ho] at h
    have hends : laneEnds a (s.link k) = (activeOffer s k).isSome := by
      unfold laneEnds activeOffer
      rw [ho]
      cases (s.link k).inbound <;> rfl
    rw [hends, if_pos ho]
    exact h.lost
  · rw [if_neg ho] at h
    have hends : laneEnds a (s.link k) = false := by
      unfold laneEnds
      rw [beq_false_of_ne ho, Bool.and_false]
    rw [hends, if_neg ho, h]
    exact ⟨.idle rfl fun _ _ => rfl, rfl⟩

/-! ### Rows 3 to 6: the viewer control state -/

/-- The viewer control state after the peer's report (R141). -/
def reconciledViewer (a : Alive) (v : ViewerControl) : ViewerControl :=
  if v = .held ∧ a.controlToYou = false then .none
  else if v = .requested ∧ a.controlToYou = true then .held
  else v

/-- The END that answers a session which the peer alone holds ACTIVE (R141, row 3). -/
def peerAlone (a : Alive) (l : Link) : Option LinkMsg :=
  if l.inbound = .none ∧ a.outbound = .active then some (.endSession .viewer .peerEnded) else none

/-- The RELEASE that answers control that was not asked for (R141, row 6). -/
def controlUnasked (a : Alive) (l : Link) : Option LinkMsg :=
  if l.viewer = .none ∧ a.controlToYou = true then some .release else none

/-- Whether the peer's report ends HELD (R141, row 4), and whether it makes REQUESTED HELD (R141, row 5). -/
def controlLost (a : Alive) (v : ViewerControl) : Bool := v == .held && !a.controlToYou

def controlGained (a : Alive) (v : ViewerControl) : Bool := v == .requested && a.controlToYou

/-- What a viewer control state that is gained, lost or neither leaves outside its link's record (R28, R49, R56, R161). -/
structure ViewerRows (gained lost : Bool) (k : LinkId) (s u : State) : Prop extends JoinersMasked s u where
  links : ∀ j, j ≠ k → u.link j = s.link j
  pointer : u.pointer = { s.pointer with capture := s.pointer.capture && !(lost && s.focus.target == .rem k) }
  masked : (gained && s.focus.target == .rem k && s.blank.state == .clear) = true → heldMasked s u
  unmasked : (gained && s.focus.target == .rem k && s.blank.state == .clear) = false → u.router.mask = s.router.mask
  linkKeys : u.linkKeys k = if gained then ⟨0, []⟩ else s.linkKeys k
  linkPointer : u.linkPointer k = if gained then none else s.linkPointer k
  others : ∀ j, j ≠ k → u.linkKeys j = s.linkKeys j ∧ u.linkPointer j = s.linkPointer j
  rest : u = { s with links := u.links, router := u.router, pointer := u.pointer, sup := u.sup }

theorem ViewerRows.still (g : Link → Link) : ViewerRows false false k s (s.modLink k g) :=
  ⟨.of_same rfl rfl fun _ h => h, fun j hj => State.modLink_link_ne _ _ _ _ hj,
    by rw [Bool.false_and, Bool.not_false, Bool.and_true]; rfl, nofun, fun _ => rfl, rfl, rfl, fun _ _ => ⟨rfl, rfl⟩, rfl⟩

theorem viewerMoved.rows {v : ViewerControl} {c : ViewerCause} {g : Link → Link}
    (h : viewerMoved k v c (s.modLink k g) u) : ViewerRows (v == .held) (!(v == .held)) k s u := by
  obtain ⟨-, hlinks, hmasked, hmask, hkeys, hptr, hothers, hrest⟩ := h
  have hsup := congrArg State.sup hrest
  have hpointer := congrArg State.pointer hrest
  have hrouter := congrArg State.router hrest
  dsimp only at hsup hpointer hrouter
  rw [← hsup, ← hpointer, ← hrouter] at hrest
  refine ⟨⟨?_, ?_, fun ⟨m, hu, hs⟩ => ?_⟩, fun j hj => (hlinks j hj).trans (State.modLink_link_ne _ _ _ _ hj), hpointer,
    hmasked, hmask, hkeys, hptr, hothers, hrest⟩
  · rw [hrest]
    rfl
  · cases hj : (v == .held && s.focus.target == .rem k && s.blank.state == .clear) with
    | true => exact .inr (hmasked hj)
    | false => exact .inl (hmask hj)
  · have hr : isRecipient u m = isRecipient s m :=
      isRecipient_congr (by rw [hrest]; rfl) (by rw [hrest]; rfl) (by rw [hrest]; rfl) (by rw [hrouter]; rfl)
        (fun _ => by rw [hrest]; rfl) (fun _ => by rw [hrest]; rfl) m
    rw [hr, hs] at hu
    exact absurd hu Bool.false_ne_true

/-- What rows 3 to 6 leave. -/
theorem viewerRows (h :
    let w : State :=
      if (s.link k).inbound = .none ∧ a.outbound = .active then s.modLink k (enqueueFrame (.endSession .viewer .peerEnded))
      else s
    if (s.link k).viewer = .held ∧ a.controlToYou = false then viewerMoved k .none .reconciled w u
    else if (s.link k).viewer = .requested ∧ a.controlToYou = true then viewerMoved k .held .reconciled w u
    else if (s.link k).viewer = .none ∧ a.controlToYou = true then u = w.modLink k (enqueueFrame .release)
    else u = w) :
    ViewerRows (controlGained a (s.link k).viewer) (controlLost a (s.link k).viewer) k s u ∧
    u.link k = { linkFormed (controlUnasked a (s.link k)) (linkFormed (peerAlone a (s.link k)) (s.link k)) with
      viewer := reconciledViewer a (s.link k).viewer } := by
  have hw : (if (s.link k).inbound = .none ∧ a.outbound = .active then
      s.modLink k (enqueueFrame (.endSession .viewer .peerEnded)) else s) =
      s.modLink k (linkFormed (peerAlone a (s.link k))) := by
    unfold peerAlone
    split
    · rfl
    · exact (modLink_self s k _ rfl).symm
  have hwk := State.modLink_link_same s k (linkFormed (peerAlone a (s.link k)))
  dsimp only at h
  rw [hw] at h
  have hv : ∀ f g : Option LinkMsg, (linkFormed f (linkFormed g (s.link k))).viewer = (s.link k).viewer := fun f g => by
    rw [linkFormed_viewer, linkFormed_viewer]
  by_cases h4 : (s.link k).viewer = .held ∧ a.controlToYou = false
  · rw [if_pos h4] at h
    have hlink := h.1
    rw [hwk] at hlink
    have hf : controlUnasked a (s.link k) = none := if_neg fun h => by rw [h4.1] at h; cases h.1
    have hr : reconciledViewer a (s.link k).viewer = .none := if_pos h4
    rw [hf, hr, h4.1, controlGained, controlLost, h4.2]
    exact ⟨h.rows, hlink⟩
  have hlost : controlLost a (s.link k).viewer = false := by simpa [controlLost] using h4
  rw [if_neg h4] at h
  by_cases h5 : (s.link k).viewer = .requested ∧ a.controlToYou = true
  · rw [if_pos h5] at h
    have hlink := h.1
    rw [hwk] at hlink
    have hf : controlUnasked a (s.link k) = none := if_neg fun h => by rw [h5.1] at h; cases h.1
    have hr : reconciledViewer a (s.link k).viewer = .held := (if_neg h4).trans (if_pos h5)
    rw [hf, hr, h5.1, controlGained, controlLost, h5.2]
    exact ⟨h.rows, hlink⟩
  have hgained : controlGained a (s.link k).viewer = false := by simpa [controlGained] using h5
  have hr : reconciledViewer a (s.link k).viewer = (s.link k).viewer := (if_neg h4).trans (if_neg h5)
  rw [if_neg h5] at h
  rw [hlost, hgained, hr]
  by_cases h6 : (s.link k).viewer = .none ∧ a.controlToYou = true
  · rw [if_pos h6, modLink_modLink] at h
    have hf : controlUnasked a (s.link k) = some .release := if_pos h6
    rw [h, hf]
    refine ⟨.still _, (State.modLink_link_same ..).trans ?_⟩
    rw [← hv (some .release) (peerAlone a (s.link k))]
    rfl
  · rw [if_neg h6] at h
    have hf : controlUnasked a (s.link k) = none := if_neg h6
    rw [h, hf]
    refine ⟨.still _, (State.modLink_link_same ..).trans ?_⟩
    rw [← hv none (peerAlone a (s.link k))]
    rfl

/-! ### Rows 7 and 8: the outbound session -/

/-- The outbound session after the peer's report (R141). -/
def reconciledOutbound (a : Alive) (o : Outbound) : Outbound :=
  match o, a.inbound with
  | .offered h v _, .active => .active h v
  | .active _ _, .none => .none
  | o, _ => o

/-- The MODE of a session that the peer reports ACTIVE (R131). -/
def activationMode (a : Alive) (s : State) (o : Outbound) : Option LinkMsg :=
  match o, a.inbound with
  | .offered h _ _, .active => some (.mode (sentMode s h) (effMode s h.comp))
  | _, _ => none

/-- What an outbound session hands to its lane's output (R131, R132). -/
def reconciledLane (a : Alive) (o : Outbound) (p : Output) : Output :=
  match o, a.inbound with
  | .offered h _ _, .active => takeTargetRecord (some (.head h)) p
  | .active _ _, .none => takeTargetRecord none p
  | _, _ => p

/-- What rows 7 and 8 leave. -/
structure OutboundRows (k : LinkId) (a : Alive) (s u : State) : Prop extends JoinersMasked s u where
  link : u.link k = { linkFormed (activationMode a s (s.link k).outbound) (s.link k) with
    outbound := reconciledOutbound a (s.link k).outbound }
  links : ∀ j, j ≠ k → QueuedOnly (s.link j) (u.link j)
  outs : ∀ o, u.out o = if o = laneOut k then reconciledLane a (s.link k).outbound (s.out o) else s.out o
  linkKeys : u.router.linkKeys = s.router.linkKeys
  linkPointer : u.router.linkPointer = s.router.linkPointer
  away : (∀ n, s.focus.target ≠ .loc n) → u.pointer.capture = s.pointer.capture
  idle : (∀ n, (s.control n).holder ≠ .link k) →
    u.router.mask = s.router.mask ∧ ∀ n, (u.control n).holder ≠ .link k
  stands : a.inbound ≠ .none → u.controls = s.controls
  ended : (∃ h v, (s.link k).outbound = .active h v) → a.inbound = .none →
    Claimless k u ∧ ∀ n, (u.control n).holder ≠ .link k
  rest : u = { s with
    links := u.links, outputs := u.outputs, controls := u.controls, ports := u.ports, router := u.router
    pointer := { s.pointer with capture := u.pointer.capture }, sup := u.sup }

theorem OutboundRows.still (h1 : ∀ h v d, (s.link k).outbound = .offered h v d → a.inbound ≠ .active)
    (h2 : ∀ h v, (s.link k).outbound = .active h v → a.inbound ≠ .none) : OutboundRows k a s s := by
  have hm : activationMode a s (s.link k).outbound = none := by
    unfold activationMode
    split
    next ho hi => exact absurd hi (h1 _ _ _ ho)
    next => rfl
  have hr : reconciledOutbound a (s.link k).outbound = (s.link k).outbound := by
    unfold reconciledOutbound
    split
    next ho hi => exact absurd hi (h1 _ _ _ ho)
    next ho hi => exact absurd hi (h2 _ _ ho)
    next => rfl
  have hl : ∀ p, reconciledLane a (s.link k).outbound p = p := fun p => by
    unfold reconciledLane
    split
    next ho hi => exact absurd hi (h1 _ _ _ ho)
    next ho hi => exact absurd hi (h2 _ _ ho)
    next => rfl
  refine ⟨.of_same rfl rfl fun _ h => h, by rw [hm, hr]; rfl, fun _ _ => .refl _, fun o => ?_, rfl, rfl, fun _ => rfl,
    fun h => ⟨rfl, h⟩, fun _ => rfl, fun ⟨h, v, ha⟩ hi => absurd hi (h2 h v ha), rfl⟩
  rw [hl]
  split <;> rfl

theorem outboundRows (hrows : match (s.link k).outbound, a.inbound with
    | .offered h v _, .active => outboundActivated k h v .peerActive s u
    | .active _ _, .none => outboundEnded k none .peerEnded s u
    | _, _ => u = s) : OutboundRows k a s u := by
  split at hrows
  next h v d ho hi =>
    obtain ⟨hlink, hlinks, hout, houts, hu⟩ := hrows.effect
    have hm : activationMode a s (s.link k).outbound = some (.mode (sentMode s h) (effMode s h.comp)) := by
      simp only [activationMode, ho, hi]
    have hr : reconciledOutbound a (s.link k).outbound = .active h v := by simp only [reconciledOutbound, ho, hi]
    have hl : ∀ p, reconciledLane a (s.link k).outbound p = takeTargetRecord (some (.head h)) p := fun p => by
      simp only [reconciledLane, ho, hi]
    have hctl : u.controls = s.controls := by rw [hu]
    refine ⟨.of_same (by rw [hu]) (by rw [hu]) fun m hm => ?_, by rw [hlink, hm, hr]; rfl, fun j hj => ?_, fun o => ?_,
      by rw [hu], by rw [hu], fun _ => by rw [hu], fun hn => ⟨by rw [hu], fun n => ?_⟩, fun _ => hctl,
      fun ⟨_, _, ha⟩ => absurd (ho.symm.trans ha) Outbound.noConfusion, ?_⟩
    · rw [hu] at hm
      exact hm
    · rw [hlinks j hj]
      exact .refl _
    · rw [hl]
      by_cases hlo : o = laneOut k
      · rw [hlo, if_pos rfl, hout]
      · rw [if_neg hlo, houts o hlo]
    · rw [hu]
      exact hn n
    · have hp : s.pointer = { s.pointer with capture := u.pointer.capture } := by rw [hu]
      rw [← hp, hu]
  next h v ho hi =>
    have hne : (s.link k).outbound ≠ .none := by rw [ho]; exact Outbound.noConfusion
    have hg := hrows.gone hne
    have hm : activationMode a s (s.link k).outbound = none := by simp only [activationMode, ho]
    have hr : reconciledOutbound a (s.link k).outbound = .none := by simp only [reconciledOutbound, ho, hi]
    have hl : ∀ p, reconciledLane a (s.link k).outbound p = takeTargetRecord none p := fun p => by
      simp only [reconciledLane, ho, hi]
    refine ⟨hg.toJoinersMasked, by rw [hg.link, hm, hr], hg.links, fun o => ?_, hg.linkKeys, hg.linkPointer, fun hf => ?_,
      fun hn => ⟨hg.idle hn, fun n => ?_⟩, fun hs => absurd hi hs, fun ha _ => hg.active ha, hg.rest⟩
    · rw [hl]
      by_cases hlo : o = laneOut k
      · rw [hlo, if_pos rfl, hg.out]
      · rw [if_neg hlo, hg.outs o hlo]
    · have hfo : focusGranted s u = false := by
        unfold focusGranted
        split
        next n hn => exact absurd hn (hf n)
        next => rfl
      rw [hg.capture, hfo, Bool.not_false, Bool.and_true]
    · exact (hg.active ⟨h, v, ho⟩).2 n
  next h1 h2 =>
    rw [hrows]
    exact .still (fun h v d ho hi => h1 h v d ho hi) fun h v ho hi => h2 h v ho hi

/-! ### Row 9: the return of a computer -/

/-- What row 9 leaves. -/
structure ReturnRow (k : LinkId) (a : Alive) (s u : State) : Prop extends ControlMoved s u where
  stands : a.viewer ≠ .none ∨ (∀ n, (s.control n).holder ≠ .link k) → u = s
  unshared : (∀ h v, (s.link k).outbound ≠ .active h v) → u = s
  returned : ∀ h v, (s.link k).outbound = .active h v → a.viewer = .none →
    (∀ c ∈ (s.control h.comp).claims, c.link ≠ k) → (u.control h.comp).holder ≠ .link k

theorem ReturnRow.still (h : ∀ h v, (s.link k).outbound = .active h v →
    ¬ ((s.control h.comp).holder = .link k ∧ a.viewer = .none)) : ReturnRow k a s s :=
  ⟨.refl s, fun _ => rfl, fun _ => rfl, fun hd v ho ha _ hh => h hd v ho ⟨hh, ha⟩⟩

theorem returnRow (hrow : match (s.link k).outbound with
    | .active h _ =>
      if (s.control h.comp).holder = .link k ∧ a.viewer = .none then controlReturned h.comp k .reconciled s u else u = s
    | _ => u = s) : ReturnRow k a s u := by
  split at hrow
  next h v ho =>
    by_cases hh : (s.control h.comp).holder = .link k ∧ a.viewer = .none
    · rw [if_pos hh] at hrow
      obtain ⟨hholder, hviewer⟩ := hh
      refine ⟨hrow.taken.moved, ?_, fun hno => absurd ho (hno h v), fun h' v' ho' _ hc => ?_⟩
      · rintro (hv | hn)
        · exact absurd hviewer hv
        · exact absurd hholder (hn h.comp)
      · obtain ⟨rfl, -⟩ := Outbound.active.inj (ho.symm.trans ho')
        exact (hrow.handedBack hc hholder).2
    · rw [if_neg hh] at hrow
      rw [hrow]
      refine .still fun h' v' ho' => ?_
      obtain ⟨rfl, -⟩ := Outbound.active.inj (ho.symm.trans ho')
      exact hh
  next hno =>
    rw [hrow]
    exact .still fun h v ho => absurd ho (hno h v)

end Sys2Proof.Machine
end

section
/-! SUPPORT. What a reconciliation leaves once its nine rows have been judged (R141). -/

namespace Sys2Proof.Machine

open Sys2Proof

variable {s b x y z u : State} {n m : Comp} {k j : LinkId} {a : Alive}

theorem sentMode_congr {h : Head} (hi : x.input (.head h) = s.input (.head h)) (hm : x.headMap h = s.headMap h) :
    sentMode x h = sentMode s h := by
  unfold sentMode effSize
  rw [hi, hm]

theorem effMode_congr (hc : x.comp n = s.comp n) (hp : x.port n = s.port n) : effMode x n = effMode s n := by
  unfold effMode
  rw [hc, hp]

theorem linkFormed_rows (f g e : Option LinkMsg) (l : Link) (i : Inbound) (o : Outbound) (v v' : ViewerControl) :
    ({ linkFormed e { linkFormed g (linkFormed f { l with inbound := i, viewer := v }) with viewer := v' } with
      outbound := o } : Link) =
    { linkFormed e (linkFormed g (linkFormed f l)) with inbound := i, outbound := o, viewer := v' } := by
  rw [linkFormed_lane f l i v, linkFormed_lane g (linkFormed f l) i v]
  exact congrArg (fun w : Link => { w with outbound := o }) (linkFormed_lane e (linkFormed g (linkFormed f l)) i v')

/-- The viewer control state once the inbound session has been judged. -/
def viewerLeft (a : Alive) (l : Link) : ViewerControl := if laneEnds a l then .none else l.viewer

/-- The nine rows, from `b` over `x` (rows 1 and 2), `y` (rows 3 to 6) and `z` (rows 7 and 8) to `u`. -/
structure Reconciliation (k : LinkId) (a : Alive) (b x y z u : State) : Prop where
  lane : LaneLost (laneEnds a (b.link k)) k b x
  laneLink : x.link k = { b.link k with
    inbound := if a.outbound = .none then .none else (b.link k).inbound, viewer := viewerLeft a (b.link k) }
  viewer : ViewerRows (controlGained a (viewerLeft a (b.link k))) (controlLost a (viewerLeft a (b.link k))) k x y
  viewerLink : y.link k = { linkFormed (controlUnasked a (x.link k)) (linkFormed (peerAlone a (x.link k)) (x.link k)) with
    viewer := reconciledViewer a (viewerLeft a (b.link k)) }
  outbound : OutboundRows k a y z
  row9 : ReturnRow k a z u

theorem reconciled.rows (h : reconciled k a b u) : ∃ x y z, Reconciliation k a b x y z u := by
  obtain ⟨x, y, z, h12, h36, h78, h9⟩ := h
  obtain ⟨hlane, hx⟩ := inboundRows h12
  obtain ⟨hviewer, hy⟩ := viewerRows h36
  have hv : (x.link k).viewer = viewerLeft a (b.link k) := by rw [hx]; rfl
  rw [hv] at hviewer hy
  exact ⟨x, y, z, hlane, hx, hviewer, hy, outboundRows h78, returnRow h9⟩

namespace Reconciliation

variable (h : Reconciliation k a b x y z u)
include h

/-! ### The link -/

theorem y_session : (y.link k).inbound = (if a.outbound = .none then .none else (b.link k).inbound) ∧
    (y.link k).outbound = (b.link k).outbound := by
  have hq := (linkFormed_queued (peerAlone a (x.link k)) (x.link k)).trans (linkFormed_queued (controlUnasked a (x.link k)) _)
  obtain ⟨hi, ho, -⟩ := hq.session
  rw [h.viewerLink]
  refine ⟨hi.trans ?_, ho.trans ?_⟩
  · rw [h.laneLink]
  · rw [h.laneLink]

theorem z_session : (z.link k).inbound = (if a.outbound = .none then .none else (b.link k).inbound) ∧
    (z.link k).outbound = reconciledOutbound a (b.link k).outbound ∧
    (z.link k).viewer = reconciledViewer a (viewerLeft a (b.link k)) := by
  obtain ⟨hi, ho⟩ := h.y_session
  obtain ⟨hqi, -, hqv⟩ := (linkFormed_queued (activationMode a y (y.link k).outbound) (y.link k)).session
  rw [h.outbound.link]
  refine ⟨hqi.trans hi, by rw [← ho], hqv.trans ?_⟩
  rw [h.viewerLink]

theorem session : (u.link k).inbound = (if a.outbound = .none then .none else (b.link k).inbound) ∧
    (u.link k).outbound = reconciledOutbound a (b.link k).outbound ∧
    (u.link k).viewer = reconciledViewer a (viewerLeft a (b.link k)) := by
  obtain ⟨hi, ho, hv⟩ := (h.row9.links k).session
  obtain ⟨zi, zo, zv⟩ := h.z_session
  exact ⟨hi.trans zi, ho.trans zo, hv.trans zv⟩

theorem sessionOnly : SessionOnly (b.link k) (u.link k) := by
  have h1 : SessionOnly (b.link k) (x.link k) := by
    unfold SessionOnly
    rw [h.laneLink]
  have h2 : SessionOnly (x.link k) (y.link k) := by
    have hq := (linkFormed_queued (peerAlone a (x.link k)) (x.link k)).trans (linkFormed_queued (controlUnasked a (x.link k)) _)
    have := hq.sessionOnly
    unfold SessionOnly at this ⊢
    rw [h.viewerLink, this]
  have h3 : SessionOnly (y.link k) (z.link k) := by
    have := (linkFormed_queued (activationMode a y (y.link k).outbound) (y.link k)).sessionOnly
    unfold SessionOnly at this ⊢
    rw [h.outbound.link, this]
  exact ((h1.trans h2).trans h3).trans (h.row9.links k).sessionOnly

theorem others (hj : j ≠ k) : QueuedOnly (b.link j) (u.link j) := by
  have hy : y.link j = b.link j := (h.viewer.links j hj).trans (h.lane.links j hj)
  rw [← hy]
  exact (h.outbound.links j hj).trans (h.row9.links j)

theorem y_rest : y = { b with
    links := y.links, inputs := y.inputs, outputs := y.outputs, focus := y.focus, router := y.router
    keyboard := y.keyboard, lines := y.lines, pointer := y.pointer, sup := y.sup } := by
  have h1 := congrArg (fun w : State => { w with
    links := y.links, router := y.router, pointer := y.pointer, sup := y.sup }) h.lane.rest
  have h2 := h.viewer.rest.trans h1
  have e : x.inputs = y.inputs ∧ x.outputs = y.outputs ∧ x.focus = y.focus ∧ x.keyboard = y.keyboard ∧ x.lines = y.lines := by
    rw [h.viewer.rest]
    exact ⟨rfl, rfl, rfl, rfl, rfl⟩
  obtain ⟨e1, e2, e3, e4, e5⟩ := e
  rw [e1, e2, e3, e4, e5] at h2
  exact h2

theorem y_input (i : Input) : y.input i = x.input i := by
  rw [h.viewer.rest]
  rfl

theorem activationMode_eq : activationMode a y (y.link k).outbound = activationMode a b (b.link k).outbound := by
  have hs : ∀ g : Head, sentMode y g = sentMode b g := fun g =>
    sentMode_congr ((h.y_input _).trans (h.lane.inputs _ Input.noConfusion)) (by rw [h.y_rest]; rfl)
  have he : ∀ m, effMode y m = effMode b m := fun m => effMode_congr (by rw [h.y_rest]; rfl) (by rw [h.y_rest]; rfl)
  rw [h.y_session.2]
  unfold activationMode
  simp only [hs, he]

/-- The frames that the rows form on the link, where no computer returns from it in row 9. -/
theorem frames (hn : a.viewer ≠ .none ∨ ∀ n, (b.control n).holder ≠ .link k) :
    u.link k = { linkFormed (activationMode a b (b.link k).outbound)
      (linkFormed (if viewerLeft a (b.link k) = .none ∧ a.controlToYou = true then some .release else none)
        (linkFormed (peerAlone a (b.link k)) (b.link k))) with
      inbound := (u.link k).inbound, outbound := (u.link k).outbound, viewer := (u.link k).viewer } := by
  have hctl : ∀ n, y.control n = b.control n := fun n => by rw [h.y_rest]; rfl
  have hu : u = z := h.row9.stands (hn.imp_right fun hb => (h.outbound.idle fun n => by rw [hctl]; exact hb n).2)
  have hf1 : peerAlone a (x.link k) = peerAlone a (b.link k) := by
    unfold peerAlone
    rw [h.laneLink]
    cases a.outbound <;> simp
  have hf2 : controlUnasked a (x.link k) =
      if viewerLeft a (b.link k) = .none ∧ a.controlToYou = true then some .release else none := by
    unfold controlUnasked
    rw [h.laneLink]
  obtain ⟨hi, ho, hv⟩ := h.z_session
  have hxo : (x.link k).outbound = (b.link k).outbound := by rw [h.laneLink]
  rw [hu, hi, ho, hv, h.outbound.link, h.activationMode_eq, h.y_session.2, h.viewerLink, hf1, hf2, h.laneLink]
  exact linkFormed_rows ..

/-! ### The lane, the focus and the outputs -/

theorem u_rest : LinkWork y u := by
  have h1 : LinkWork y z := by
    unfold LinkWork
    rw [h.outbound.rest]
  exact h1.trans h.row9.toControlMoved.linkWork

/-- What no row after the second changes. -/
theorem after_x : u.inputs = x.inputs ∧ u.focus = x.focus ∧ u.lines = x.lines ∧ u.keyboard = x.keyboard := by
  have h1 : u.inputs = z.inputs ∧ u.focus = z.focus ∧ u.lines = z.lines ∧ u.keyboard = z.keyboard := by
    rw [h.row9.rest]
    exact ⟨rfl, rfl, rfl, rfl⟩
  have h2 : z.inputs = y.inputs ∧ z.focus = y.focus ∧ z.lines = y.lines ∧ z.keyboard = y.keyboard := by
    rw [h.outbound.rest]
    exact ⟨rfl, rfl, rfl, rfl⟩
  have h3 : y.inputs = x.inputs ∧ y.focus = x.focus ∧ y.lines = x.lines ∧ y.keyboard = x.keyboard := by
    rw [h.viewer.rest]
    exact ⟨rfl, rfl, rfl, rfl⟩
  obtain ⟨a1, a2, a3, a4⟩ := h1
  obtain ⟨b1, b2, b3, b4⟩ := h2
  obtain ⟨c1, c2, c3, c4⟩ := h3
  exact ⟨a1.trans (b1.trans c1), a2.trans (b2.trans c2), a3.trans (b3.trans c3), a4.trans (b4.trans c4)⟩

theorem input (i : Input) : u.input i = x.input i := congrArg (pick · (Input.idx i)) h.after_x.1

theorem outs (o : OutputId) : u.out o =
    let p := if laneEnds a (b.link k) then laneGone b k o else b.out o
    if o = laneOut k then reconciledLane a (b.link k).outbound p else p := by
  have hu : u.out o = z.out o := by rw [h.row9.rest]; rfl
  have hy : y.out o = x.out o := by rw [h.viewer.rest]; rfl
  rw [hu, h.outbound.outs, hy, h.lane.outs, h.y_session.2]

theorem focus : u.focus =
    if laneEnds a (b.link k) && b.focus.target == .rem k then ⟨.none, .sessionEnd, b.focus.tile⟩ else b.focus :=
  h.after_x.2.1.trans h.lane.focus

theorem lines : linesFollow b u :=
  h.lane.lines.alike rfl (fun _ => rfl) h.after_x.2.1 fun l => congrArg (pick · l) h.after_x.2.2.1

theorem keyboard : u.keyboard = if laneEnds a (b.link k) && b.focus.target == .rem k && b.keyboard.attached then
    { b.keyboard with lightsSent := some ⟨false, false, false⟩ } else b.keyboard :=
  h.after_x.2.2.2.trans h.lane.keyboard

theorem pointer : u.pointer = { b.pointer with capture := u.pointer.capture } := by
  have h1 : u.pointer = { z.pointer with capture := u.pointer.capture } := by rw [h.row9.rest]
  have h2 : z.pointer = { y.pointer with capture := z.pointer.capture } := by rw [h.outbound.rest]
  rw [h1, h2, h.viewer.pointer, h.lane.pointer]

/-- A capture on the lane ends with the session or with HELD. -/
theorem capture (hf : b.focus.target = .rem k) : u.pointer.capture =
    (b.pointer.capture && !(laneEnds a (b.link k) || controlLost a (b.link k).viewer)) := by
  have hxf : ∀ n, x.focus.target ≠ .loc n := fun n => by
    rw [h.lane.focus, hf]
    split
    · exact FocusTarget.noConfusion
    · rw [hf]; exact FocusTarget.noConfusion
  have hyf : y.focus = x.focus := by rw [h.viewer.rest]
  have hzf : z.focus = x.focus := by rw [h.outbound.rest]; exact hyf
  rw [h.row9.away (by rw [hzf]; exact hxf), h.outbound.away (by rw [hyf]; exact hxf), h.viewer.pointer, h.lane.pointer,
    h.lane.focus, hf, beq_self_eq_true]
  unfold viewerLeft
  cases laneEnds a (b.link k) with
  | true => simp
  | false => simp [hf]

/-! ### The mask -/

theorem joiners : JoinersMasked b u :=
  ((h.lane.toJoinersMasked.trans h.viewer.toJoinersMasked).trans h.outbound.toJoinersMasked).trans
    h.row9.toJoinersMasked

theorem masked_lane (hm : (laneEnds a (b.link k) && b.focus.target == .rem k) = true) : heldMasked b u :=
  (h.lane.masked hm).then h.lane.held
    ((h.viewer.toJoinersMasked.trans h.outbound.toJoinersMasked).trans h.row9.toJoinersMasked).masks

theorem masked_control (hf : b.focus.target = .rem k) (hb : b.blank.state = .clear) (hl : laneEnds a (b.link k) = false)
    (hg : controlGained a (viewerLeft a (b.link k)) = true) : heldMasked b u := by
  have hxf : x.focus = b.focus := by
    rw [h.lane.focus, hl]
    rfl
  have hxb : x.blank = b.blank := by rw [h.lane.rest]
  have hy : heldMasked x y := h.viewer.masked (by
    rw [hg, hxf, hf, hxb, hb, beq_self_eq_true, beq_self_eq_true]
    rfl)
  exact (h.lane.toJoinersMasked.then_masked hy).then (h.lane.toJoinersMasked.trans h.viewer.toJoinersMasked).held
    (h.outbound.toJoinersMasked.trans h.row9.toJoinersMasked).masks

theorem y_control (n : Comp) : y.control n = b.control n := by
  rw [h.y_rest]
  rfl

/-- Nothing is masked where nothing returns, the focus keeps its lane and no control is gained on it. -/
theorem unmasked (hn : ∀ n, (b.control n).holder ≠ .link k)
    (hm : (b.focus.target == .rem k && (laneEnds a (b.link k) ||
      (controlGained a (viewerLeft a (b.link k)) && b.blank.state == .clear))) = false) :
    u.router.mask = b.router.mask := by
  have hlane : (laneEnds a (b.link k) && b.focus.target == .rem k) = false := by
    cases hl : laneEnds a (b.link k) with
    | true => simpa [hl] using hm
    | false => rfl
  have hxf : x.focus = b.focus := by
    rw [h.lane.focus, hlane]
    rfl
  have hxb : x.blank = b.blank := by rw [h.lane.rest]
  have hviewer : (controlGained a (viewerLeft a (b.link k)) && x.focus.target == .rem k && x.blank.state == .clear) = false := by
    rw [hxf, hxb]
    cases hf : (b.focus.target == .rem k) with
    | true =>
      rw [hf, Bool.true_and, Bool.or_eq_false_iff] at hm
      rw [Bool.and_true, hm.2]
    | false => rw [Bool.and_false, Bool.false_and]
  obtain ⟨hz, hzn⟩ := h.outbound.idle fun n => by rw [h.y_control]; exact hn n
  rw [h.row9.stands (.inr hzn), hz, h.viewer.unmasked hviewer, h.lane.unmasked hlane]

/-! ### The last frames sent -/

theorem linkKeys_eq (j : LinkId) : u.linkKeys j = y.linkKeys j := by
  unfold State.linkKeys
  rw [h.row9.linkKeys, h.outbound.linkKeys]

theorem linkPointer_eq (j : LinkId) : u.linkPointer j = y.linkPointer j := by
  unfold State.linkPointer
  rw [h.row9.linkPointer, h.outbound.linkPointer]

theorem x_linkKeys (j : LinkId) : x.linkKeys j = b.linkKeys j ∧ x.linkPointer j = b.linkPointer j := by
  unfold State.linkKeys State.linkPointer
  rw [h.lane.router]
  exact ⟨rfl, rfl⟩

theorem linkKeys : u.linkKeys k =
    (if controlGained a (viewerLeft a (b.link k)) then ⟨0, []⟩ else b.linkKeys k) := by
  rw [h.linkKeys_eq, h.viewer.linkKeys, (h.x_linkKeys k).1]

theorem linkPointer : u.linkPointer k =
    (if controlGained a (viewerLeft a (b.link k)) then none else b.linkPointer k) := by
  rw [h.linkPointer_eq, h.viewer.linkPointer, (h.x_linkKeys k).2]

theorem otherFrames (hj : j ≠ k) : u.linkKeys j = b.linkKeys j ∧ u.linkPointer j = b.linkPointer j := by
  obtain ⟨hk, hp⟩ := h.viewer.others j hj
  obtain ⟨xk, xp⟩ := h.x_linkKeys j
  exact ⟨(h.linkKeys_eq j).trans (hk.trans xk), (h.linkPointer_eq j).trans (hp.trans xp)⟩

/-! ### Control -/

/-- A session that the peer has ended leaves the link nothing held and nothing claimed. -/
theorem ended {g : Head} {v : Bool} (ho : (b.link k).outbound = .active g v) (hi : a.inbound = .none) (n : Comp) :
    (u.control n).holder ≠ .link k ∧ ∀ c ∈ (u.control n).claims, c.link ≠ k := by
  obtain ⟨hclaims, hholds⟩ := h.outbound.ended ⟨g, v, h.y_session.2.trans ho⟩ hi
  rw [h.row9.stands (.inr hholds)]
  exact ⟨hholds n, hclaims n⟩

/-- A computer whose session stands returns when the peer has no viewer control. -/
theorem returned {g : Head} {v : Bool} (ho : (b.link k).outbound = .active g v) (hi : a.inbound ≠ .none)
    (hv : a.viewer = .none) (hc : ∀ c ∈ (b.control g.comp).claims, c.link ≠ k) :
    (u.control g.comp).holder ≠ .link k := by
  have hzo : (z.link k).outbound = .active g v := by
    rw [h.z_session.2.1, ho]
    unfold reconciledOutbound
    cases hin : a.inbound with
    | none => exact absurd hin hi
    | offeredIn => rfl
    | active => rfl
  have hzc : z.control g.comp = b.control g.comp := by
    refine Eq.trans ?_ (h.y_control _)
    unfold State.control
    rw [h.outbound.stands hi]
  exact h.row9.returned g v hzo hv (by rw [hzc]; exact hc)

theorem linkWork : LinkWork b u :=
  (h.lane.linkWork.trans (by unfold LinkWork; rw [h.viewer.rest])).trans h.u_rest

end Reconciliation

end Sys2Proof.Machine
end

section
/-! SUPPORT. An ALIVE on an enabled link: what is learnt of the peer before the rows are judged (R140, R141). -/

namespace Sys2Proof.Machine

open Sys2Proof

variable {s : State} {k : LinkId} {a : Alive} {l : Link}

/-- The link once a valid ALIVE has been learnt (R140). -/
def linkLearnt (a : Alive) (now : Nat) (l : Link) : Link :=
  { l with
    receiver := [], up := true, lastValid := some now, peerZones := a.zones
    peerOutbound := some a.outbound, peerControlToYou := some a.controlToYou
    peerInbound := some a.inbound, peerViewer := some a.viewer
    counters := { l.counters with received := min (l.counters.received + 1) 4294967295 } }

theorem wholeFrame_alive (ha : a.zones ≠ 0) (he : (s.link k).enabled = true) :
    wholeFrame k (.alive a) s = takeAlive k a (heard k s) := by
  have hl := State.modLink_link_same s k fun l => { l with receiver := [] }
  have hm : LinkMsg.sendable (.alive a) = true := bne_iff_ne.mpr ha
  unfold wholeFrame
  simp only [hm, if_true]
  unfold frameIn
  rw [hl, he, stamp_received_eq_heard]
  simp only [LinkMsg.isAlive, Bool.not_true, Bool.and_false, Bool.false_eq_true, if_false]
  rfl

/-- The rows are judged from what has been learnt, and a LINK notice follows on a link that was DOWN. -/
theorem takeAlive_heard (k : LinkId) (a : Alive) (s : State) :
    takeAlive k a (heard k s) = if (s.link k).up then reconcile k a (s.modLink k (linkLearnt a s.now)) else
      (reconcile k a (s.modLink k (linkLearnt a s.now))).modSup
        (queueNotice .link (linkNotice k true .aliveReceived (some a.zones))) := by
  have hb : (heard k s).modLink k (learnPeer a) = s.modLink k (linkLearnt a s.now) :=
    (modLink_heard _).trans (modLink_congr rfl)
  have hu : ((heard k s).link k).up = (s.link k).up := by
    rw [heard_link_same]
    rfl
  unfold takeAlive
  rw [hb, hu]
  rfl

/-! ### The statement's terms for the rows -/

theorem laneEnds_eq (a : Alive) (s : State) (k : LinkId) :
    laneEnds a (s.link k) = ((activeOffer s k).isSome && a.outbound == .none) := by
  unfold laneEnds activeOffer
  cases (s.link k).inbound <;> rfl

theorem laneEnds_match (a : Alive) (l : Link) :
    (match l.inbound, a.outbound with
      | .active _, .none => true
      | _, _ => false) = laneEnds a l := by
  unfold laneEnds
  cases l.inbound <;> cases a.outbound <;> rfl

theorem viewerLeft_match (a : Alive) (l : Link) :
    (match l.inbound, a.outbound with
      | .active _, .none => ViewerControl.none
      | _, _ => l.viewer) = viewerLeft a l := by
  unfold viewerLeft laneEnds
  cases l.inbound <;> cases a.outbound <;> rfl

/-- Viewer control is none for the rows 3 to 6 where it was none or the inbound session has ended. -/
theorem viewerLeft_none : viewerLeft a l = .none ↔ l.viewer = .none ∨ laneEnds a l = true := by
  unfold viewerLeft
  cases laneEnds a l <;> simp

/-- Control that is HELD afterwards and was not before has been gained. -/
theorem controlGained_iff (a : Alive) (l : Link) :
    (l.viewer != .held && reconciledViewer a (viewerLeft a l) == .held) = controlGained a (viewerLeft a l) := by
  unfold reconciledViewer controlGained viewerLeft
  cases laneEnds a l <;> cases l.viewer <;> cases a.controlToYou <;> rfl

theorem linkFormed_ite (c : Prop) [Decidable c] (m : LinkMsg) (l : Link) :
    linkFormed (if c then some m else none) l = if c then enqueueFrame m l else l := by
  split <;> rfl

/-- The MODE of a session that the peer reports ACTIVE, formed on a link. -/
theorem linkFormed_activation (a : Alive) (s : State) (o : Outbound) (l : Link) :
    linkFormed (activationMode a s o) l = match o, a.inbound with
      | .offered h _ _, .active => enqueueFrame (.mode (sentMode s h) (effMode s h.comp)) l
      | _, _ => l := by
  unfold activationMode
  cases o <;> cases a.inbound <;> rfl

end Sys2Proof.Machine
end

section
/-! ALIVE and its reconciliation (O50). -/

open Sys2Proof Sys2Proof.Machine

/-- Settles O50: the nine rows from what the ALIVE has taught the link, each clause from what the rows leave of its field. -/
theorem aliveReconciles : Obligations.AliveReconciles := by
  refine ⟨fun k a s hz => ?_, fun k a s hz => ⟨fun he => ?_, fun he => ?_⟩⟩
  · have hm : LinkMsg.sendable (.alive a) = false := bne_eq_false_iff_eq.mpr hz
    have hexec : exec (.alive k a) s = done (s.modLink k _) := congrArg done (wholeFrame_malformed hm)
    rw [hexec]
    exact done_modLink_told _ id
  · have hm : LinkMsg.sendable (.alive a) = true := bne_iff_ne.mpr hz
    have hexec : exec (.alive k a) s = done (s.modLink k _) := congrArg done (wholeFrame_disabled hm he)
    rw [hexec]
    exact done_modLink_told _ id
  let b := s.modLink k (linkLearnt a s.now)
  obtain ⟨q, hq⟩ : ∃ q : Supervisor → Supervisor, ∀ u : State, u.modSup q = if (s.link k).up then u else
      u.modSup (queueNotice .link (linkNotice k true .aliveReceived (some a.zones))) := by
    cases (s.link k).up with
    | true => exact ⟨id, fun _ => rfl⟩
    | false => exact ⟨_, fun _ => rfl⟩
  have hrec := reconcile_reconciled k a b
  have hexec : exec (.alive k a) s = done ((reconcile k a b).modSup q) := by
    rw [hq, ← takeAlive_heard, ← wholeFrame_alive hz he]
    rfl
  rw [hexec]
  generalize reconcile k a b = u at hrec
  obtain ⟨x, y, z, h⟩ := hrec.rows
  have hbk : b.link k = linkLearnt a s.now (s.link k) := State.modLink_link_same ..
  have hbj : ∀ j, j ≠ k → b.link j = s.link j := fun j hj => State.modLink_link_ne _ _ _ _ hj
  obtain ⟨hin, hout, hviewer⟩ := h.session
  have honly := h.sessionOnly
  rw [hbk] at hin hout hviewer honly
  have hlane : laneEnds a (b.link k) = laneEnds a (s.link k) := by rw [hbk]; rfl
  have hleft : viewerLeft a (b.link k) = viewerLeft a (s.link k) := by rw [hbk]; rfl
  have hstate : (b.link k).inbound = (s.link k).inbound ∧ (b.link k).outbound = (s.link k).outbound ∧
      (b.link k).viewer = (s.link k).viewer := by rw [hbk]; exact ⟨rfl, rfl, rfl⟩
  obtain ⟨hbi, hbo, hbv⟩ := hstate
  have hgone := laneEnds_eq a s k
  have hgained : ((s.link k).viewer != .held && (u.link k).viewer == .held) = controlGained a (viewerLeft a (s.link k)) := by
    rw [hviewer]
    exact controlGained_iff a (s.link k)
  unfold SessionOnly at honly
  refine ⟨handedOn (u.modSup q), rfl, ⟨u, hrec, congrArg handedOn (hq u)⟩, (congrArg Link.up honly :),
    (congrArg Link.lastValid honly :), (congrArg Link.peerZones honly :), (congrArg Link.peerOutbound honly :),
    (congrArg Link.peerControlToYou honly :), (congrArg Link.peerInbound honly :), (congrArg Link.peerViewer honly :), hin,
    hout, hviewer.trans (congrArg (reconciledViewer a) (viewerLeft_match a (s.link k)).symm), (congrArg Link.receiver honly :),
    (congrArg (fun l => l.counters.received) honly :), fun hn => ?_, fun j hj => ?_,
    fun g v ho hi hv hc => h.returned (hbo.trans ho) hi hv hc,
    ⟨(h.input _).trans ?_, fun i hi => (h.input i).trans (h.lane.inputs i hi), fun o => (h.outs o).trans ?_, ?_, h.lines, ?_,
      h.pointer, fun hf => ?_, fun hm => ?_, h.joiners.joins, fun hm hn => h.unmasked hn ?_, ?_, ?_,
      fun j hj => h.otherFrames hj, fun g v ho hi => h.ended (hbo.trans ho) hi⟩, ?_⟩
  · intro l0 l1 ended l2 l3
    have h1 : linkFormed (peerAlone a (b.link k)) (b.link k) = l1 := by
      rw [peerAlone, hbi, linkFormed_ite, hbk]
      rfl
    have hended : ended = laneEnds a (s.link k) := laneEnds_match a (s.link k)
    have h2 : linkFormed (if viewerLeft a (b.link k) = .none ∧ a.controlToYou = true then some .release else none) l1 = l2 := by
      rw [linkFormed_ite, hleft]
      exact if_congr (and_congr_left' (by rw [hended]; exact viewerLeft_none)) rfl rfl
    have h3 : linkFormed (activationMode a b (b.link k).outbound) l2 = l3 := by
      rw [hbo]
      exact linkFormed_activation a s (s.link k).outbound l2
    have hf := h.frames hn
    rw [h1, h2, h3] at hf
    exact hf
  · have hj' := h.others hj
    rw [hbj j hj] at hj'
    exact hj'
  · rw [h.lane.input, hlane, hgone]
    rfl
  · rw [hlane, hgone, hbo]
    rfl
  · refine h.focus.trans ?_
    rw [hlane, hgone]
    exact if_congr (by rw [Bool.and_eq_true, beq_iff_eq]; rfl) rfl rfl
  · refine h.keyboard.trans ?_
    rw [hlane, hgone]
    rfl
  · refine (h.capture hf).trans ?_
    rw [hlane, hgone, hbv]
    rfl
  · have hm' : (s.focus.target == .rem k && (laneEnds a (s.link k) ||
        (controlGained a (viewerLeft a (s.link k)) && s.blank.state == .clear))) = true := by
      rw [hgone, ← hgained]
      exact hm
    rw [Bool.and_eq_true, beq_iff_eq] at hm'
    obtain ⟨hf, hwhy⟩ := hm'
    cases hl : laneEnds a (s.link k) with
    | true => exact h.masked_lane (by rw [hlane, hl, Bool.true_and]; exact beq_iff_eq.mpr hf)
    | false =>
      rw [hl, Bool.false_or, Bool.and_eq_true, beq_iff_eq] at hwhy
      exact h.masked_control hf hwhy.2 (hlane.trans hl) (by rw [hleft]; exact hwhy.1)
  · rw [hlane, hleft, hgone, ← hgained]
    exact hm
  · refine h.linkKeys.trans ?_
    rw [hleft, ← hgained]
    rfl
  · refine h.linkPointer.trans ?_
    rw [hleft, ← hgained]
    rfl
  · exact congrArg (fun w : State => handedOn (w.modSup q)) h.linkWork

end

section
/-!
SUPPORT. What the keyboard queue and the pointer queue of a port do with a record handed to them, one equation for each
outcome, and that no raw movement is lost to the clamp (R66, R68, R69).
-/

namespace Sys2Proof.Machine

open Sys2Proof

variable {n : Comp} {k : KeyRecord} {r l : PointerRecord} {p : Port} {s : State} {q rest : List PointerRecord}

/-! ### The keyboard queue -/

/-- A record appended to a keyboard queue that has room (R66). -/
theorem pushKey_room (h : ¬ 32 ≤ p.keyQueue.length) :
    pushKey k p = { p with
      keyQueue := p.keyQueue ++ [k]
      counters := { p.counters with
        keyQueued := count p.counters.keyQueued
        rollovers := if k.shape = .rollover then count p.counters.rollovers else p.counters.rollovers } } :=
  if_pos (Nat.lt_of_not_le h)

/-- A record that replaces the newest one of a full keyboard queue (R66). -/
theorem pushKey_full (h : 32 ≤ p.keyQueue.length) :
    pushKey k p = { p with
      keyQueue := p.keyQueue.dropLast ++ [k]
      noticed := true
      counters := { p.counters with
        keyQueued := count p.counters.keyQueued
        rollovers := if k.shape = .rollover then count p.counters.rollovers else p.counters.rollovers
        keyReplaced := count p.counters.keyReplaced } } :=
  if_neg (Nat.not_lt_of_le h)

theorem portKey_rest (n : Comp) (k : KeyRecord) (s : State) :
    portKey n k s = { s with ports := (portKey n k s).ports, sup := (portKey n k s).sup } := by
  unfold portKey
  dsimp only
  split <;> rfl

theorem portPointer_rest (n : Comp) (r : PointerRecord) (s : State) :
    portPointer n r s = { s with ports := (portPointer n r s).ports, sup := (portPointer n r s).sup } := by
  unfold portPointer
  dsimp only
  split <;> rfl

/-! ### What the pointer queue does with a record -/

theorem mergeable_absolute {b : Buttons} {x y : Nat} {w : Int} :
    mergeable l (.absolute b x y w) = true ↔ ∃ x' y' w', l = .absolute b x' y' w' := by
  cases l <;> simp [mergeable]

theorem mergeable_relative {b : Buttons} {x y w : Int} :
    mergeable l (.relative b x y w) = true ↔ ∃ x' y' w', l = .relative b x' y' w' := by
  cases l <;> simp [mergeable]

/-- Below the flow threshold, and into an empty queue, a record is appended (R68). -/
theorem pointerIntake_early (hl : p.pointerQueue.length < 16)
    (h : p.pointerQueue.length < p.flow ∨ p.pointerQueue = []) : pointerIntake r p = .append := by
  unfold pointerIntake
  rcases h with h | h
  · exact if_pos ⟨h, hl⟩
  · simp [h]

/-- From the flow threshold on a tail of the same form and buttons takes the record (R68). -/
theorem pointerIntake_tail (hq : p.pointerQueue = rest ++ [l]) (hm : mergeable l r = true)
    (h : p.flow ≤ p.pointerQueue.length ∨ 16 ≤ p.pointerQueue.length) : pointerIntake r p = .merge l := by
  have hlevel : ¬ (p.pointerQueue.length < p.flow ∧ p.pointerQueue.length < Config.pointerQueue) := by
    simp only [Config.pointerQueue]
    omega
  have htail : p.pointerQueue.getLast? = some l := by simp [hq]
  simp only [pointerIntake, if_neg hlevel, htail, if_pos hm]

/-- A record that no tail takes is appended while there is room (R68). -/
theorem pointerIntake_room (hq : p.pointerQueue = rest ++ [l]) (hm : ¬ mergeable l r = true)
    (h : p.pointerQueue.length < 16) : pointerIntake r p = .append := by
  have htail : p.pointerQueue.getLast? = some l := by simp [hq]
  have hroom : p.pointerQueue.length < Config.pointerQueue := h
  simp only [pointerIntake, htail, if_neg hm, if_pos hroom, ite_self]

/-- A record that no tail takes replaces the newest one of a full queue (R68). -/
theorem pointerIntake_full (hq : p.pointerQueue = rest ++ [l]) (hm : ¬ mergeable l r = true)
    (h : 16 ≤ p.pointerQueue.length) : pointerIntake r p = .replace :=
  (replaces_iff r p).mpr ⟨h, by simp [hq, hm]⟩

/-- A record is merged into the tail, which has its form and its buttons (R68). -/
theorem pointerIntake_merges (h : pointerIntake r p = .merge l) :
    (∃ rest, p.pointerQueue = rest ++ [l]) ∧ mergeable l r = true := by
  unfold pointerIntake at h
  dsimp only at h
  split at h
  · cases h
  · split at h
    next t ht =>
      split at h
      next hm =>
        obtain rfl := PointerIntake.merge.inj h
        exact ⟨⟨_, (List.dropLast_append_getLast? _ ht).symm⟩, hm⟩
      · split at h <;> cases h
    · cases h

/-! ### What each outcome leaves -/

theorem pushPointer_append (h : pointerIntake r p = .append) :
    pushPointer r p = { p with
      pointerQueue := p.pointerQueue ++ [fitted r]
      cx := carryAdd p.cx (excess r).1
      cy := carryAdd p.cy (excess r).2
      buttons := PointerRecord.buttons r
      counters := { p.counters with pointerQueued := count p.counters.pointerQueued } } := by
  simp only [pushPointer, h]

theorem pushPointer_merge (h : pointerIntake r p = .merge l) (hq : p.pointerQueue = rest ++ [l]) :
    pushPointer r p = { p with
      pointerQueue := rest ++ [fitted (mergeSum l r)]
      cx := carryAdd p.cx (excess (mergeSum l r)).1
      cy := carryAdd p.cy (excess (mergeSum l r)).2
      buttons := PointerRecord.buttons r
      counters := { p.counters with
        pointerQueued := count p.counters.pointerQueued, pointerMerged := count p.counters.pointerMerged } } := by
  simp only [pushPointer, h, hq, List.dropLast_concat]

theorem pushPointer_replace (h : pointerIntake r p = .replace) (hq : p.pointerQueue = rest ++ [l]) :
    pushPointer r p = { p with
      pointerQueue := rest ++ [fitted r]
      cx := carryAdd p.cx (excess r).1
      cy := carryAdd p.cy (excess r).2
      buttons := PointerRecord.buttons r
      noticed := true
      counters := { p.counters with
        pointerQueued := count p.counters.pointerQueued, pointerReplaced := count p.counters.pointerReplaced } } := by
  simp only [pushPointer, h, hq, List.dropLast_concat]

/-- An absolute record has no movement beyond the clamp: the carry is held within its bounds and gains nothing. -/
theorem carryAdd_zero (c : Int) : carryAdd c 0 = max (-32767) (min 32767 c) := by rw [carryAdd, Int.add_zero]

/-! ### No movement is lost to the clamp -/

/-- The raw movement that the relative records of a queue hold together. -/
def queuedMovement (q : List PointerRecord) : Int × Int :=
  q.foldl (fun t r => match r with | .relative _ x y _ => (t.1 + x, t.2 + y) | _ => t) (0, 0)

theorem queuedMovement_relative (q : List PointerRecord) (b : Buttons) (x y w : Int) :
    queuedMovement (q ++ [.relative b x y w]) = ((queuedMovement q).1 + x, (queuedMovement q).2 + y) := by
  rw [queuedMovement, List.foldl_append]
  rfl

/-- A carry that has not saturated has taken all that was added (R69). -/
theorem carryAdd_within {c x : Int} (hl : -32767 < carryAdd c x) (hu : carryAdd c x < 32767) : carryAdd c x = c + x := by
  unfold carryAdd at hl hu ⊢
  omega

/-- What the clamp cuts off a delta is what the carry is given, so that both together are the delta (R69). -/
theorem clamp_and_carry {t c d x : Int} (hl : -32767 < carryAdd c (x - clamp127 x))
    (hu : carryAdd c (x - clamp127 x) < 32767) (h : t + x = d) : t + clamp127 x + carryAdd c (x - clamp127 x) = d + c := by
  rw [carryAdd_within hl hu]
  omega

/-- Below a full queue the records queued and the carry hold together all the movement that was handed over, unless the
carry saturates (R69). -/
theorem pushPointer_movement {b : Buttons} {dx dy w : Int} (hroom : p.pointerQueue.length < 16)
    (hxl : -32767 < (pushPointer (.relative b dx dy w) p).cx) (hxu : (pushPointer (.relative b dx dy w) p).cx < 32767)
    (hyl : -32767 < (pushPointer (.relative b dx dy w) p).cy) (hyu : (pushPointer (.relative b dx dy w) p).cy < 32767) :
    (queuedMovement (pushPointer (.relative b dx dy w) p).pointerQueue).1 + (pushPointer (.relative b dx dy w) p).cx =
      (queuedMovement p.pointerQueue).1 + p.cx + dx ∧
    (queuedMovement (pushPointer (.relative b dx dy w) p).pointerQueue).2 + (pushPointer (.relative b dx dy w) p).cy =
      (queuedMovement p.pointerQueue).2 + p.cy + dy := by
  cases hi : pointerIntake (.relative b dx dy w) p with
  | append =>
    rw [pushPointer_append hi] at hxl hxu hyl hyu ⊢
    dsimp only [fitted, excess] at hxl hxu hyl hyu ⊢
    rw [queuedMovement_relative]
    exact ⟨(clamp_and_carry hxl hxu rfl).trans (by omega), (clamp_and_carry hyl hyu rfl).trans (by omega)⟩
  | merge l =>
    obtain ⟨⟨rest, hq⟩, hm⟩ := pointerIntake_merges hi
    obtain ⟨x, y, v, rfl⟩ := mergeable_relative.mp hm
    rw [pushPointer_merge hi hq] at hxl hxu hyl hyu ⊢
    dsimp only [fitted, excess, mergeSum] at hxl hxu hyl hyu ⊢
    rw [hq, queuedMovement_relative, queuedMovement_relative]
    exact ⟨(clamp_and_carry hxl hxu rfl).trans (by omega), (clamp_and_carry hyl hyu rfl).trans (by omega)⟩
  | replace => exact absurd ((replaces_iff _ p).mp hi).1 (Nat.not_le_of_lt hroom)

theorem pushPointer_queued (r : PointerRecord) (p : Port) :
    (pushPointer r p).counters.pointerQueued = count p.counters.pointerQueued := by
  unfold pushPointer
  dsimp only
  split <;> rfl

end Sys2Proof.Machine
end

section
/-! The queues of a port (O30). -/

open Sys2Proof Sys2Proof.Machine

/-- Settles O30: the keyboard queue by whether it is full, the pointer queue by the choice of R68, and the movement by
what the clamp cuts off. -/
theorem portQueuesTakeRecords : Obligations.PortQueuesTakeRecords := by
  refine ⟨fun n r s => ?_, fun n r s => ?_, fun b x y w p => ?_, fun b dx dy w p => ?_, fun b dx dy w p => ?_⟩
  · intro q
    have hport : (portKey n r s).port n = pushKey r (s.port n) := (portKey_port ..).trans (if_pos rfl)
    have hrest : (∀ m, m ≠ n → (portKey n r s).port m = s.port m) ∧
        portKey n r s = { s with ports := (portKey n r s).ports, sup := (portKey n r s).sup } :=
      ⟨fun m hm => (portKey_port ..).trans (if_neg hm), portKey_rest n r s⟩
    rw [hport]
    by_cases hfull : 32 ≤ (s.port n).keyQueue.length
    · rw [pushKey_full hfull]
      refine ⟨(if_neg (Nat.not_lt_of_le hfull)).symm, rfl, fun _ => ⟨rfl, rfl⟩, rfl, ?_, portKey_sup n r s, hrest⟩
      simp [q, hfull, count, countBy, Config.countMax]
    · rw [pushKey_room hfull]
      refine ⟨(if_pos (Nat.lt_of_not_le hfull)).symm, rfl, fun h => absurd h hfull, rfl, ?_, portKey_sup n r s, hrest⟩
      simp [q, hfull]
  · refine ⟨(portPointer_port ..).trans (if_pos rfl), fun m hm => (portPointer_port ..).trans (if_neg hm), ?_⟩
    rw [← portPointer_sup]
    exact portPointer_rest n r s
  · intro q r cap c taken
    have happend (h : pointerIntake r p = .append) : pushPointer r p = taken (q ++ [r]) := by
      rw [pushPointer_append h]
      simp only [r, excess, carryAdd_zero]
      rfl
    refine ⟨fun hl h => happend (pointerIntake_early hl h), fun rest x' y' w' hq h => ?_, fun rest l hq hne => ?_⟩
    · rw [pushPointer_merge (pointerIntake_tail hq (mergeable_absolute.mpr ⟨_, _, _, rfl⟩) h) hq]
      simp only [mergeSum, excess, carryAdd_zero]
      rfl
    · have hm : ¬ mergeable l r = true := fun h => by
        obtain ⟨x', y', w', rfl⟩ := mergeable_absolute.mp h
        exact hne x' y' w' rfl
      refine ⟨fun _ h => happend (pointerIntake_room hq hm h), fun h => ?_⟩
      rw [pushPointer_replace (pointerIntake_full hq hm h) hq]
      simp only [r, excess, carryAdd_zero]
      rfl
  · intro q fit carry r queued c appended
    refine ⟨fun hl h => pushPointer_append (pointerIntake_early hl h), fun rest x y v hq h => ?_, fun rest l hq hne => ?_⟩
    · exact pushPointer_merge (pointerIntake_tail hq (mergeable_relative.mpr ⟨_, _, _, rfl⟩) h) hq
    · have hm : ¬ mergeable l r = true := fun h => by
        obtain ⟨x', y', w', rfl⟩ := mergeable_relative.mp h
        exact hne x' y' w' rfl
      exact ⟨fun _ h => pushPointer_append (pointerIntake_room hq hm h),
        fun h => pushPointer_replace (pointerIntake_full hq hm h) hq⟩
  · intro total p' hlevel _ _ _ _ hxl hxu hyl hyu hflow
    have hroom : p.pointerQueue.length < 16 := by omega
    obtain ⟨hx, hy⟩ := pushPointer_movement hroom hxl hxu hyl hyu
    exact ⟨hx, hy, pushPointer_queued _ p⟩

end

section
/-!
SUPPORT. What a keyboard poll and a pointer poll find in each bus state, and what an ACTIVE port answers (R60, R62, R67,
R71).
-/

namespace Sys2Proof.Machine

open Sys2Proof

variable {s : State} {n : Comp} {p : Port}

/-! ### What a poll finds in each bus state -/

theorem pollKeys_detached (h : (s.port n).bus = .detached) : pollKeys n s = s := by simp only [pollKeys, h]

theorem pollKeys_attached (h : (s.port n).bus = .attached) :
    pollKeys n s = s.modPort n fun p => { p with keyAnswer := some .noChange } := by simp only [pollKeys, h]

theorem pollKeys_suspended (h : (s.port n).bus = .suspended) :
    pollKeys n s = (resumePort n s).modPort n answerKeys := by simp [pollKeys, pollResumes, h]

theorem pollKeys_active (h : (s.port n).bus = .active) : pollKeys n s = s.modPort n answerKeys := by
  simp [pollKeys, pollResumes, h]

theorem pollPointer_detached (h : (s.port n).bus = .detached) : pollPointer n s = s := by simp only [pollPointer, h]

theorem pollPointer_attached (h : (s.port n).bus = .attached) :
    pollPointer n s = s.modPort n fun p => { p with pointerAnswer := some .noChange } := by simp only [pollPointer, h]

theorem pollPointer_suspended (h : (s.port n).bus = .suspended) :
    pollPointer n s = (resumePort n s).modPort n (answerPointer (effMode (resumePort n s) n)) := by
  simp [pollPointer, pollResumes, h]

theorem pollPointer_active (h : (s.port n).bus = .active) :
    pollPointer n s = s.modPort n (answerPointer (effMode s n)) := by simp [pollPointer, pollResumes, h]

theorem resumePort_active (h : (s.port n).bus ≠ .detached) : ((resumePort n s).port n).bus = .active := by
  have ht : ((s.modPort n trimPort).port n).bus ≠ .detached := by rw [State.modPort_port_same]; exact h
  rw [resumePort, (enterActive_active ht).port]

/-- A command that writes one port, as its statement says it. -/
theorem handedOn_modPort (n : Comp) (f : Port → Port) (s : State) :
    let t := handedOn (s.modPort n f)
    t.port n = f (s.port n) ∧ (∀ m, m ≠ n → t.port m = s.port m) ∧
      t = { s with ports := t.ports, sup := transmitNext s.sup } :=
  ⟨State.modPort_port_same .., fun _ hm => State.modPort_port_ne _ _ _ _ hm, rfl⟩

/-! ### What an ACTIVE port answers -/

theorem reportRecord_eq (r : KeyRecord) :
    reportRecord r =
      .report r.mods (if r.shape = .boot then r.keys ++ List.replicate (6 - r.keys.length) 0 else r.keys) := by
  unfold reportRecord
  cases r.shape <;> rfl

theorem answerKeys_empty (h : p.keyQueue = []) : answerKeys p = { p with keyAnswer := some .noChange } := by
  simp only [answerKeys, h]

theorem answerKeys_oldest {r : KeyRecord} {rest : List KeyRecord} (h : p.keyQueue = r :: rest) :
    answerKeys p = { p with
      keyQueue := rest
      keyAnswer := some (reportRecord r)
      counters := { p.counters with keyTaken := count p.counters.keyTaken } } := by
  simp only [answerKeys, h]

theorem answerPointer_oldest {r : PointerRecord} {rest : List PointerRecord} (m : PointerMode)
    (h : p.pointerQueue = r :: rest) :
    answerPointer m p = { p with
      pointerQueue := rest
      pointerAnswer := some (.report r)
      counters := { p.counters with pointerTaken := count p.counters.pointerTaken } } := by
  simp only [answerPointer, h]

theorem answerPointer_still (m : PointerMode) (h : p.pointerQueue = []) (hc : p.cx = 0 ∧ p.cy = 0) :
    answerPointer m p = { p with pointerAnswer := some .noChange } := by
  simp only [answerPointer, h, if_pos hc]

theorem answerPointer_absolute (h : p.pointerQueue = []) (hc : ¬ (p.cx = 0 ∧ p.cy = 0)) :
    answerPointer .absolute p = { p with cx := 0, cy := 0, pointerAnswer := some .noChange } := by
  simp only [answerPointer, h, if_neg hc]

theorem answerPointer_relative (h : p.pointerQueue = []) (hc : ¬ (p.cx = 0 ∧ p.cy = 0)) :
    answerPointer .relative p = { p with
      cx := p.cx - clamp127 p.cx
      cy := p.cy - clamp127 p.cy
      pointerAnswer := some (.report (.relative p.buttons (clamp127 p.cx) (clamp127 p.cy) 0))
      counters := { p.counters with carryRecords := count p.counters.carryRecords } } := by
  simp only [answerPointer, h, if_neg hc]

end Sys2Proof.Machine
end

section
/-! The polls (O31). -/

open Sys2Proof Sys2Proof.Machine

/-- Settles O31: the poll by the bus state, and in ACTIVE the answer by the queue, the carry and the pointer mode. -/
theorem pollsAnswer : Obligations.PollsAnswer := by
  intro n s p put
  have hkeys {u : State} (h : pollKeys n s = u) : exec (.keyboardPoll n) s = .next (handedOn u) := congrArg done h
  have hpointer {u : State} (h : pollPointer n s = u) : exec (.pointerPoll n) s = .next (handedOn u) := congrArg done h
  have hput {f : Port → Port} {q : Port} (h : f p = q) : put q (handedOn (s.modPort n f)) := by
    subst h
    exact handedOn_modPort n f s
  refine ⟨fun hb => ⟨hkeys (pollKeys_detached hb), hpointer (pollPointer_detached hb)⟩,
    fun hb => ⟨⟨_, hkeys (pollKeys_attached hb), hput rfl⟩, ⟨_, hpointer (pollPointer_attached hb), hput rfl⟩⟩,
    fun hb => ⟨hkeys (pollKeys_suspended hb), hpointer (pollPointer_suspended hb), resumePort_active ?_⟩,
    fun hb => ⟨fun hq => ?_, fun r rest hq => ?_, fun r rest hq => ?_, fun hq => ?_⟩⟩
  · exact fun hd => by cases hb.symm.trans hd
  · exact ⟨_, hkeys (pollKeys_active hb), hput (answerKeys_empty hq)⟩
  · rw [← reportRecord_eq]
    exact ⟨_, hkeys (pollKeys_active hb), hput (answerKeys_oldest hq)⟩
  · exact ⟨_, hpointer (pollPointer_active hb), hput (answerPointer_oldest _ hq)⟩
  · refine ⟨_, hpointer (pollPointer_active hb), fun hx hy => ?_, fun hc hm => ?_, fun hc hm => ?_⟩
    · exact hput (answerPointer_still _ hq ⟨hx, hy⟩)
    · exact hput (hm ▸ answerPointer_absolute hq hc)
    · exact hput (hm ▸ answerPointer_relative hq hc)

end

section
/-!
SUPPORT. What the steps of a wake attempt leave: the signalling, the pulse, the failure, and the choice among them at its
start (R166 to R170, R172).
-/

namespace Sys2Proof.Machine

open Sys2Proof

variable {s x u : State} {n m : Comp} {f : Flight} {l : LineId} {c : PowerCause} {e : WakeFailure} {b : Byte}

/-! ### The flush of a port -/

theorem flushPort_port (n m : Comp) (s : State) :
    (flushPort n s).port m =
      if m = n then { s.port m with
        keyQueue := [], pointerQueue := [], cx := 0, cy := 0, buttons := 0
        counters := { (s.port m).counters with
          keyFlushed := min ((s.port m).counters.keyFlushed + (s.port m).keyQueue.length) 4294967295
          pointerFlushed := min ((s.port m).counters.pointerFlushed + (s.port m).pointerQueue.length) 4294967295 } }
      else s.port m := by
  by_cases hm : m = n
  · subst hm
    simp [flushPort, flushPointer, flushKeys, countBy, Config.countMax]
  · simp [flushPort, flushPointer, flushKeys, State.modPort_port, hm]

theorem flushPort_lastKey (n m : Comp) (s : State) :
    (flushPort n s).lastKey m = if m = n then none else s.lastKey m := setLastKey_lastKey ..

theorem flushPort_lastPointer (n m : Comp) (s : State) :
    (flushPort n s).lastPointer m = if m = n then none else s.lastPointer m := setLastPointer_lastPointer ..

theorem flushPort_rest (n : Comp) (s : State) :
    flushPort n s = { s with
      ports := (flushPort n s).ports
      router := { s.router with
        lastKey := (flushPort n s).router.lastKey, lastPointer := (flushPort n s).router.lastPointer } } := by
  unfold flushPort flushPointer flushKeys setLastKey setLastPointer State.modPort State.modRouter
  rfl

theorem flushPort_wake (n : Comp) (s : State) : (flushPort n s).wake = s.wake := rfl

theorem flushPort_lines (n : Comp) (s : State) : (flushPort n s).lines = s.lines := rfl

/-! ### The same state at another time -/

/-- A state that differs from `s` in the time and the supervisor link at most. -/
def Retimed (s x : State) : Prop := x = { s with now := x.now, sup := x.sup }

theorem Retimed.port (h : Retimed s x) (m : Comp) : x.port m = s.port m := by rw [h]; rfl

theorem Retimed.wakeOf (h : Retimed s x) (m : Comp) : x.wakeOf m = s.wakeOf m := by rw [h]; rfl

theorem Retimed.comp (h : Retimed s x) (m : Comp) : x.comp m = s.comp m := by rw [h]; rfl

theorem Retimed.line (h : Retimed s x) (l : LineId) : x.line l = s.line l := by rw [h]; rfl

theorem Retimed.lines (h : Retimed s x) : x.lines = s.lines := by rw [h]

theorem Retimed.router (h : Retimed s x) : x.router = s.router := by rw [h]

theorem Retimed.wakeLine (h : Retimed s x) (n : Comp) : Machine.wakeLine x n = Machine.wakeLine s n := by
  rw [h]
  rfl

theorem Retimed.busWakeable (h : Retimed s x) (n : Comp) : Machine.busWakeable x n = Machine.busWakeable s n := by
  rw [h]
  rfl

/-! ### The attempt state -/

theorem setAttempt_wakeOf_same (n : Comp) (a : Attempt) (s : State) :
    (setAttempt n a s).wakeOf n = ⟨a, (s.wakeOf n).powered⟩ := State.modWake_wakeOf_same ..

theorem setAttempt_wakeOf_ne (a : Attempt) (s : State) (hm : m ≠ n) : (setAttempt n a s).wakeOf m = s.wakeOf m :=
  State.modWake_wakeOf_ne _ _ _ _ hm

theorem setAttempt_lines (n : Comp) (a : Attempt) (s : State) : (setAttempt n a s).lines = s.lines := rfl

theorem notifyPower_lines (n : Comp) (c : PowerCause) (s : State) : (notifyPower n c s).lines = s.lines := rfl

theorem not_pulse_of_idle {a : Attempt} (h : Attempt.inFlight a = false) (f : Flight) (l : LineId) (e : Nat) :
    a ≠ .pulse f l e := by
  rintro rfl
  cases h

/-- The attempt state of Cn has been written, and nothing else of the wake records (R165). -/
structure AttemptWritten (n : Comp) (a : Attempt) (s u : State) : Prop where
  attempt : (u.wakeOf n).attempt = a
  powered : (u.wakeOf n).powered = (s.wakeOf n).powered
  attempts : ∀ m, m ≠ n → u.wakeOf m = s.wakeOf m

theorem setAttempt_written (a : Attempt) (hx : Retimed s x) (hu : u.wake = (setAttempt n a x).wake) :
    AttemptWritten n a s u := by
  have hwake (m : Comp) : u.wakeOf m = (setAttempt n a x).wakeOf m := congrArg (pick · m) hu
  have hself : u.wakeOf n = ⟨a, (s.wakeOf n).powered⟩ := by rw [hwake, setAttempt_wakeOf_same, hx.wakeOf]
  refine ⟨by rw [hself], by rw [hself], fun m hm => ?_⟩
  rw [hwake, setAttempt_wakeOf_ne a x hm, hx.wakeOf]

/-- The supervisor link after the host has been told of the attempt state `a` of Cn, its port and its powered flag being
those of `s` (R177). -/
def attemptTold (n : Comp) (a : Attempt) (c : PowerCause) (s : State) (p : Supervisor) : Supervisor :=
  queueNotice .power (powerNotice n c (s.port n).bus ⟨a, (s.wakeOf n).powered⟩) p

theorem notifyPower_attemptTold {a : Attempt} {v : State} (c : PowerCause) (hx : Retimed s x)
    (hw : v.wake = (setAttempt n a x).wake) (hb : (v.port n).bus = (s.port n).bus) (hs : v.sup = x.sup) :
    (notifyPower n c v).sup = attemptTold n a c s x.sup := by
  have hself : v.wakeOf n = ⟨a, (s.wakeOf n).powered⟩ := by
    rw [State.wakeOf, hw, ← hx.wakeOf]
    exact setAttempt_wakeOf_same n a x
  rw [notifyPower, notify_sup, hb, hself, hs]
  rfl

/-! ### Signalling and pulses -/

/-- The port of Cn signals on its bus until the time `i` (R168). -/
structure SignalBegun (n : Comp) (f : Flight) (i : Nat) (s x u : State) : Prop
    extends AttemptWritten n (.busSignal f i) s u where
  ports : ∀ m, u.port m = s.port m
  rest : u = { x with wake := u.wake, sup := attemptTold n (.busSignal f i) .started s x.sup }

theorem beginSignal_begun (f : Flight) (hx : Retimed s x) :
    SignalBegun n f (x.now + 10) s x (beginSignal n f x) := by
  refine ⟨setAttempt_written _ hx rfl, hx.port, ?_⟩
  rw [← notifyPower_attemptTold .started hx rfl (congrArg Port.bus (hx.port n)) rfl]
  rfl

/-- A pulse has begun on the line `l`, which is active (R169). -/
structure PulseBegun (n : Comp) (f : Flight) (l : LineId) (c : PowerCause) (s x u : State) : Prop
    extends AttemptWritten n (.pulse f l (x.now + f.pulseWidth)) s u where
  line : u.line l = { s.line l with level := true }
  lines : ∀ j, j ≠ l → u.line j = s.line j
  ports : ∀ m, u.port m = s.port m
  rest : u = { x with
    wake := u.wake, lines := u.lines, sup := attemptTold n (.pulse f l (x.now + f.pulseWidth)) c s x.sup }

theorem pulseDue_begun (f : Flight) (c : PowerCause) (hx : Retimed s x) (h : wakeLine x n = some l) :
    PulseBegun n f l c s x (pulseDue n f c x) := by
  let v := setPulse l true (setAttempt n (.pulse f l (x.now + f.pulseWidth)) x)
  have hdue : pulseDue n f c x = notifyPower n c v := by simp only [pulseDue, h, v]
  rw [hdue]
  refine ⟨setAttempt_written _ hx rfl, ?_, fun j hj => ?_, hx.port, ?_⟩
  · rw [← hx.line]
    exact State.modLine_line_same ..
  · rw [← hx.line]
    exact State.modLine_line_ne _ _ _ _ hj
  · rw [← notifyPower_attemptTold (v := v) c hx rfl (congrArg Port.bus (hx.port n)) rfl]
    rfl

/-! ### A failure -/

/-- An attempt has failed: the port of its computer is flushed and its last records are none (R73, R172). -/
structure AttemptFailed (n : Comp) (e : WakeFailure) (s x u : State) : Prop
    extends AttemptWritten n (.failed e) s u where
  port : u.port n = { s.port n with
    keyQueue := [], pointerQueue := [], cx := 0, cy := 0, buttons := 0
    counters := { (s.port n).counters with
      keyFlushed := min ((s.port n).counters.keyFlushed + (s.port n).keyQueue.length) 4294967295
      pointerFlushed := min ((s.port n).counters.pointerFlushed + (s.port n).pointerQueue.length) 4294967295 } }
  ports : ∀ m, m ≠ n → u.port m = s.port m
  lastKey : u.lastKey n = none
  lastKeys : ∀ m, m ≠ n → u.lastKey m = s.lastKey m
  lastPointer : u.lastPointer n = none
  lastPointers : ∀ m, m ≠ n → u.lastPointer m = s.lastPointer m
  rest : u = { x with
    wake := u.wake, ports := u.ports, lines := u.lines
    router := { s.router with lastKey := u.router.lastKey, lastPointer := u.router.lastPointer }
    sup := attemptTold n (.failed e) .failed s x.sup }

theorem failWake_eq (n : Comp) (e : WakeFailure) (x : State) :
    failWake n e x = notifyPower n .failed (flushPort n (setAttempt n (.failed e) (endPulse n x))) := rfl

theorem failWake_failed (n : Comp) (e : WakeFailure) (hx : Retimed s x) : AttemptFailed n e s x (failWake n e x) := by
  obtain ⟨ls, hend⟩ : ∃ ls, endPulse n x = { x with lines := ls } := ⟨_, endPulse_eq n x⟩
  rw [failWake_eq, hend]
  let y := setAttempt n (.failed e) { x with lines := ls }
  have hy (m : Comp) : y.port m = s.port m := hx.port m
  have hport (m : Comp) := flushPort_port n m y
  have hkey (m : Comp) := flushPort_lastKey n m y
  have hpointer (m : Comp) := flushPort_lastPointer n m y
  have hwake : (flushPort n y).wake = (setAttempt n (.failed e) x).wake := flushPort_wake n y
  have hrest := flushPort_rest n y
  generalize flushPort n y = v at *
  have hv : v = { x with
      wake := v.wake, ports := v.ports, lines := v.lines
      router := { s.router with lastKey := v.router.lastKey, lastPointer := v.router.lastPointer } } := by
    rw [hrest, ← hx.router]
    rfl
  have hbus : (v.port n).bus = (s.port n).bus := by rw [hport, if_pos rfl, hy]
  refine ⟨setAttempt_written _ hx hwake, (hport n).trans ((if_pos rfl).trans (by rw [hy])),
    fun m hm => (hport m).trans ((if_neg hm).trans (hy m)), (hkey n).trans (if_pos rfl), fun m hm => ?_,
    (hpointer n).trans (if_pos rfl), fun m hm => ?_, ?_⟩
  · exact (hkey m).trans ((if_neg hm).trans (State.lastKey_congr hx.router m))
  · exact (hpointer m).trans ((if_neg hm).trans (State.lastPointer_congr hx.router m))
  · rw [← notifyPower_attemptTold .failed hx hwake hbus (congrArg State.sup hv :)]
    exact congrArg (fun y : State => { y with sup := (notifyPower n .failed v).sup }) hv

/-- A failure ends the pulse of its attempt, and no other line changes (R172). -/
theorem failWake_lines (n : Comp) (e : WakeFailure) (x : State) : (failWake n e x).lines = (endPulse n x).lines := by
  rw [failWake_eq, notifyPower_lines, flushPort_lines, setAttempt_lines]

theorem failWake_lines_quiet (e : WakeFailure) (hx : Retimed s x) (h : ∀ f l i, (s.wakeOf n).attempt ≠ .pulse f l i) :
    (failWake n e x).lines = s.lines := by
  rw [failWake_lines, endPulse_quiet (by rw [hx.wakeOf]; exact h), hx.lines]

/-- A pulse is due: it has begun on the line of Cn, or the attempt has failed for want of one (R169, R170). -/
structure LineSought (n : Comp) (f : Flight) (c : PowerCause) (s x u : State) : Prop where
  line : ∀ l, wakeLine s n = some l → PulseBegun n f l c s x u
  none : wakeLine s n = none → AttemptFailed n .noLine s x u ∧ u.lines = s.lines

theorem pulseDue_sought (f : Flight) (c : PowerCause) (hx : Retimed s x)
    (hq : ∀ f l i, (s.wakeOf n).attempt ≠ .pulse f l i) : LineSought n f c s x (pulseDue n f c x) := by
  refine ⟨fun l h => pulseDue_begun f c hx ((hx.wakeLine n).trans h), fun h => ?_⟩
  have hfails : pulseDue n f c x = failWake n .noLine x := by simp only [pulseDue, hx.wakeLine, h]
  rw [hfails]
  exact ⟨failWake_failed n .noLine hx, failWake_lines_quiet .noLine hx hq⟩

/-! ### The start of an attempt -/

theorem busWakeable_iff : busWakeable s n = true ↔ (s.port n).bus = .suspended ∧ (s.port n).remoteWake = true := by
  simp [busWakeable]

/-- The fixed values of an attempt of Cn that starts now (R165). -/
def newFlight (n : Comp) (s : State) : Flight :=
  ⟨(s.comp n).method, s.now, s.now + (s.comp n).wakeTimeout, (s.comp n).pulseWidth⟩

theorem startAttempt_signals (hm : (s.comp n).method ≠ .line) (hb : busWakeable s n = true) :
    startAttempt n s = beginSignal n (newFlight n s) s := by
  unfold startAttempt newFlight
  dsimp only
  split
  next h => rw [if_pos hb, h]
  next h => exact absurd h hm
  next h => rw [if_pos hb, h]

theorem startAttempt_notPermitted (hm : (s.comp n).method = .bus) (hb : ¬ busWakeable s n = true) :
    startAttempt n s = failWake n .notPermitted s := by simp only [startAttempt, hm, if_neg hb]

theorem startAttempt_pulseDue
    (h : (s.comp n).method = .line ∨ ((s.comp n).method = .both ∧ ¬ busWakeable s n = true)) :
    startAttempt n s = pulseDue n (newFlight n s) .started s := by
  unfold newFlight
  rcases h with hm | ⟨hm, hb⟩
  · simp only [startAttempt, hm]
  · simp only [startAttempt, hm, if_neg hb]

/-- An attempt has started by the method of its computer (R168 to R170). -/
structure AttemptStarted (n : Comp) (s x u : State) : Prop where
  signals : (s.comp n).method ≠ .line → busWakeable s n = true → SignalBegun n (newFlight n s) (s.now + 10) s x u
  notPermitted : (s.comp n).method = .bus → ¬ busWakeable s n = true →
    AttemptFailed n .notPermitted s x u ∧ u.lines = s.lines
  pulses : (s.comp n).method = .line ∨ ((s.comp n).method = .both ∧ ¬ busWakeable s n = true) →
    LineSought n (newFlight n s) .started s x u

theorem startAttempt_started (hx : Retimed s x) (hnow : x.now = s.now)
    (hf : Attempt.inFlight (s.wakeOf n).attempt = false) : AttemptStarted n s x (startAttempt n x) := by
  have hq := not_pulse_of_idle hf
  have hflight : newFlight n x = newFlight n s := by rw [newFlight, newFlight, hx.comp, hnow]
  refine ⟨fun hm hb => ?_, fun hm hb => ?_, fun hm => ?_⟩
  all_goals rw [← hx.comp] at hm
  · rw [← hx.busWakeable] at hb
    rw [startAttempt_signals hm hb, hflight, ← hnow]
    exact beginSignal_begun _ hx
  · rw [← hx.busWakeable] at hb
    rw [startAttempt_notPermitted hm hb]
    exact ⟨failWake_failed n .notPermitted hx, failWake_lines_quiet .notPermitted hx hq⟩
  · rw [← hx.busWakeable] at hm
    rw [startAttempt_pulseDue hm, hflight]
    exact pulseDue_sought _ .started hx hq

/-! ### A trigger -/

theorem wakeTrigger_active (h : (s.port n).bus = .active) :
    wakeTrigger n s = okayWith (wakeReply (some false) n s) s := if_pos h

theorem wakeTrigger_inFlight (ha : (s.port n).bus ≠ .active) (h : Attempt.inFlight (s.wakeOf n).attempt = true) :
    wakeTrigger n s = okayWith (wakeReply (some true) n s) s := (if_neg ha).trans (if_pos h)

theorem wakeTrigger_starts (ha : (s.port n).bus ≠ .active) (h : Attempt.inFlight (s.wakeOf n).attempt = false) :
    wakeTrigger n s = ⟨.accepted, wakeReply none n (startAttempt n s), startAttempt n s⟩ :=
  (if_neg ha).trans (if_neg (by rw [h]; exact Bool.false_ne_true))

theorem judgeWake_of_comp (h : compOf b = some n) : judgeWake [b] s = wakeTrigger n s := by simp only [judgeWake, h]

theorem judgeWake_of_none (h : compOf b = none) : judgeWake [b] s = refuse .badArg s := by simp only [judgeWake, h]

/-! ### The stage ends -/

theorem wakeSignalEnd_due {i : Nat} (h : (s.wakeOf n).attempt = .busSignal f i) :
    exec (.wakeSignalEnd n) s = .next (handedOn (setAttempt n (afterSignal f) (reach i s))) := by
  change execWakeSignalEnd n s = _
  simp only [execWakeSignalEnd, h]
  rfl

theorem wakeBusStageEnd_due {i : Nat} (h : (s.wakeOf n).attempt = .wait f .busStage i) :
    exec (.wakeBusStageEnd n) s = .next (handedOn (pulseDue n f .pulse (reach i s))) := by
  change execWakeBusStageEnd n s = _
  simp only [execWakeBusStageEnd, h]
  rfl

theorem wakePulseEnd_due {i : Nat} (h : (s.wakeOf n).attempt = .pulse f l i) :
    exec (.wakePulseEnd n) s = .next (handedOn (pulseEnd n f l (reach i s))) := by
  change execWakePulseEnd n s = _
  simp only [execWakePulseEnd, h]
  rfl

theorem wakeDeadline_due {i : Nat} (h : (s.wakeOf n).attempt = .wait f .final i) :
    exec (.wakeDeadline n) s = .next (handedOn (failWake n .timeout (reach f.deadline s))) := by
  change execWakeDeadline n s = _
  simp only [execWakeDeadline, h]
  rfl

theorem wakeSignalEnd_idle (h : ∀ f i, (s.wakeOf n).attempt ≠ .busSignal f i) :
    exec (.wakeSignalEnd n) s = .next (handedOn s) := by
  change execWakeSignalEnd n s = _
  unfold execWakeSignalEnd
  split
  next f i ha => exact absurd ha (h f i)
  next => rfl

theorem wakeBusStageEnd_idle (h : ∀ f i, (s.wakeOf n).attempt ≠ .wait f .busStage i) :
    exec (.wakeBusStageEnd n) s = .next (handedOn s) := by
  change execWakeBusStageEnd n s = _
  unfold execWakeBusStageEnd
  split
  next f i ha => exact absurd ha (h f i)
  next => rfl

theorem wakePulseEnd_idle (h : ∀ f l i, (s.wakeOf n).attempt ≠ .pulse f l i) :
    exec (.wakePulseEnd n) s = .next (handedOn s) := by
  change execWakePulseEnd n s = _
  unfold execWakePulseEnd
  split
  next f l i ha => exact absurd ha (h f l i)
  next => rfl

theorem wakeDeadline_idle (h : ∀ f i, (s.wakeOf n).attempt ≠ .wait f .final i) :
    exec (.wakeDeadline n) s = .next (handedOn s) := by
  change execWakeDeadline n s = _
  unfold execWakeDeadline
  split
  next f i ha => exact absurd ha (h f i)
  next => rfl

theorem pulseEnd_early (h : s.now < f.deadline) :
    pulseEnd n f l s = setAttempt n (.wait f .final f.deadline) (setPulse l false s) := if_pos h

theorem pulseEnd_late (h : f.deadline ≤ s.now) : pulseEnd n f l s = failWake n .timeout s := if_neg (Nat.not_lt_of_le h)

/-- A pulse that ends leaves its line inactive, before the deadline and after it (R169). -/
theorem pulseEnd_lines {i : Nat} (h : (s.wakeOf n).attempt = .pulse f l i) :
    (pulseEnd n f l s).lines = (setPulse l false s).lines := by
  rcases Nat.lt_or_ge s.now f.deadline with hd | hd
  · rw [pulseEnd_early hd]
    rfl
  · rw [pulseEnd_late hd, failWake_lines, endPulse_pulse h]
    rfl

end Sys2Proof.Machine
end

section
/-! The wake attempt (O57). -/

open Sys2Proof Sys2Proof.Machine

/-- Settles O57: the start by the method and the bus, each stage end by the attempt's state, and each failure by what
R172 does to the port. -/
theorem wakeAttemptRuns : Obligations.WakeAttemptRuns := by
  intro tag b0 n s r w holds noLine onlyLine signals told others failed pulses starts
  have hfailed {e : WakeFailure} {x u : State} (h : AttemptFailed n e s x u) : failed e x u :=
    ⟨h.attempt, h.port, h.lastKey, h.lastPointer, fun m hm => ⟨h.lastKeys m hm, h.lastPointers m hm⟩,
      ⟨fun m hm => ⟨h.attempts m hm, h.ports m hm⟩, h.powered⟩, h.rest⟩
  have hsought {f : Flight} {c : PowerCause} {x u : State} (h : LineSought n f c s x u) :
      (∀ l, onlyLine l → pulses l f c x u) ∧ (noLine → failed .noLine x u ∧ u.lines = s.lines) := by
    refine ⟨fun l hl => ?_, fun hn => (h.none (wakeLine_none hn)).imp_left hfailed⟩
    have hp := h.line l (wakeLine_only hl.1 hl.2)
    exact ⟨hp.attempt, hp.line, hp.lines, ⟨fun m hm => ⟨hp.attempts m hm, hp.ports m⟩, hp.powered⟩, hp.rest⟩
  have hstarts {x u : State} (h : AttemptStarted n s x u) : starts x u := by
    refine ⟨fun hm hs => ?_, fun hm hs => ?_, fun hm => ?_⟩
    · have hb := h.signals hm (busWakeable_iff.mpr hs)
      exact ⟨hb.attempt, ⟨fun m hm => ⟨hb.attempts m hm, hb.ports m⟩, hb.powered⟩, hb.rest⟩
    · exact (h.notPermitted hm (busWakeable_iff.not.mpr hs)).imp_left hfailed
    · exact hsought (h.pulses (hm.imp_right fun g => ⟨g.1, busWakeable_iff.not.mpr g.2⟩))
  have hreach (t : Nat) : Retimed s (reach t s) := rfl
  refine ⟨fun hb ht => ?_, fun hb ht => ?_, fun h => ?_, fun ha hf => ?_, fun f e h => ?_, fun f e h => ?_,
    fun f l e h => ?_, fun f e h => ?_, wakeSignalEnd_idle, wakeBusStageEnd_idle, wakePulseEnd_idle, wakeDeadline_idle⟩
  · exact exec_request r judgeWake s ht _ _ _ (judgeWake_of_none (compOf_eq_none.mpr hb))
  · have hj : judgeWake r.body (begun r s) = wakeTrigger n (begun r s) := judgeWake_of_comp (compOf_eq_some hb)
    refine ⟨fun ha => ?_, fun ha hf => ?_, fun ha hf => ⟨_, ?_, hstarts (startAttempt_started (x := begun r s) rfl rfl hf)⟩⟩
    · exact exec_request r judgeWake s ht _ _ _ (hj.trans (wakeTrigger_active ha))
    · exact exec_request r judgeWake s ht _ _ _ (hj.trans (wakeTrigger_inFlight ha hf))
    · exact exec_request r judgeWake s ht _ _ _ (hj.trans (wakeTrigger_starts ha hf))
  · by_cases ha : (s.port n).bus = .active
    · rw [wakeTrigger_active ha]
      rfl
    · rw [wakeTrigger_inFlight ha (h.resolve_left ha)]
      rfl
  · rw [wakeTrigger_starts ha hf]
    exact hstarts (startAttempt_started rfl rfl hf)
  · have hw : AttemptWritten n (afterSignal f) s (setAttempt n (afterSignal f) (reach e s)) :=
      setAttempt_written _ (hreach e) rfl
    rw [← afterSignal_eq]
    exact ⟨_, wakeSignalEnd_due h, ⟨fun m hm => ⟨hw.attempts m hm, rfl⟩, hw.powered⟩, hw.attempt, rfl⟩
  · have hq : ∀ f l i, w.attempt ≠ .pulse f l i := fun g l i hg => by cases h.symm.trans hg
    exact ⟨_, wakeBusStageEnd_due h, hsought (pulseDue_sought f .pulse (hreach e) hq)⟩
  · have hlines := pulseEnd_lines (s := reach e s) h
    refine ⟨_, wakePulseEnd_due h, ?_, fun j hj => ?_, fun hd => ?_, fun hd => ?_⟩
    · rw [State.line, hlines]
      exact State.modLine_line_same ..
    · rw [State.line, hlines]
      exact State.modLine_line_ne _ _ _ _ hj
    · rw [pulseEnd_early hd]
      have hw : AttemptWritten n (.wait f .final f.deadline) s
          (setAttempt n (.wait f .final f.deadline) (setPulse l false (reach e s))) :=
        setAttempt_written _ (hreach e) rfl
      exact ⟨hw.attempt, ⟨fun m hm => ⟨hw.attempts m hm, rfl⟩, hw.powered⟩, rfl⟩
    · rw [pulseEnd_late hd]
      exact hfailed (failWake_failed n .timeout (hreach e))
  · have hq : ∀ f l i, w.attempt ≠ .pulse f l i := fun g l i hg => by cases h.symm.trans hg
    exact ⟨_, wakeDeadline_due h, hfailed (failWake_failed n .timeout (hreach f.deadline)),
      failWake_lines_quiet .timeout (hreach f.deadline) hq⟩

end
